-- ==== Sys2Proof/Word.lean ====
section
/-! DEFINITION. The native word of R7 and R14 (spec/00_scope.md, spec/01_sentence_model.md): 18 bits, the tag in
bits 17:16 and the data in bits 15:0. -/

namespace Sys2Proof

/-- A byte of payload. -/
abbrev Byte := BitVec 8

/-- R7: the native word, tag in bits 17:16, data in bits 15:0. -/
abbrev Word := BitVec 18

/-- R14, the tag of a word: bits 17:16. -/
abbrev Tag := BitVec 2

namespace Word

/-- The word `tag:data`. -/
abbrev mk (t : Tag) (d : BitVec 16) : Word := t ++ d

/-- R7: bits 15:0. -/
abbrev data (w : Word) : BitVec 16 := w.extractLsb' 0 16

/-- R7: bits 17:16. -/
abbrev tag (w : Word) : Tag := w.extractLsb' 16 2

/-- R14: `00:0x0000`, not valid. -/
abbrev empty : Word := 0

end Word

end Sys2Proof
end

