-- ==== Sys2Proof/Syntax.lean ====
section
/-! DEFINITION. The commands of the block: one constructor of `Instr` per row of spec/opcode_table.json, with the
operands the spec's text gives that operation or event. The table gives the rows no bits, so every operand here is
read from the rule the row names. -/

namespace Sys2Proof

/-- R92: who makes a register access. `mh` is the Masthead controller or another agent inside the device (code
0b00), `pcie fn` function `fn` over PCIe (0b01), `lhp` the Local Host Port (0b10), `stay dev` a request of device
`dev` over a Stay link (0b11). -/
inductive Via where
  | mh
  | pcie (fn : Fin 64)
  | lhp
  | stay (dev : Fin 16)
  deriving DecidableEq, Repr

/-- R64, R96: a register page: its page index, and the page within an inst area (0 on every other page). -/
structure PageRef where
  page : Fin 320
  sub  : Fin 3
  deriving DecidableEq, Repr

/-- A read or a write on the register bus as its source issues it. `addr` is a BAR0 byte address of the source's
function (R94, R97, and R99 for a Stay request, whose address is a block-page address of this device), or an LHP byte
address (R90, R100). `be` are the PCIe byte enables (R71, R88), of the first dword of a read request that asks for `more`
further dwords (R71; 0 for every other access). `data` holds bits 31:0 of a PCIe or Stay write; of
an LHP write bits 15:0 are LD[15:0] and bits 17:16 are LD[17:16]. -/
structure Access where
  via  : Via
  addr : Nat
  be   : BitVec 4
  data : BitVec 32
  more : Nat
  deriving DecidableEq, Repr

/-- R49: the two domains that stop their clock in Reefed. -/
inductive ClockDom where
  | core
  | engine
  deriving DecidableEq, Repr

/-- What holds a hold timer: an Ethernet port (R133), a CAN channel in bus-off (R172), a Stay link (R487). -/
inductive HoldUnit where
  | eth (p : Fin 22)
  | can (c : Fin 32)
  | link (l : Fin 4)
  deriving DecidableEq, Repr

/-- R110: how a received frame ends: with a good FCS, with a bad one, or with a reassembly error of R128. -/
inductive RxEnd where
  | good
  | badFcs
  | smdError
  deriving DecidableEq, Repr

/-- A CAN frame as the channel sees it on the bus (R43, R167): the format word P0, the identifier, the XL header
words that follow (acceptance field and VCID word, empty on classical and FD frames) and the data bytes. -/
structure CanFrame where
  fmt  : BitVec 16
  id   : BitVec 32
  vcid : BitVec 16
  af   : BitVec 32
  data : List Byte
  deriving DecidableEq, Repr

/-- R224: the parts of the table set that are copied one by one. -/
inductive TablePart where
  | nrm
  | eth
  | gwy
  | eng
  deriving DecidableEq, Repr

/-- What runs sentence-program instructions: an engine (R290) or the wake watch engine (R334, R501). -/
inductive PUnit where
  | spe (k : Fin 72)
  | watch
  deriving DecidableEq, Repr

/-- R406: a queue of an inst: RQ0 to RQ15 or TQ0 to TQ7. -/
inductive QId where
  | rx (q : Fin 16)
  | tx (t : Fin 8)
  deriving DecidableEq, Repr

/-- The event inputs of R381. -/
inductive TimeInput where
  | tsi (n : Fin 4)
  | pps
  deriving DecidableEq, Repr

/-- R463, R465: a flit as received: its VC, KIND, END, returned credits and valid message words, and whether its
CRC-16 checked good. `replay` marks the first flit of a replay. -/
structure Flit where
  vc    : BitVec 2
  kind  : BitVec 2
  last  : Bool
  words : List (BitVec 16)
  cvc   : BitVec 2
  crn   : BitVec 3
  good  : Bool
  replay : Bool
  deriving DecidableEq, Repr

/-- R482: the AtomicOps, with their operands. -/
inductive AtomOp where
  | fetchAdd (v : BitVec 64)
  | swap (v : BitVec 64)
  | cas (cmp new : BitVec 64)
  deriving DecidableEq, Repr

/-- R470: a VC1 request. `off` is the byte offset in the remote window, `src` the originating source code. -/
inductive ReqOp where
  | read
  | write (v : BitVec 32)
  | atom (op : AtomOp) (wide : Bool)
  deriving DecidableEq, Repr

/-- R470: a VC1 request message as it arrives. -/
structure RemReq where
  src  : Fin 16
  code : BitVec 2
  tag  : Fin 64
  be   : BitVec 4
  off  : Fin 1048576
  op   : ReqOp
  deriving DecidableEq, Repr

/-- R470: the STATUS of a VC2 completion. -/
inductive RemStatus where
  | ok
  | retry
  | locked
  | unsupported
  | noPath
  deriving DecidableEq, Repr

/-- R471: a DOM_RELAY message. -/
structure DomRelayMsg where
  seq    : BitVec 8
  dom    : Fin 4
  sync   : Bool
  step   : Bool
  at_    : BitVec 64
  rate   : BitVec 32
  stepS  : BitVec 32
  stepNs : BitVec 32
  deriving DecidableEq, Repr

/-- R501: what an event passes to a wake program at 0x1001 to 0x1007 (the words read there, in order). -/
structure WakeData where
  w1 : BitVec 16
  w2 : BitVec 16
  w3 : BitVec 16
  d0 : BitVec 16
  d1 : BitVec 16
  d2 : BitVec 16
  d3 : BitVec 16
  deriving DecidableEq, Repr

/-- R513, R514: what an uncorrectable error in MRAM makes invalid: the installed component of a TYPE, the journal record of a
sequence number, a copy of the storm-jib table (A or B), the rig-image cache, a key slot, an entry of the freeze ring, or the Hoist
loader. -/
inductive MramItem where
  | comp (type : Fin 5)
  | record (seq : BitVec 32)
  | sj (b : Bool)
  | cache
  | key (slot : Fin 4)
  | freeze (entry : Fin 4096)
  | loader
  deriving DecidableEq, Repr

/-- The PCIe DMA descriptor of R412 and R415: four dwords. -/
structure Desc where
  d0 : BitVec 32
  d1 : BitVec 32
  d2 : BitVec 32
  d3 : BitVec 32
  deriving DecidableEq, Repr

/-- What followed the first 64 bytes of a frame, the FCS last, when it ended. Where `short` holds, the frame ended before 64 bytes
of it were in: `bytes` is all of it, and its first bit lay `short` ago (R110). -/
structure RxTail where
  bytes : List Byte
  short : Option Nat
  deriving DecidableEq, Repr

/-- What was being received when a link was lost (R580): `part` bytes (0: none) of a frame that had fewer than 64 in and whose
first bit lay `age` ago, and `ins` bytes of each frame that had more, the innermost first. -/
structure LostFrames where
  part : Nat
  age  : Nat
  ins  : List Nat
  deriving DecidableEq, Repr

/-- A port whose link is good again, and the speed of the in-band control word it receives (R106, R135). -/
structure PortSpeed where
  port  : Fin 22
  speed : BitVec 2
  deriving DecidableEq, Repr

/-- By how much ISO 11898-1 raises TEC and REC for a detected error (R164). -/
structure ErrInc where
  tec  : Nat
  rec_ : Nat
  deriving DecidableEq, Repr

/-- A CAN channel and how long ago the SOF of its attempt was sampled (R171, R372). -/
structure CanStart where
  chan : Fin 32
  age  : Nat
  deriving DecidableEq, Repr

/-- A LIN header as a responder sees it: the protected identifier, and whether the sync field lay within ±15 % (R173). -/
structure LinHead where
  pid    : Byte
  syncOk : Bool
  deriving DecidableEq, Repr

/-- How many words a chunk of the patrol scrub corrected (R555), and how many of them lie in engine memories (R306). -/
structure Corrected where
  all    : Nat
  engine : Nat
  deriving DecidableEq, Repr

/-- Word register operands w0 to w15, address register operands a0 to a3 (R319, R325). -/
abbrev WReg := Fin 16
abbrev AReg := Fin 4

/-- One command per row of the operation table. Numbers that name a unit are `Fin`; `age` is how long ago, in units of
62.5 ps, the time-stamp point of R372 lay when the event is taken; `via` is the source of a register access (R92);
`ide` says that the frame that woke a
channel has an extended identifier; of a scrub, `corrected` counts corrected words and `bad` names uncorrectable ones (of
the patrol scrub: whether it is a cell, and its handle or its BAR0 address); `data` is the register value written. -/
inductive Instr where
  -- register bus (spec/03_register_pages.md, spec/13_host_interfaces.md)
  | registerWrite (a : Access)
  | clearingRead (a : Access)
  | counterSnapshotRead (a : Access)
  | pop (a : Access)
  | push (a : Access)
  | tagAliasPush (q : Fin 8) (t : Tag) (data : BitVec 16)
  | eventInject (via : Via) (pg : PageRef) (data : BitVec 32)
  | pgEvtClear (via : Via) (pg : PageRef) (data : BitVec 32)
  | take (via : Via) (pg : PageRef) (act : BitVec 5)
  | drop (via : Via) (pg : PageRef)
  | pgLockWrite (via : Via) (pg : PageRef) (data : BitVec 32)
  | clockStop (dom : ClockDom) (arrival : Bool)
  | domainRestart (dom : ClockDom)
  -- Ethernet frame ports (spec/04_frame_ports.md)
  | frameHeadReceived (p : Fin 22) (age : Nat) (head : List Byte)
  | frameEndReceived (p : Fin 22) (tail : RxTail) (how : RxEnd)
  | pauseTimerExpiry (p : Fin 22) (c : Fin 8)
  | pauseRefresh (p : Fin 22)
  | cbRecoveryReset (pair : Fin 2) (k : Fin 64)
  | egressFrameStart (p : Fin 22)
  | frameTxEnd (p : Fin 22)
  | preemptVerifyDone (p : Fin 4) (ok : Bool)
  | verifyRetry (p : Fin 4)
  | collision (p : Fin 6) (late : Bool)
  | backoffExpiry (p : Fin 6)
  | plcaLoss (p : Fin 6)
  | plcaBeaconReturn (p : Fin 6)
  | linkGood (p : Fin 22) (rxSpeed : BitVec 2)
  | linkLoss (p : Fin 22) (lost : LostFrames)
  | linkReturn (p : PortSpeed)
  | holdExpiry (u : HoldUnit)
  | portEnable (via : Via) (p : Fin 22)
  | portDisable (via : Via) (p : Fin 22)
  | sleepReq (via : Via) (z : Fin 8)
  | tc10SleepReceived (z : Fin 8)
  | tc10SleepAck (z : Fin 8)
  | tc10Asleep (z : Fin 8)
  | tc10Wake (z : Fin 8)
  | wakeReq (via : Via) (z : Fin 8)
  | diagStart (via : Via) (z : Fin 8)
  | diagDone (z : Fin 8) (res : BitVec 2) (dist : BitVec 8)
  -- field buses (spec/05_fieldbus_talkers.md)
  | canFrameReceived (c : Fin 32) (age : Nat) (own : Bool) (f : CanFrame)
  | canError (c : Fin 32) (inc : ErrInc) (age : Nat)
  | canTxDone (c : Fin 32) (age : Nat)
  | arbLost (c : CanStart)
  | busoff (c : Fin 32)
  | busoffRecovered (c : Fin 32)
  | recover (via : Via) (c : Fin 32)
  | linSlotStart (l : Fin 16)
  | schedSwitch (via : Via) (l : Fin 16) (start stop : BitVec 6)
  | linHeaderReceived (l : Fin 16) (head : LinHead) (age : Nat)
  | linResponseReceived (l : Fin 16) (age : Nat) (bytes : List Byte) (framingOk : Bool)
  | noResp (l : Fin 16)
  | uartCharReceived (u : Fin 8) (age : Nat) (ch : Byte) (ok : Bool)
  | uartIdle (u : Fin 8)
  | uartTxDone (u : Fin 8)
  | pollDue (b : Fin 8) (k : Fin 32)
  | pollCaptured (b : Fin 8) (bytes : List Byte)
  | nack (b : Fin 8)
  | i2cTimeout (b : Fin 8)
  | busWriteStart (b : Fin 8)
  | busWriteDone (b : Fin 8)
  | gpiSample (levels : BitVec 32)
  -- ingress normalisation and tables (spec/06_ingress_and_tables.md)
  | lookup (pipe : Fin 4)
  | lookupPartB (p : Fin 22)
  | sfUnblock (via : Via)
  | redLatchClear (via : Via)
  | shadowWrite (a : Access)
  | dualWrite (a : Access)
  | commit (via : Via)
  | commitSwap
  | resyncCopy (part : TablePart)
  | resyncDone
  -- switch core (spec/07_switch_core.md)
  | matchRound
  | expressGrant
  | gclChange (via : Via) (p : Fin 16)
  | gclChangeTime (p : Fin 16)
  | gclEntryEnd (p : Fin 16)
  | lifetimeExpiry (sid member : Nat)
  | egressHandOn (set : Fin 1280)
  | memberDelivered (sid member : Nat)
  | reseqTimeout (out : Fin 20) (talker : BitVec 14)
  -- buffers (spec/08_buffers_and_congestion.md)
  | admission
  | admitLifetime (sid : Nat)
  | spill
  | prefetch
  | memFault (sid : Nat) (cell : Nat)
  | xmTraining
  | xmTrainingDone (ok : Bool)
  | xmRetrain
  | xmRetrainStart (via : Via)
  | xmRetrainDone (ok : Bool)
  -- engine array (spec/09_engine_array.md)
  | engineTake (k : Fin 72)
  | runCommit (k : Fin 72)
  | speHwFault (k : Fin 72)
  | wdogExpired (k : Fin 72)
  | selfTestDone (k : Fin 72) (pass : Bool)
  | selfTestRotation
  | engReturn (via : Via)
  | engRetire (via : Via)
  | creditRefill
  | tsWrite (via : Via) (data : Word)
  | tsWriteApply
  | runCancel (n : Fin 64)
  -- sentence-program instructions (spec/10_engine_instruction_set.md), each executed by unit u
  | nop (u : PUnit)
  | mov (u : PUnit) (d s : WReg)
  | ldi (u : PUnit) (d : WReg) (tg : Tag) (imm : BitVec 16)
  | tag (u : PUnit) (d s : WReg) (tg : Tag)
  | ld (u : PUnit) (d : WReg) (a : AReg) (inc : Bool) (imm : BitVec 16)
  | st (u : PUnit) (d : WReg) (a : AReg) (inc : Bool) (imm : BitVec 16)
  | ldb (u : PUnit) (d : WReg) (a : AReg) (inc : Bool) (imm : BitVec 16)
  | stb (u : PUnit) (d : WReg) (a : AReg) (inc : Bool) (imm : BitVec 16)
  | lda (u : PUnit) (a : AReg) (imm : BitVec 16)
  | adda (u : PUnit) (a : AReg) (imm : BitVec 16)
  | mova (u : PUnit) (a : AReg) (s : WReg)
  | movw (u : PUnit) (d : WReg) (a : AReg)
  | add (u : PUnit) (d s t : WReg)
  | adc (u : PUnit) (d s t : WReg)
  | sub (u : PUnit) (d s t : WReg)
  | sbc (u : PUnit) (d s t : WReg)
  | and (u : PUnit) (d s t : WReg)
  | or (u : PUnit) (d s t : WReg)
  | xor (u : PUnit) (d s t : WReg)
  | not (u : PUnit) (d s : WReg)
  | addi (u : PUnit) (d s : WReg) (imm : BitVec 16)
  | subi (u : PUnit) (d s : WReg) (imm : BitVec 16)
  | andi (u : PUnit) (d s : WReg) (imm : BitVec 16)
  | ori (u : PUnit) (d s : WReg) (imm : BitVec 16)
  | xori (u : PUnit) (d s : WReg) (imm : BitVec 16)
  | cmp (u : PUnit) (s t : WReg)
  | cmpi (u : PUnit) (s : WReg) (imm : BitVec 16)
  | shl (u : PUnit) (d s : WReg) (n : BitVec 4)
  | shr (u : PUnit) (d s : WReg) (n : BitVec 4)
  | sar (u : PUnit) (d s : WReg) (n : BitVec 4)
  | mul (u : PUnit) (d s t : WReg)
  | ext (u : PUnit) (d s : WReg) (p w : BitVec 4)
  | ins (u : PUnit) (d s : WReg) (p w : BitVec 4)
  | br (u : PUnit) (cond : BitVec 4) (target : BitVec 12)
  | btag (u : PUnit) (s : WReg) (tg : Tag) (target : BitVec 12)
  | dbnz (u : PUnit) (a : AReg) (target : BitVec 12)
  | endProg (u : PUnit)
  | hdr (u : PUnit) (a : AReg)
  | emit (u : PUnit) (a : AReg) (s : WReg)
  | sld (u : PUnit) (d s : WReg)
  | sst (u : PUnit) (d s : WReg)
  | time (u : PUnit) (d : WReg)
  -- signal gateway (spec/11_signal_gateway.md)
  | cut
  | slotVloWrite (via : Via) (data : BitVec 32)
  | slotVhiWrite (via : Via) (data : BitVec 32)
  | stale (slot : BitVec 16)
  | firingDue (l : BitVec 12)
  | changeCheck (l : BitVec 12)
  | firingStart
  | acfMessage (l : BitVec 12)
  | acfHoldExpiry (l : BitVec 12)
  -- time base (spec/12_time_base.md)
  | snapshot (via : Via)
  | rateApply (n : Fin 4)
  | syncLost (n : Fin 4)
  | domainStep (via : Via) (n : Fin 4)
  | domainStepApply (n : Fin 4)
  | eventInput (i : TimeInput) (rising : Bool) (age : Nat)
  | tsoRise (o : Fin 5)
  | tsoFall (o : Fin 5)
  | timeExchange (l : Fin 4)
  | boardLockLost
  | boardStepRetry
  | domRelayApply (n : Fin 4)
  -- host interfaces (spec/13_host_interfaces.md)
  | dbTail (via : Via) (n : Fin 64) (q : QId) (idx : BitVec 16)
  | dbCqHead (via : Via) (n : Fin 64) (q : QId) (idx : BitVec 16)
  | descriptorFetch (n : Fin 64) (q : QId) (desc : Desc)
  | dmaReadDone (n : Fin 64) (t : Fin 8) (bytes : List Byte)
  | dmaReadError (n : Fin 64) (q : QId)
  | rxCompletion (n : Fin 64) (q : Fin 16)
  | holdoffExpiry (n : Fin 64) (q : QId)
  | hostHandOn
  | queueOff (via : Via) (n : Fin 64) (q : QId)
  | queueDma (via : Via) (n : Fin 64) (q : QId)
  | queueWindow (via : Via) (n : Fin 64) (q : QId)
  | queueStopped (n : Fin 64) (q : QId)
  | windowFlush (via : Via) (n : Fin 64) (data : BitVec 32)
  | pushHoldTimeout
  | lhpTimeout
  | busMasterEnable (n : Fin 64)
  | functionLevelReset (n : Fin 64)
  | pcieLinkDown
  -- virtual partitions (spec/14_virtual_instances.md)
  | create (via : Via) (target : Nat)
  | destroy (via : Via) (target : Nat)
  | setShare (via : Via) (target : Nat)
  | reset (via : Via) (target : Nat)
  | resetDone (n : Fin 64)
  | freeze (via : Via) (target : Nat)
  | frozen (n : Fin 64)
  | freezeTimeout (n : Fin 64)
  | thaw (via : Via) (target : Nat)
  | save (via : Via) (target : Nat)
  | restore (via : Via) (target : Nat)
  | imgDone (n : Fin 64)
  | copy (via : Via) (target : Nat)
  | copyDone (farReady crcOk pathOk : Bool)
  | imgData (via : Via) (write : Bool) (data : BitVec 32)
  -- Stay fabric (spec/15_stay_fabric.md)
  | linkTraining (l : Fin 4)
  | stayLinkUp (l : Fin 4) (lanes : BitVec 2) (asym : BitVec 16)
  | ident (l : Fin 4) (dev : Fin 16) (manager : Bool) (level : BitVec 8)
  | identRetry (l : Fin 4)
  | creditInit (l : Fin 4) (c0 c1 c2 : Nat)
  | flitReceive (l : Fin 4) (f : Flit)
  | ack (l : Fin 4) (count : BitVec 8)
  | nak (l : Fin 4) (count : BitVec 8)
  | ackTimer (l : Fin 4)
  | timeReq (l : Fin 4) (seq : BitVec 8) (t1 : BitVec 64)
  | timeResp (l : Fin 4) (seq : BitVec 8) (t2 t3 : BitVec 64)
  | domRelay (l : Fin 4) (m : DomRelayMsg)
  | laneStat (l : Fin 4) (lanes : BitVec 2)
  | staySentence (l : Fin 4)
  | stayForward (l : Fin 4)
  | remoteAccess (a : Access) (write : Bool)
  | remoteRequest (l : Fin 4) (r : RemReq)
  | remoteCompletion (tag : Fin 64) (status : RemStatus) (value : BitVec 64)
  | remoteTimeout (tag : Fin 64)
  | atomicop (fn : Fin 64) (addr : Nat) (op : AtomOp) (wide : Bool)
  | laneFail (l : Fin 4) (k : Fin 2)
  | laneRetrain (l : Fin 4)
  | laneRetrainStart (via : Via) (l : Fin 4)
  | laneRejoin (l : Fin 4)
  | stayLinkFail (l : Fin 4)
  -- power, reset and retention (spec/16_power_reset_retention.md)
  | requestFull (via : Via)
  | requestReefed (via : Via)
  | requestFurled (via : Via)
  | requestStruck (via : Via)
  | entryQuiesced
  | drainExpiry
  | wakeEvent (src : Fin 8) (unit : Fin 32) (ide : Bool) (w : WakeData)
  | wakeTimer
  | wakeRunStart
  | wakeRunLimit
  | pllRelock
  | powerOnReset
  | resetN
  | resetNGlitch
  | railsReady (manager : Bool) (dev : Fin 16)
  | railWaitExpiry
  | pllLock
  | settingsReload
  | fastStart
  | forwarding
  | mastheadStart
  | softReset (via : Via) (key : Byte)
  | watchdogReset
  | kick (via : Via)
  | stayReset
  | resetComplete
  | mhRestart
  -- persistence and update (spec/17_persistence_and_update.md)
  | settingsCommit (via : Via)
  | settingsCommitDone
  | eraseOld (via : Via) (key : Byte)
  | mramScrub
  | openSession (via : Via) (target : Fin 16)
  | verify (via : Via)
  | verifyDone
  | write (via : Via)
  | close (via : Via)
  | abort (via : Via)
  | updData (via : Via) (data : BitVec 32)
  | updData16 (via : Via) (data : BitVec 16)
  | sessionAbandon
  | downgradePermit (via : Via) (key : Byte) (permit : Bool)
  | rigCommitRetry
  | updCommandRelay (op : BitVec 3)
  | updDataRelay (off : BitVec 32) (bytes : List Byte)
  | updStatusRelay (result : BitVec 4) (state : BitVec 3)
  -- health (spec/18_health_and_maintenance.md)
  | freezeWrite
  | faultAck (via : Via) (page : BitVec 9) (all : Bool)
  | hostSafe (via : Via) (key : Byte)
  | tempSample (tj : BitVec 11)
  | patrolScrub
  | clockLoss
  | supplyFault (rail : BitVec 32)
  | parity (pg : Fin 256)
  -- the rows the table adds at its end
  | registerRead (a : Access)
  | pcieLinkUp (speed : BitVec 4) (width : BitVec 5)
  | d3hotTransition (n : Fin 64) (toD3 : Bool)
  | spillDone
  | prefetchDone
  | mramScrubDone (corrected : Nat) (bad : List MramItem)
  | scrubChunkDone (corrected : Corrected) (bad : List (Bool × BitVec 32))
  | laneRetrainFailed (l : Fin 4)
  | vddAonLoss
  | canBusJoin (c : Fin 32)
  deriving DecidableEq, Repr

end Sys2Proof
end

