-- ==== Sys2Proof/Config.lean ====
section
/-! DEFINITION. What the spec leaves to an implementation, as constants with no body: the free values (values the spec
does not state, applied to a counter that the step advances) and the functions that published standards define and the
spec only names. Beside them, the numbers of the spec that several chapters use. -/

namespace Sys2Proof.Config

/-- The n-th free value. Nothing can be proved about it (notes/assumptions/1.md). -/
opaque freeValue : Nat → BitVec 64

/-- The SHA-256 digest that R503, R519 and R523 name, uninterpreted (notes/assumptions/2.md). -/
opaque sha256 : List Byte → BitVec 256

/-- Whether a signature checks under a key (R529), uninterpreted (notes/assumptions/2.md). -/
opaque signatureOk : (key digest sig : List Byte) → Bool

/-- The value from which the CRC-16 of a flit starts, which R463 does not state (notes/assumptions/2.md). -/
opaque crc16Init : BitVec 16

/-- The Device Serial Number of R402, which is the device's own. -/
opaque serialNumber : BitVec 64

/-- DETAIL of a fault record for a word that lies in no window of BAR0, which R541 does not state (notes/assumptions/27.md). -/
opaque wordDetail : Nat → BitVec 32

/-- Whether the header of a storm-jib component is good: its magic, layout, entry count and CRC-32 (R519), at places that
the spec does not state, uninterpreted (notes/assumptions/2.md). -/
opaque sjHeaderOk : (header entries : List Byte) → Bool

/-- R28: working-clock units of 62.5 ps in one nanosecond. -/
abbrev unitsPerNs : Nat := 16

/-- R47, R50: one cycle of the core clock of 1.0 GHz, in units of 62.5 ps. -/
abbrev coreCycle : Nat := 16

/-- R47: one cell time, 8 ns, in units of 62.5 ps. -/
abbrev cellTime : Nat := 128

/-- Units of 62.5 ps in a microsecond. -/
abbrev perUs : Nat := 16000

/-- Units of 62.5 ps in a millisecond. -/
abbrev perMs : Nat := 16000000

/-- R257: on-chip cells. -/
abbrev onChipCells : Nat := 65536

/-- R279: on-chip cells of the fixed reserve. -/
abbrev reserveCells : Nat := 256

/-- R46: ports of the crossbar. -/
abbrev xbarPorts : Nat := 20

end Sys2Proof.Config
end

