-- ==== Sys2Proof/Machine/Fields.lean ====
section
/-! DEFINITION. What a field of a register table is: its pages (R65), offset, array, bits, access code (R11), retention
class (R13), reset value, and where its value lives. -/

namespace Sys2Proof.Machine

/-- R11. `w1s1` does not occur. -/
inductive Acc where
  | rw | ro | wo | w1c | w1s | rc | rp | wp | rws
  deriving DecidableEq, Repr

/-- R13: the retention classes. -/
inductive Cls where
  | n | a | w | v | i
  deriving DecidableEq, Repr

/-- A page within an instance area is numbered as page 0x100 + n of R65 with 0x400 added for the Sentence Window page
and 0x800 for the doorbell page (R96). Every other page has its page index. -/
abbrev PageId := Nat

/-- The sets of pages that share a register table. -/
inductive PageSet where
  | all                     -- every page
  | ena | link | noen       -- pages by their PG_CTRL.EN
  | one (p : Nat)
  | sched | sets
  | eth | ethB | ethS | ethI | ethT | ethM | ethnB | ethnM
  | can | canX | lin | uar | spi | i2c | poll
  | inst | inst0 | win | db
  deriving DecidableEq, Repr

def between (lo hi p : Nat) : Bool := lo.ble p && p.ble hi

/-- R65: the block pages that are present. -/
def blockPagePresent (p : Nat) : Bool :=
  between 0 2 p || p == 0x008 || p == 0x010 || p == 0x01F || between 0x020 0x023 p || p == 0x028 || p == 0x030
  || between 0x038 0x040 p || between 0x042 0x046 p || p == 0x048 || between 0x050 0x052 p || between 0x060 0x064 p
  || between 0x070 0x085 p || p == 0x08F || between 0x090 0x0D0 p || p == 0x0DF

/-- R65, R96: the pages that are present. -/
def pagePresent (p : PageId) : Bool :=
  blockPagePresent p || between 0x100 0x13F p || between 0x500 0x53F p || between 0x900 0x93F p

/-- R75: the pages of units with an enable that resets to 0. -/
def pageHasEnable (p : PageId) : Bool := between 0x070 0x085 p || between 0x090 0x0CF p

/-- R466: the link pages, whose enable resets to 1. -/
def pageIsLink (p : PageId) : Bool := between 0x061 0x064 p

/-- Whether page `p` belongs to the set. -/
def PageSet.has : PageSet → PageId → Bool
  | .all, _ => true
  | .ena, p => pageHasEnable p
  | .link, p => pageIsLink p
  | .noen, p => !(pageHasEnable p || pageIsLink p)
  | .one q, p => p == q
  | .sched, p => between 0x038 0x03F p
  | .sets, p => between 0x042 0x046 p
  | .eth, p => between 0x070 0x085 p
  | .ethB, p => between 0x070 0x073 p
  | .ethS, p => between 0x07C 0x07F p
  | .ethI, p => between 0x074 0x07B p || between 0x080 0x085 p
  | .ethT, p => between 0x074 0x07B p
  | .ethM, p => between 0x080 0x085 p
  | .ethnB, p => between 0x074 0x085 p
  | .ethnM, p => between 0x070 0x07F p
  | .can, p => between 0x090 0x0AF p
  | .canX, p => between 0x090 0x097 p
  | .lin, p => between 0x0B0 0x0BF p
  | .uar, p => between 0x0C0 0x0C7 p
  | .spi, p => between 0x0C8 0x0CB p
  | .i2c, p => between 0x0CC 0x0CF p
  | .poll, p => between 0x0C8 0x0CF p
  | .inst, p => between 0x100 0x13F p
  | .inst0, p => p == 0x100
  | .win, p => between 0x500 0x53F p
  | .db, p => between 0x900 0x93F p

/-- The reset value of a field, where one number serves every page and element, or the rule that gives it. -/
inductive Rst where
  | num (n : Nat)
  | index                  -- the element's own number (R399)
  | floor                  -- R287
  | setLimit               -- R266
  | enable                 -- R75, R466
  | firstInst (n : Nat)    -- n on instance 0, else 0 (R461)
  | ethLane | ethSpeed     -- R141
  | ethTxMode              -- R146
  | ethXoff | ethXon       -- R147
  deriving DecidableEq, Repr

/-- R266: the reset limit of egress queue set `e`. -/
def setLimitReset (e : Nat) : Nat :=
  if e ≤ 0x003 then 16384
  else if e ≤ 0x015 then 2048
  else if between 0x018 0x01B e then 16384
  else if between 0x020 0x05F e then 256
  else if e = 0x078 then 8192
  else if e = 0x079 then 4096
  else if between 0x100 0x4FF e then 1024
  else 0

/-- The reset value on page `p` for element `i`. -/
def Rst.value : Rst → PageId → Nat → Nat
  | .num n, _, _ => n
  | .index, _, i => i
  | .floor, _, i => (7 - i) * 512
  | .setLimit, p, i => setLimitReset ((p - 0x042) * 256 + i)
  | .enable, p, _ => if pageHasEnable p then 0 else 1
  | .firstInst n, p, _ => if p = 0x100 then n else 0
  | .ethLane, p, _ => if p ≤ 0x073 then 1 else if between 0x07C 0x07F p then 4 else 7
  | .ethSpeed, p, _ => if p ≤ 0x073 then 3 else 0
  | .ethTxMode, p, _ => if between 0x080 0x085 p then 3 else 1
  | .ethXoff, p, _ => if p ≤ 0x073 then 7936 else 1280
  | .ethXon, p, _ => if p ≤ 0x073 then 4096 else 640

/-- The fields whose value is computed from the rest of the state, named REGISTER_FIELD. -/
inductive View where
  | PG_ID_BLOCK
  | PG_ID_PAGE
  | PG_ID_LAYOUT
  | PG_ID_SUB
  | PG_REV_STEP
  | PG_REV_BLKREV
  | PG_STAT_ENABLED
  | PG_STAT_LOCKED
  | PG_STAT_STICKY
  | PG_STAT_MAINT
  | PG_STAT_FAULT
  | PG_EVT_RAW_RAW
  | PG_EVT_EN_CLR_EN
  | PG_MAINT_HELD
  | PG_MAINT_REFUSED
  | PG_MAINT_HOLDER
  | PG_MAINT_SRC
  | PCH_PWR_STAT_STATE
  | PCH_HEALTH_WORST
  | PCH_HEALTH_SAFE
  | PCH_HEALTH_SVC
  | PCH_HEALTH_SJ
  | PCH_FLT_BLOCKS_BLOCKS
  | PCH_FLT_DATA_DATA
  | PCH_FLT_NEXT_FRZ_NEXT
  | MST_LEVELS_MGMT
  | MST_LEVELS_STAY
  | MST_LEVELS_SCHEMA
  | MST_LEVELS_PROG
  | MST_FW_STAT_SCHEMA_MIN
  | MST_FW_STAT_SCHEMA_MAX
  | MST_UPD_STAT_STATE
  | MST_UPD_STAT_RESULT
  | MST_UPD_STAT_HOLDER
  | MST_UPD_STAT_COMP
  | MST_UPD_BYTES_BYTES
  | MST_SEC_CFG_KEYS
  | MST_SET_STAT_SCHEMA
  | MST_SET_STAT_SEQ
  | MST_COMP_VER_VERSION
  | MST_SJ_DATA_DATA
  | MST_SJ_STAT_COPY
  | MST_SJ_STAT_VALID
  | MST_SJ_STAT_GEN
  | TBU_SNAP_WFRAC_FRAC
  | TBU_SNAP_WFRAC_EPOCH
  | TBU_SNAP_WNS_LO_NS
  | TBU_SNAP_WNS_HI_NS
  | TBU_TSQ_STAT_DEPTH
  | TBU_RING_STAT_SLOTS
  | TBU_RING_STAT_CAP_LOG2
  | TBU_TSQ_LASTPOP_WORD
  | TBU_RING_LASTPOP_WORD
  | TBU_DOM_SNAP_S_LO_S
  | TBU_DOM_SNAP_S_HI_S
  | TBU_DOM_SNAP_NS_NS
  | TBU_DOM_SNAP_FRAC_FRAC
  | TSO_CTRL_CFG_ERR
  | TBU_BRD_STAT_LOCKED
  | TBU_BRD_STAT_HOPS
  | TBU_BRD_STAT_LINK
  | TBU_BRD_STAT_OFFSET
  | NRM_COMMIT_STAT_ACTIVE
  | NRM_COMMIT_STAT_RESYNC
  | NRM_COMMIT_STAT_SJ_MODE
  | NRM_SEQ_NEXT
  | NRM_SF_STAT_BLOCKED
  | NRM_FM_STAT_RED_LATCH
  | NRM_FM_TC_TC
  | NRM_FM_TE_TE
  | SWC_RESEQ_STAT_TICKETS
  | SWC_GCL_CTRL_CHANGE
  | SWC_GCL_STAT_PENDING
  | SWC_GCL_STAT_ERR
  | SWC_GCL_STAT_INDEX
  | SWC_GCL_STAT_OPER_LEN
  | SWC_GCL_STAT_GATES
  | SWC_CBS_CREDIT_A_CREDIT
  | SWC_CBS_CREDIT_B_CREDIT
  | SWC_GCL_OPER_A_ENTRY
  | SWC_GCL_OPER_B_ENTRY
  | BUF_POOL_STAT_FREE
  | BUF_XM_FREE_FREE
  | BUF_XM_STAT_READY
  | BUF_XM_STAT_TRAINING
  | BUF_XM_STAT_FAIL
  | BUF_XM_TRAIN_START
  | BUF_EQ_DEPTH_DEPTH
  | BUF_EQ_CLASS_DEPTH
  | GWY_WIN_SEG
  | GWY_SLOT_VLO_VALUE
  | GWY_SLOT_VHI_VALUE
  | GWY_SLOT_META_VALID
  | GWY_SLOT_META_STALE
  | GWY_SLOT_META_AGE
  | GWY_PL_STAT_NSEQ
  | GWY_PL_STAT_HELD
  | GWY_PL_STAT_WAITING
  | GWY_PL_STAT_DIRTY
  | GWY_PL_STAT_MSGS
  | ENG_STAT_INSERVICE
  | ENG_STAT_DEGRADED
  | ENG_STAT_RETIRED
  | ENG_SVC_RETURN
  | ENG_SVC_RETIRE
  | ENG_TS_DATA_DATA
  | ENG_TS_STAT_BUSY
  | ENG_TS_STAT_LOCKED
  | ENG_CREDIT_CREDIT
  | ENG_SPE_STAT_STATE
  | ENG_SPE_STAT_RETIRED
  | ENG_SPE_STAT_DEPTH
  | ENG_SPE_STAT_FAULTS
  | ENG_SPE_STAT_TALKER
  | STY_ID_DEV_ID
  | STY_ID_ROLE
  | STY_ID_LEVEL
  | STY_TOPO_INUSE
  | STY_TOPO_PATH
  | STY_TOPO_REACH
  | STY_LINK_STAT_STATE
  | STY_LINK_STAT_PEER_DEV
  | STY_LINK_STAT_PEER_ROLE
  | STY_LINK_STAT_LANES
  | STY_LINK_STAT_REFUSE
  | STY_LINK_STAT_PEER_LEVEL
  | STY_LINK_ASYM_ASYM
  | ETH_FC_STAT_RX_PAUSED
  | ETH_FC_STAT_TX_XOFF
  | ETH_FC_STAT_TX_XOFF_ALL
  | ETH_LINK_STAT_STATE
  | ETH_LINK_STAT_PCS_LOCK
  | ETH_LINK_STAT_CFG_ERR
  | ETH_LINK_STAT_SPD_MISMATCH
  | ETH_LINK_STAT_PREEMPT_ACTIVE
  | ETH_LINK_STAT_HOLD_LEFT
  | ETH_PREEMPT_VERIFY_STAT
  | ETH_MD_BURST_BEACON_SEEN
  | CAN_STAT_TEC
  | CAN_STAT_REC
  | CAN_STAT_STATE
  | CAN_STAT_HOLDING
  | CAN_STAT_CFG_ERR
  | CAN_STAT_RECOVER
  | CAN_STAT_TX_USED
  | CAN_MRAM_DATA_WORD
  | LIN_SCHED_SWITCH
  | LIN_SCHED_CUR
  | INST_STAT_OVERQUOTA
  | INST_STAT_INFLIGHT
  | INST_LIMITS_WEIGHT
  | INST_USE_CELLS
  | INST_WIN_USE_UNITS
  | INST_POOL_STAT_COUNT
  | INST_POOL_STAT_WIN_FREE
  | INST_IMG_DATA_DATA
  | HBR_WIN_FLUSH_RX
  | HBR_WIN_FLUSH_TX
  | HBR_WIN_FLUSH_TXC
  | HBR_RXW_ITEMS_ITEMS
  | HBR_TXW_ITEMS_ITEMS
  | HBR_RXW_LASTPOP_WORD
  | HBR_TXCW_LASTPOP_WORD
  | HBR_Q_STAT_WAITING
  deriving DecidableEq, Repr


/-- Where a field's value lives: in the register map; computed from the rest of the state; or nowhere, because a write
acts and a read returns zero or has its own command (R11: WO, WP, RP). -/
inductive Home where
  | stored
  | view (v : View)
  | acts
  deriving DecidableEq, Repr

/-- One field of a register table: element `i` of an array of `cnt` lies at `off + step * i`. -/
structure Fld where
  pages : PageSet
  off   : Nat
  step  : Nat
  cnt   : Nat
  lo    : Nat
  wid   : Nat
  acc   : Acc
  cls   : Cls
  rst   : Rst
  home  : Home
  deriving DecidableEq, Repr

/-- The key of bit `lo` of the register at offset `off` of page `p` in the register map. -/
def fieldKey (p : PageId) (off lo : Nat) : Nat := (p * 4096 + off) * 32 + lo

/-- The key of element `i` of field `f` on page `p`. -/
def Fld.key (f : Fld) (p : PageId) (i : Nat) : Nat := fieldKey p (f.off + f.step * i) f.lo

/-- R87: the retention class of the field on page `p`. -/
def Fld.clsOn (f : Fld) (p : PageId) : Cls :=
  if Nat.ble 0x100 p && (f.off == 0x008 || between 0x014 0x028 f.off) then .i else f.cls

/-- The element of the field that lies at offset `off`, if one does. -/
def Fld.elemAt (f : Fld) (off : Nat) : Option Nat :=
  if off < f.off then none
  else if f.step = 0 then (if off = f.off then some 0 else none)
  else if (off - f.off) % f.step = 0 ∧ (off - f.off) / f.step < f.cnt then some ((off - f.off) / f.step) else none

end Sys2Proof.Machine
end

