-- ==== Sys2Proof/Machine/Regs.lean ====
section
/-! DEFINITION. The registers of the block: one `Fld` for each field of every register table of the spec, with its pages,
offset, array step, bits, access code (R11), retention class (R13) and reset value. Reserved bits have no field: they
read zero (R6). -/

namespace Sys2Proof.Machine

/-- R73, offset 0x000. -/
abbrev Reg.PG_ID.BLOCK : Fld := ⟨.all, 0x000, 0, 1, 0, 8, .ro, .v, .num 0, .view .PG_ID_BLOCK⟩
/-- R73, offset 0x000. -/
abbrev Reg.PG_ID.PAGE : Fld := ⟨.all, 0x000, 0, 1, 8, 12, .ro, .v, .num 0, .view .PG_ID_PAGE⟩
/-- R73, offset 0x000. -/
abbrev Reg.PG_ID.LAYOUT : Fld := ⟨.all, 0x000, 0, 1, 20, 4, .ro, .v, .num 1, .view .PG_ID_LAYOUT⟩
/-- R73, offset 0x000. -/
abbrev Reg.PG_ID.SUB : Fld := ⟨.all, 0x000, 0, 1, 24, 4, .ro, .v, .num 0, .view .PG_ID_SUB⟩
/-- R74, offset 0x004. -/
abbrev Reg.PG_REV.STEP : Fld := ⟨.all, 0x004, 0, 1, 0, 8, .ro, .v, .num 0xB1, .view .PG_REV_STEP⟩
/-- R74, offset 0x004. -/
abbrev Reg.PG_REV.BLKREV : Fld := ⟨.all, 0x004, 0, 1, 8, 8, .ro, .v, .num 0, .view .PG_REV_BLKREV⟩
/-- R75, offset 0x008. -/
abbrev Reg.PG_CTRL.IRQ_EN : Fld := ⟨.all, 0x008, 0, 1, 8, 1, .rw, .w, .num 0, .stored⟩
/-- R76, offset 0x00C. -/
abbrev Reg.PG_STAT.ENABLED : Fld := ⟨.all, 0x00C, 0, 1, 0, 1, .ro, .v, .num 0, .view .PG_STAT_ENABLED⟩
/-- R76, offset 0x00C. -/
abbrev Reg.PG_STAT.LOCKED : Fld := ⟨.all, 0x00C, 0, 1, 1, 1, .ro, .w, .num 0, .view .PG_STAT_LOCKED⟩
/-- R76, offset 0x00C. -/
abbrev Reg.PG_STAT.STICKY : Fld := ⟨.all, 0x00C, 0, 1, 2, 1, .ro, .w, .num 0, .view .PG_STAT_STICKY⟩
/-- R76, offset 0x00C. -/
abbrev Reg.PG_STAT.MAINT : Fld := ⟨.all, 0x00C, 0, 1, 3, 1, .ro, .v, .num 0, .view .PG_STAT_MAINT⟩
/-- R76, offset 0x00C. -/
abbrev Reg.PG_STAT.FAULT : Fld := ⟨.all, 0x00C, 0, 1, 4, 1, .ro, .w, .num 0, .view .PG_STAT_FAULT⟩
/-- R78, offset 0x010. -/
abbrev Reg.PG_EVT_RAW.RAW : Fld := ⟨.all, 0x010, 0, 1, 0, 32, .w1s, .v, .num 0, .view .PG_EVT_RAW_RAW⟩
/-- R78, offset 0x014. -/
abbrev Reg.PG_EVT.EVT : Fld := ⟨.all, 0x014, 0, 1, 0, 32, .w1c, .v, .num 0, .stored⟩
/-- R78, offset 0x018. -/
abbrev Reg.PG_EVT_EN_SET.EN : Fld := ⟨.all, 0x018, 0, 1, 0, 32, .w1s, .w, .num 0, .stored⟩
/-- R78, offset 0x01C. -/
abbrev Reg.PG_EVT_EN_CLR.EN : Fld := ⟨.all, 0x01C, 0, 1, 0, 32, .w1c, .w, .num 0, .view .PG_EVT_EN_CLR_EN⟩
/-- R80, offset 0x020. -/
abbrev Reg.PG_FAULT.WORST : Fld := ⟨.all, 0x020, 0, 1, 0, 4, .ro, .w, .num 0, .stored⟩
/-- R80, offset 0x020. -/
abbrev Reg.PG_FAULT.COUNT : Fld := ⟨.all, 0x020, 0, 1, 8, 8, .ro, .w, .num 0, .stored⟩
/-- R80, offset 0x020. -/
abbrev Reg.PG_FAULT.LASTREC : Fld := ⟨.all, 0x020, 0, 1, 16, 16, .ro, .w, .num 0, .stored⟩
/-- R81, offset 0x024. -/
abbrev Reg.PG_MAINT.ACT : Fld := ⟨.all, 0x024, 0, 1, 0, 5, .rw, .v, .num 0, .stored⟩
/-- R81, offset 0x024. -/
abbrev Reg.PG_MAINT.TAKE : Fld := ⟨.all, 0x024, 0, 1, 8, 1, .wo, .v, .num 0, .acts⟩
/-- R81, offset 0x024. -/
abbrev Reg.PG_MAINT.DROP : Fld := ⟨.all, 0x024, 0, 1, 9, 1, .wo, .v, .num 0, .acts⟩
/-- R81, offset 0x024. -/
abbrev Reg.PG_MAINT.HELD : Fld := ⟨.all, 0x024, 0, 1, 16, 1, .ro, .v, .num 0, .view .PG_MAINT_HELD⟩
/-- R81, offset 0x024. -/
abbrev Reg.PG_MAINT.REFUSED : Fld := ⟨.all, 0x024, 0, 1, 17, 1, .ro, .v, .num 0, .view .PG_MAINT_REFUSED⟩
/-- R81, offset 0x024. -/
abbrev Reg.PG_MAINT.HOLDER : Fld := ⟨.all, 0x024, 0, 1, 18, 5, .ro, .v, .num 0, .view .PG_MAINT_HOLDER⟩
/-- R81, offset 0x024. -/
abbrev Reg.PG_MAINT.SRC : Fld := ⟨.all, 0x024, 0, 1, 24, 2, .ro, .v, .num 0, .view .PG_MAINT_SRC⟩
/-- R85, offset 0x028. -/
abbrev Reg.PG_LOCK.LOCK : Fld := ⟨.all, 0x028, 0, 1, 0, 1, .rw, .w, .num 0, .stored⟩
/-- R85, offset 0x028. -/
abbrev Reg.PG_LOCK.STICKY : Fld := ⟨.all, 0x028, 0, 1, 1, 1, .w1s, .w, .num 0, .stored⟩
/-- R85, offset 0x028. -/
abbrev Reg.PG_LOCK.KEY : Fld := ⟨.all, 0x028, 0, 1, 8, 8, .wo, .v, .num 0, .acts⟩
/-- R75, offset 0x008. -/
abbrev Reg.PG_CTRL.EN : Fld := ⟨.ena, 0x008, 0, 1, 0, 1, .rw, .n, .enable, .stored⟩
/-- R466, offset 0x008. -/
abbrev Reg.PG_CTRL.EN_link : Fld := ⟨.link, 0x008, 0, 1, 0, 1, .rw, .n, .enable, .stored⟩
/-- R493, offset 0x040. -/
abbrev Reg.STY_LINK_CFG.HOLD_US : Fld := ⟨.link, 0x040, 0, 1, 0, 17, .rw, .n, .num 2000, .stored⟩
/-- R493, offset 0x040. -/
abbrev Reg.STY_LINK_CFG.RETRAIN_MS : Fld := ⟨.link, 0x040, 0, 1, 24, 8, .rw, .n, .num 100, .stored⟩
/-- R493, offset 0x044. -/
abbrev Reg.STY_LINK_STAT.STATE : Fld := ⟨.link, 0x044, 0, 1, 0, 3, .ro, .v, .num 0, .view .STY_LINK_STAT_STATE⟩
/-- R493, offset 0x044. -/
abbrev Reg.STY_LINK_STAT.PEER_DEV : Fld := ⟨.link, 0x044, 0, 1, 4, 4, .ro, .v, .num 0, .view .STY_LINK_STAT_PEER_DEV⟩
/-- R493, offset 0x044. -/
abbrev Reg.STY_LINK_STAT.PEER_ROLE : Fld := ⟨.link, 0x044, 0, 1, 8, 1, .ro, .v, .num 0, .view .STY_LINK_STAT_PEER_ROLE⟩
/-- R493, offset 0x044. -/
abbrev Reg.STY_LINK_STAT.LANES : Fld := ⟨.link, 0x044, 0, 1, 9, 2, .ro, .v, .num 0, .view .STY_LINK_STAT_LANES⟩
/-- R493, offset 0x044. -/
abbrev Reg.STY_LINK_STAT.REFUSE : Fld := ⟨.link, 0x044, 0, 1, 12, 4, .ro, .v, .num 0, .view .STY_LINK_STAT_REFUSE⟩
/-- R493, offset 0x044. -/
abbrev Reg.STY_LINK_STAT.PEER_LEVEL : Fld := ⟨.link, 0x044, 0, 1, 16, 8, .ro, .v, .num 0, .view .STY_LINK_STAT_PEER_LEVEL⟩
/-- R493, offset 0x048. -/
abbrev Reg.STY_LINK_ASYM.ASYM : Fld := ⟨.link, 0x048, 0, 1, 0, 16, .ro, .v, .num 0, .view .STY_LINK_ASYM_ASYM⟩
/-- R493, offset 0x04C. -/
abbrev Reg.STY_LINK_RETRAIN.START : Fld := ⟨.link, 0x04C, 0, 1, 0, 1, .rws, .v, .num 0, .stored⟩
/-- R493, offset 0x04C. -/
abbrev Reg.STY_LINK_RETRAIN.RESULT : Fld := ⟨.link, 0x04C, 0, 1, 1, 2, .ro, .v, .num 0, .stored⟩
/-- R494, offset 0x080. -/
abbrev Reg.STYL.FLITS_TX : Fld := ⟨.link, 0x080, 0, 1, 0, 32, .ro, .v, .num 0, .stored⟩
/-- R494, offset 0x084. -/
abbrev Reg.STYL.FLITS_RX : Fld := ⟨.link, 0x084, 0, 1, 0, 32, .ro, .v, .num 0, .stored⟩
/-- R494, offset 0x088. -/
abbrev Reg.STYL.CRC_ERR : Fld := ⟨.link, 0x088, 0, 1, 0, 32, .ro, .v, .num 0, .stored⟩
/-- R494, offset 0x08C. -/
abbrev Reg.STYL.REPLAYS : Fld := ⟨.link, 0x08C, 0, 1, 0, 32, .ro, .v, .num 0, .stored⟩
/-- R494, offset 0x090. -/
abbrev Reg.STYL.LANE_FAULTS : Fld := ⟨.link, 0x090, 0, 1, 0, 32, .ro, .v, .num 0, .stored⟩
/-- R494, offset 0x094. -/
abbrev Reg.STYL.LINK_DOWNS : Fld := ⟨.link, 0x094, 0, 1, 0, 32, .ro, .v, .num 0, .stored⟩
/-- R494, offset 0x098. -/
abbrev Reg.STYL.VC0_MSGS_TX : Fld := ⟨.link, 0x098, 0, 1, 0, 32, .ro, .v, .num 0, .stored⟩
/-- R494, offset 0x09C. -/
abbrev Reg.STYL.DUP_DISCARDS : Fld := ⟨.link, 0x09C, 0, 1, 0, 32, .ro, .v, .num 0, .stored⟩
/-- R494, offset 0x0A0. -/
abbrev Reg.STYL.BAD_MSG : Fld := ⟨.link, 0x0A0, 0, 1, 0, 32, .ro, .v, .num 0, .stored⟩
/-- R75, offset 0x008. -/
abbrev Reg.PG_CTRL.EN_noen : Fld := ⟨.noen, 0x008, 0, 1, 0, 1, .ro, .n, .enable, .stored⟩
/-- R510, offset 0x040. -/
abbrev Reg.PCH_BOOT_STAT.CAUSE : Fld := ⟨(.one 0x000), 0x040, 0, 1, 0, 3, .ro, .a, .num 0, .stored⟩
/-- R510, offset 0x040. -/
abbrev Reg.PCH_BOOT_STAT.FASTSTART : Fld := ⟨(.one 0x000), 0x040, 0, 1, 4, 1, .ro, .a, .num 0, .stored⟩
/-- R510, offset 0x040. -/
abbrev Reg.PCH_BOOT_STAT.FWD : Fld := ⟨(.one 0x000), 0x040, 0, 1, 5, 1, .ro, .v, .num 0, .stored⟩
/-- R510, offset 0x040. -/
abbrev Reg.PCH_BOOT_STAT.FS_ERR : Fld := ⟨(.one 0x000), 0x040, 0, 1, 6, 1, .ro, .a, .num 0, .stored⟩
/-- R510, offset 0x040. -/
abbrev Reg.PCH_BOOT_STAT.RAIL_LATE : Fld := ⟨(.one 0x000), 0x040, 0, 1, 8, 1, .ro, .a, .num 0, .stored⟩
/-- R510, offset 0x040. -/
abbrev Reg.PCH_BOOT_STAT.RST_GLITCH : Fld := ⟨(.one 0x000), 0x040, 0, 1, 9, 1, .w1c, .a, .num 0, .stored⟩
/-- R510, offset 0x040. -/
abbrev Reg.PCH_BOOT_STAT.FWD_TIME : Fld := ⟨(.one 0x000), 0x040, 0, 1, 16, 16, .ro, .a, .num 0, .stored⟩
/-- R510, offset 0x044. -/
abbrev Reg.PCH_PWR_CTRL.TARGET : Fld := ⟨(.one 0x000), 0x044, 0, 1, 0, 2, .rw, .a, .num 0, .stored⟩
/-- R510, offset 0x044. -/
abbrev Reg.PCH_PWR_CTRL.GO : Fld := ⟨(.one 0x000), 0x044, 0, 1, 4, 1, .rws, .v, .num 0, .stored⟩
/-- R510, offset 0x044. -/
abbrev Reg.PCH_PWR_CTRL.DRAIN_MS : Fld := ⟨(.one 0x000), 0x044, 0, 1, 8, 8, .rw, .n, .num 10, .stored⟩
/-- R510, offset 0x048. -/
abbrev Reg.PCH_PWR_STAT.STATE : Fld := ⟨(.one 0x000), 0x048, 0, 1, 0, 3, .ro, .a, .num 0, .view .PCH_PWR_STAT_STATE⟩
/-- R510, offset 0x048. -/
abbrev Reg.PCH_PWR_STAT.RESULT : Fld := ⟨(.one 0x000), 0x048, 0, 1, 4, 3, .ro, .a, .num 0, .stored⟩
/-- R510, offset 0x048. -/
abbrev Reg.PCH_PWR_STAT.STRUCK_LOST : Fld := ⟨(.one 0x000), 0x048, 0, 1, 16, 16, .ro, .a, .num 0, .stored⟩
/-- R510, offset 0x04C. -/
abbrev Reg.PCH_WAKE_EN.SRC : Fld := ⟨(.one 0x000), 0x04C, 0, 1, 0, 8, .rw, .n, .num 0x10, .stored⟩
/-- R510, offset 0x050. -/
abbrev Reg.PCH_WAKE_STAT.SRC : Fld := ⟨(.one 0x000), 0x050, 0, 1, 0, 4, .ro, .a, .num 0, .stored⟩
/-- R510, offset 0x050. -/
abbrev Reg.PCH_WAKE_STAT.UNIT : Fld := ⟨(.one 0x000), 0x050, 0, 1, 8, 5, .ro, .a, .num 0, .stored⟩
/-- R510, offset 0x050. -/
abbrev Reg.PCH_WAKE_STAT.REASON : Fld := ⟨(.one 0x000), 0x050, 0, 1, 16, 8, .ro, .a, .num 0, .stored⟩
/-- R510, offset 0x050. -/
abbrev Reg.PCH_WAKE_STAT.VALID : Fld := ⟨(.one 0x000), 0x050, 0, 1, 31, 1, .w1c, .a, .num 0, .stored⟩
/-- R510, offset 0x054. -/
abbrev Reg.PCH_WAKE_CFG.RAIL_MS : Fld := ⟨(.one 0x000), 0x054, 0, 1, 0, 8, .rw, .n, .num 5, .stored⟩
/-- R510, offset 0x054. -/
abbrev Reg.PCH_WAKE_CFG.WW_EN : Fld := ⟨(.one 0x000), 0x054, 0, 1, 8, 1, .rw, .n, .num 0, .stored⟩
/-- R510, offset 0x054. -/
abbrev Reg.PCH_WAKE_CFG.PERIOD_MS : Fld := ⟨(.one 0x000), 0x054, 0, 1, 16, 16, .rw, .n, .num 0, .stored⟩
/-- R510, offset 0x058. -/
abbrev Reg.PCH_RESET.SOFT : Fld := ⟨(.one 0x000), 0x058, 0, 1, 0, 1, .wo, .v, .num 0, .acts⟩
/-- R510, offset 0x058. -/
abbrev Reg.PCH_RESET.KEY : Fld := ⟨(.one 0x000), 0x058, 0, 1, 8, 8, .wo, .v, .num 0, .acts⟩
/-- R510, offset 0x05C. -/
abbrev Reg.PCH_WDOG.TIMEOUT_MS : Fld := ⟨(.one 0x000), 0x05C, 0, 1, 0, 16, .rw, .n, .num 0, .stored⟩
/-- R510, offset 0x05C. -/
abbrev Reg.PCH_WDOG.KICK : Fld := ⟨(.one 0x000), 0x05C, 0, 1, 16, 1, .wo, .v, .num 0, .acts⟩
/-- R510, offset 0x060. -/
abbrev Reg.PCH_RST_LOST.COUNT : Fld := ⟨(.one 0x000), 0x060, 0, 1, 0, 32, .ro, .w, .num 0, .stored⟩
/-- R560, offset 0x040. -/
abbrev Reg.PCH_HEALTH.WORST : Fld := ⟨(.one 0x001), 0x040, 0, 1, 0, 4, .ro, .w, .num 0, .view .PCH_HEALTH_WORST⟩
/-- R560, offset 0x040. -/
abbrev Reg.PCH_HEALTH.SAFE : Fld := ⟨(.one 0x001), 0x040, 0, 1, 4, 1, .ro, .v, .num 0, .view .PCH_HEALTH_SAFE⟩
/-- R560, offset 0x040. -/
abbrev Reg.PCH_HEALTH.SVC : Fld := ⟨(.one 0x001), 0x040, 0, 1, 5, 1, .ro, .v, .num 0, .view .PCH_HEALTH_SVC⟩
/-- R560, offset 0x040. -/
abbrev Reg.PCH_HEALTH.SJ : Fld := ⟨(.one 0x001), 0x040, 0, 1, 6, 1, .ro, .v, .num 0, .view .PCH_HEALTH_SJ⟩
/-- R560, offset 0x044. -/
abbrev Reg.PCH_FLT_BLOCKS.BLOCKS : Fld := ⟨(.one 0x001), 0x044, 0, 1, 1, 19, .ro, .w, .num 0, .view .PCH_FLT_BLOCKS_BLOCKS⟩
/-- R560, offset 0x048. -/
abbrev Reg.PCH_FLT_SEL.INDEX : Fld := ⟨(.one 0x001), 0x048, 0, 1, 0, 16, .rw, .v, .num 0, .stored⟩
/-- R560, offset 0x048. -/
abbrev Reg.PCH_FLT_SEL.DWORD : Fld := ⟨(.one 0x001), 0x048, 0, 1, 16, 3, .rw, .v, .num 0, .stored⟩
/-- R560, offset 0x048. -/
abbrev Reg.PCH_FLT_SEL.FRZ : Fld := ⟨(.one 0x001), 0x048, 0, 1, 19, 1, .rw, .v, .num 0, .stored⟩
/-- R560, offset 0x048. -/
abbrev Reg.PCH_FLT_SEL.PART : Fld := ⟨(.one 0x001), 0x048, 0, 1, 20, 6, .rw, .v, .num 0, .stored⟩
/-- R560, offset 0x04C. -/
abbrev Reg.PCH_FLT_DATA.DATA : Fld := ⟨(.one 0x001), 0x04C, 0, 1, 0, 32, .ro, .v, .num 0, .view .PCH_FLT_DATA_DATA⟩
/-- R560, offset 0x050. -/
abbrev Reg.PCH_FLT_NEXT.NEXT : Fld := ⟨(.one 0x001), 0x050, 0, 1, 0, 16, .ro, .w, .num 0, .stored⟩
/-- R560, offset 0x050. -/
abbrev Reg.PCH_FLT_NEXT.FRZ_NEXT : Fld := ⟨(.one 0x001), 0x050, 0, 1, 16, 16, .ro, .n, .num 0, .view .PCH_FLT_NEXT_FRZ_NEXT⟩
/-- R560, offset 0x054. -/
abbrev Reg.PCH_FLT_ACK.PAGE : Fld := ⟨(.one 0x001), 0x054, 0, 1, 0, 9, .wo, .v, .num 0, .acts⟩
/-- R560, offset 0x054. -/
abbrev Reg.PCH_FLT_ACK.ALL : Fld := ⟨(.one 0x001), 0x054, 0, 1, 15, 1, .wo, .v, .num 0, .acts⟩
/-- R560, offset 0x054. -/
abbrev Reg.PCH_FLT_ACK.GO : Fld := ⟨(.one 0x001), 0x054, 0, 1, 16, 1, .wo, .v, .num 0, .acts⟩
/-- R560, offset 0x058. -/
abbrev Reg.PCH_SVC.LEVEL : Fld := ⟨(.one 0x001), 0x058, 0, 1, 0, 4, .rw, .n, .num 5, .stored⟩
/-- R560, offset 0x058. -/
abbrev Reg.PCH_SVC.FORCE_LOW : Fld := ⟨(.one 0x001), 0x058, 0, 1, 8, 1, .rw, .v, .num 0, .stored⟩
/-- R560, offset 0x05C. -/
abbrev Reg.PCH_SAFE.ENTER : Fld := ⟨(.one 0x001), 0x05C, 0, 1, 0, 1, .wo, .v, .num 0, .acts⟩
/-- R560, offset 0x05C. -/
abbrev Reg.PCH_SAFE.KEY : Fld := ⟨(.one 0x001), 0x05C, 0, 1, 8, 8, .wo, .v, .num 0, .acts⟩
/-- R560, offset 0x05C. -/
abbrev Reg.PCH_SAFE.CAUSE : Fld := ⟨(.one 0x001), 0x05C, 0, 1, 16, 8, .ro, .w, .num 0, .stored⟩
/-- R560, offset 0x05C. -/
abbrev Reg.PCH_SAFE.ACTIVE : Fld := ⟨(.one 0x001), 0x05C, 0, 1, 24, 1, .ro, .v, .num 0, .stored⟩
/-- R560, offset 0x060. -/
abbrev Reg.PCH_SAFE_LOST.COUNT : Fld := ⟨(.one 0x001), 0x060, 0, 1, 0, 32, .ro, .w, .num 0, .stored⟩
/-- R560, offset 0x064. -/
abbrev Reg.PCH_TEMP.TJ : Fld := ⟨(.one 0x001), 0x064, 0, 1, 0, 11, .ro, .v, .num 0, .stored⟩
/-- R560, offset 0x064. -/
abbrev Reg.PCH_TEMP.TJ_MAX : Fld := ⟨(.one 0x001), 0x064, 0, 1, 16, 11, .ro, .w, .num 0, .stored⟩
/-- R560, offset 0x068. -/
abbrev Reg.PCH_TEMP_CFG.WARN : Fld := ⟨(.one 0x001), 0x068, 0, 1, 0, 8, .rw, .n, .num 125, .stored⟩
/-- R560, offset 0x068. -/
abbrev Reg.PCH_TEMP_CFG.CRIT : Fld := ⟨(.one 0x001), 0x068, 0, 1, 8, 8, .rw, .n, .num 140, .stored⟩
/-- R560, offset 0x068. -/
abbrev Reg.PCH_TEMP_CFG.HYST : Fld := ⟨(.one 0x001), 0x068, 0, 1, 16, 4, .rw, .n, .num 5, .stored⟩
/-- R560, offset 0x06C. -/
abbrev Reg.PCH_SCRUB.EN : Fld := ⟨(.one 0x001), 0x06C, 0, 1, 0, 1, .rw, .n, .num 1, .stored⟩
/-- R560, offset 0x06C. -/
abbrev Reg.PCH_SCRUB.PASS_MIN : Fld := ⟨(.one 0x001), 0x06C, 0, 1, 8, 8, .rw, .n, .num 60, .stored⟩
/-- R561, offset 0x080. -/
abbrev Reg.PCH.SRAM_CORRECTED : Fld := ⟨(.one 0x001), 0x080, 0, 1, 0, 32, .ro, .w, .num 0, .stored⟩
/-- R561, offset 0x084. -/
abbrev Reg.PCH.SRAM_UNCORR : Fld := ⟨(.one 0x001), 0x084, 0, 1, 0, 32, .ro, .w, .num 0, .stored⟩
/-- R561, offset 0x088. -/
abbrev Reg.PCH.FLT_RECORDS : Fld := ⟨(.one 0x001), 0x088, 0, 1, 0, 32, .ro, .w, .num 0, .stored⟩
/-- R561, offset 0x08C. -/
abbrev Reg.PCH.FLT_MERGED : Fld := ⟨(.one 0x001), 0x08C, 0, 1, 0, 32, .ro, .w, .num 0, .stored⟩
/-- R561, offset 0x090. -/
abbrev Reg.PCH.SAFE_ENTRIES : Fld := ⟨(.one 0x001), 0x090, 0, 1, 0, 32, .ro, .w, .num 0, .stored⟩
/-- R561, offset 0x094. -/
abbrev Reg.PCH.TEMP_WARNS : Fld := ⟨(.one 0x001), 0x094, 0, 1, 0, 32, .ro, .w, .num 0, .stored⟩
/-- R561, offset 0x098. -/
abbrev Reg.PCH.SCRUB_PASSES : Fld := ⟨(.one 0x001), 0x098, 0, 1, 0, 32, .ro, .w, .num 0, .stored⟩
/-- R561, offset 0x09C. -/
abbrev Reg.PCH.SCRUB_REFUSED : Fld := ⟨(.one 0x001), 0x09C, 0, 1, 0, 32, .ro, .w, .num 0, .stored⟩
/-- R561, offset 0x0A0. -/
abbrev Reg.PCH.MH_RESTARTS : Fld := ⟨(.one 0x001), 0x0A0, 0, 1, 0, 32, .ro, .w, .num 0, .stored⟩
/-- R511, offset 0x040. -/
abbrev Reg.PCH_WW_STAT.PC : Fld := ⟨(.one 0x002), 0x040, 0, 1, 0, 7, .ro, .a, .num 0, .stored⟩
/-- R511, offset 0x040. -/
abbrev Reg.PCH_WW_STAT.FAULT : Fld := ⟨(.one 0x002), 0x040, 0, 1, 8, 1, .w1c, .a, .num 0, .stored⟩
/-- R511, offset 0x044. -/
abbrev Reg.PCH_WW_RUNS.RUNS : Fld := ⟨(.one 0x002), 0x044, 0, 1, 0, 32, .ro, .a, .num 0, .stored⟩
/-- R511, offset 0x100. -/
abbrev Reg.PCH_WW_DATA.W : Fld := ⟨(.one 0x002), 0x100, 4, 64, 0, 18, .rw, .a, .num 0, .stored⟩
/-- R511, offset 0x800. -/
abbrev Reg.PCH_WW_SLOT_LO.SLOT : Fld := ⟨(.one 0x002), 0x800, 8, 128, 0, 32, .rw, .n, .num 0, .stored⟩
/-- R511, offset 0x804. -/
abbrev Reg.PCH_WW_SLOT_HI.SLOT : Fld := ⟨(.one 0x002), 0x804, 8, 128, 0, 4, .rw, .n, .num 0, .stored⟩
/-- R537, offset 0x040. -/
abbrev Reg.MST_LEVELS.MGMT : Fld := ⟨(.one 0x008), 0x040, 0, 1, 0, 8, .ro, .v, .num 0, .view .MST_LEVELS_MGMT⟩
/-- R537, offset 0x040. -/
abbrev Reg.MST_LEVELS.STAY : Fld := ⟨(.one 0x008), 0x040, 0, 1, 8, 8, .ro, .v, .num 0, .view .MST_LEVELS_STAY⟩
/-- R537, offset 0x040. -/
abbrev Reg.MST_LEVELS.SCHEMA : Fld := ⟨(.one 0x008), 0x040, 0, 1, 16, 8, .ro, .v, .num 0, .view .MST_LEVELS_SCHEMA⟩
/-- R537, offset 0x040. -/
abbrev Reg.MST_LEVELS.PROG : Fld := ⟨(.one 0x008), 0x040, 0, 1, 24, 8, .ro, .v, .num 0, .view .MST_LEVELS_PROG⟩
/-- R537, offset 0x044. -/
abbrev Reg.MST_FW_STAT.LOADER : Fld := ⟨(.one 0x008), 0x044, 0, 1, 0, 1, .ro, .v, .num 0, .stored⟩
/-- R537, offset 0x044. -/
abbrev Reg.MST_FW_STAT.FALLBACK : Fld := ⟨(.one 0x008), 0x044, 0, 1, 1, 1, .ro, .v, .num 0, .stored⟩
/-- R537, offset 0x044. -/
abbrev Reg.MST_FW_STAT.OLD_RO : Fld := ⟨(.one 0x008), 0x044, 0, 1, 2, 1, .ro, .v, .num 0, .stored⟩
/-- R537, offset 0x044. -/
abbrev Reg.MST_FW_STAT.SCHEMA_MIN : Fld := ⟨(.one 0x008), 0x044, 0, 1, 8, 8, .ro, .v, .num 0, .view .MST_FW_STAT_SCHEMA_MIN⟩
/-- R537, offset 0x044. -/
abbrev Reg.MST_FW_STAT.SCHEMA_MAX : Fld := ⟨(.one 0x008), 0x044, 0, 1, 16, 8, .ro, .v, .num 0, .view .MST_FW_STAT_SCHEMA_MAX⟩
/-- R537, offset 0x048. -/
abbrev Reg.MST_UPD_CMD.OP : Fld := ⟨(.one 0x008), 0x048, 0, 1, 0, 3, .rw, .v, .num 0, .stored⟩
/-- R537, offset 0x048. -/
abbrev Reg.MST_UPD_CMD.GO : Fld := ⟨(.one 0x008), 0x048, 0, 1, 4, 1, .rws, .v, .num 0, .stored⟩
/-- R537, offset 0x048. -/
abbrev Reg.MST_UPD_CMD.TARGET : Fld := ⟨(.one 0x008), 0x048, 0, 1, 8, 4, .rw, .v, .num 0, .stored⟩
/-- R537, offset 0x04C. -/
abbrev Reg.MST_UPD_STAT.STATE : Fld := ⟨(.one 0x008), 0x04C, 0, 1, 0, 3, .ro, .v, .num 0, .view .MST_UPD_STAT_STATE⟩
/-- R537, offset 0x04C. -/
abbrev Reg.MST_UPD_STAT.RESULT : Fld := ⟨(.one 0x008), 0x04C, 0, 1, 4, 4, .ro, .v, .num 0, .view .MST_UPD_STAT_RESULT⟩
/-- R537, offset 0x04C. -/
abbrev Reg.MST_UPD_STAT.HOLDER : Fld := ⟨(.one 0x008), 0x04C, 0, 1, 8, 2, .ro, .v, .num 0, .view .MST_UPD_STAT_HOLDER⟩
/-- R537, offset 0x04C. -/
abbrev Reg.MST_UPD_STAT.COMP : Fld := ⟨(.one 0x008), 0x04C, 0, 1, 12, 3, .ro, .v, .num 0, .view .MST_UPD_STAT_COMP⟩
/-- R537, offset 0x050. -/
abbrev Reg.MST_UPD_BYTES.BYTES : Fld := ⟨(.one 0x008), 0x050, 0, 1, 0, 32, .ro, .v, .num 0, .view .MST_UPD_BYTES_BYTES⟩
/-- R537, offset 0x054. -/
abbrev Reg.MST_UPD_REFUSED.REQ : Fld := ⟨(.one 0x008), 0x054, 0, 1, 0, 2, .ro, .v, .num 0, .stored⟩
/-- R537, offset 0x054. -/
abbrev Reg.MST_UPD_REFUSED.HOLDER : Fld := ⟨(.one 0x008), 0x054, 0, 1, 4, 2, .ro, .v, .num 0, .stored⟩
/-- R537, offset 0x054. -/
abbrev Reg.MST_UPD_REFUSED.VALID : Fld := ⟨(.one 0x008), 0x054, 0, 1, 31, 1, .w1c, .v, .num 0, .stored⟩
/-- R537, offset 0x058. -/
abbrev Reg.MST_DOWNGRADE.PERMIT : Fld := ⟨(.one 0x008), 0x058, 0, 1, 0, 1, .rw, .v, .num 0, .stored⟩
/-- R537, offset 0x058. -/
abbrev Reg.MST_DOWNGRADE.KEY : Fld := ⟨(.one 0x008), 0x058, 0, 1, 8, 8, .wo, .v, .num 0, .acts⟩
/-- R537, offset 0x05C. -/
abbrev Reg.MST_SEC_CFG.SIG_REQ : Fld := ⟨(.one 0x008), 0x05C, 0, 1, 0, 1, .rw, .n, .num 0, .stored⟩
/-- R537, offset 0x05C. -/
abbrev Reg.MST_SEC_CFG.KEYS : Fld := ⟨(.one 0x008), 0x05C, 0, 1, 4, 4, .ro, .n, .num 0, .view .MST_SEC_CFG_KEYS⟩
/-- R537, offset 0x060. -/
abbrev Reg.MST_SET_CMD.COMMIT : Fld := ⟨(.one 0x008), 0x060, 0, 1, 0, 1, .rws, .v, .num 0, .stored⟩
/-- R537, offset 0x060. -/
abbrev Reg.MST_SET_CMD.ERASE_OLD : Fld := ⟨(.one 0x008), 0x060, 0, 1, 1, 1, .rws, .v, .num 0, .stored⟩
/-- R537, offset 0x060. -/
abbrev Reg.MST_SET_CMD.KEY : Fld := ⟨(.one 0x008), 0x060, 0, 1, 8, 8, .wo, .v, .num 0, .acts⟩
/-- R537, offset 0x064. -/
abbrev Reg.MST_SET_STAT.RESULT : Fld := ⟨(.one 0x008), 0x064, 0, 1, 0, 3, .ro, .v, .num 0, .stored⟩
/-- R537, offset 0x064. -/
abbrev Reg.MST_SET_STAT.SCHEMA : Fld := ⟨(.one 0x008), 0x064, 0, 1, 8, 8, .ro, .v, .num 0, .view .MST_SET_STAT_SCHEMA⟩
/-- R537, offset 0x064. -/
abbrev Reg.MST_SET_STAT.SEQ : Fld := ⟨(.one 0x008), 0x064, 0, 1, 16, 16, .ro, .v, .num 0, .view .MST_SET_STAT_SEQ⟩
/-- R537, offset 0x068. -/
abbrev Reg.MST_COMP_SEL.TYPE : Fld := ⟨(.one 0x008), 0x068, 0, 1, 0, 8, .rw, .v, .num 0, .stored⟩
/-- R537, offset 0x06C. -/
abbrev Reg.MST_COMP_VER.VERSION : Fld := ⟨(.one 0x008), 0x06C, 0, 1, 0, 32, .ro, .v, .num 0, .view .MST_COMP_VER_VERSION⟩
/-- R537, offset 0x070. -/
abbrev Reg.MST_SJ_SEL.ENTRY : Fld := ⟨(.one 0x008), 0x070, 0, 1, 0, 10, .rw, .v, .num 0, .stored⟩
/-- R537, offset 0x070. -/
abbrev Reg.MST_SJ_SEL.DWORD : Fld := ⟨(.one 0x008), 0x070, 0, 1, 12, 2, .rw, .v, .num 0, .stored⟩
/-- R537, offset 0x074. -/
abbrev Reg.MST_SJ_DATA.DATA : Fld := ⟨(.one 0x008), 0x074, 0, 1, 0, 32, .ro, .v, .num 0, .view .MST_SJ_DATA_DATA⟩
/-- R537, offset 0x078. -/
abbrev Reg.MST_SJ_STAT.COPY : Fld := ⟨(.one 0x008), 0x078, 0, 1, 0, 1, .ro, .v, .num 0, .view .MST_SJ_STAT_COPY⟩
/-- R537, offset 0x078. -/
abbrev Reg.MST_SJ_STAT.VALID : Fld := ⟨(.one 0x008), 0x078, 0, 1, 1, 1, .ro, .v, .num 0, .view .MST_SJ_STAT_VALID⟩
/-- R537, offset 0x078. -/
abbrev Reg.MST_SJ_STAT.GEN : Fld := ⟨(.one 0x008), 0x078, 0, 1, 16, 16, .ro, .v, .num 0, .view .MST_SJ_STAT_GEN⟩
/-- R537, offset 0xC00. -/
abbrev Reg.MST_UPD_DATA.PUSH : Fld := ⟨(.one 0x008), 0xC00, 0, 1, 0, 32, .wp, .v, .num 0, .acts⟩
/-- R537, offset 0xC04. -/
abbrev Reg.MST_UPD_DATA16.PUSH : Fld := ⟨(.one 0x008), 0xC04, 0, 1, 0, 16, .wp, .v, .num 0, .acts⟩
/-- R538, offset 0x080. -/
abbrev Reg.MST.SESSIONS : Fld := ⟨(.one 0x008), 0x080, 0, 1, 0, 32, .ro, .v, .num 0, .stored⟩
/-- R538, offset 0x084. -/
abbrev Reg.MST.REFUSED_OPENS : Fld := ⟨(.one 0x008), 0x084, 0, 1, 0, 32, .ro, .v, .num 0, .stored⟩
/-- R538, offset 0x088. -/
abbrev Reg.MST.COMP_WRITTEN : Fld := ⟨(.one 0x008), 0x088, 0, 1, 0, 32, .ro, .v, .num 0, .stored⟩
/-- R538, offset 0x08C. -/
abbrev Reg.MST.COMP_SKIPPED : Fld := ⟨(.one 0x008), 0x08C, 0, 1, 0, 32, .ro, .v, .num 0, .stored⟩
/-- R538, offset 0x090. -/
abbrev Reg.MST.SET_COMMITS : Fld := ⟨(.one 0x008), 0x090, 0, 1, 0, 32, .ro, .v, .num 0, .stored⟩
/-- R538, offset 0x094. -/
abbrev Reg.MST.SJ_LOOKUPS : Fld := ⟨(.one 0x008), 0x094, 0, 1, 0, 32, .ro, .v, .num 0, .stored⟩
/-- R538, offset 0x098. -/
abbrev Reg.MST.SJ_NOMATCH : Fld := ⟨(.one 0x008), 0x098, 0, 1, 0, 32, .ro, .v, .num 0, .stored⟩
/-- R538, offset 0x09C. -/
abbrev Reg.MST.MRAM_CORRECTED : Fld := ⟨(.one 0x008), 0x09C, 0, 1, 0, 32, .ro, .v, .num 0, .stored⟩
/-- R438, offset 0x040. -/
abbrev Reg.HBR_PCIE_STAT.SPEED : Fld := ⟨(.one 0x010), 0x040, 0, 1, 0, 4, .ro, .v, .num 0, .stored⟩
/-- R438, offset 0x040. -/
abbrev Reg.HBR_PCIE_STAT.WIDTH : Fld := ⟨(.one 0x010), 0x040, 0, 1, 4, 5, .ro, .v, .num 0, .stored⟩
/-- R438, offset 0x040. -/
abbrev Reg.HBR_PCIE_STAT.DL_UP : Fld := ⟨(.one 0x010), 0x040, 0, 1, 16, 1, .ro, .v, .num 0, .stored⟩
/-- R438, offset 0x044. -/
abbrev Reg.HBR_HOLD.PCIE_US : Fld := ⟨(.one 0x010), 0x044, 0, 1, 0, 10, .rw, .n, .num 20, .stored⟩
/-- R438, offset 0x104. -/
abbrev Reg.HBR_IRQ_ROUTE.VECTOR : Fld := ⟨(.one 0x010), 0x104, 4, 18, 0, 5, .rw, .n, .num 0, .stored⟩
/-- R438, offset 0x104. -/
abbrev Reg.HBR_IRQ_ROUTE.PCIE : Fld := ⟨(.one 0x010), 0x104, 4, 18, 8, 1, .rw, .n, .num 1, .stored⟩
/-- R438, offset 0x104. -/
abbrev Reg.HBR_IRQ_ROUTE.LHP : Fld := ⟨(.one 0x010), 0x104, 4, 18, 9, 1, .rw, .n, .num 0, .stored⟩
/-- R438, offset 0x080. -/
abbrev Reg.HBR.TX_SENTENCES : Fld := ⟨(.one 0x010), 0x080, 0, 1, 0, 32, .ro, .v, .num 0, .stored⟩
/-- R438, offset 0x084. -/
abbrev Reg.HBR.RX_SENTENCES : Fld := ⟨(.one 0x010), 0x084, 0, 1, 0, 32, .ro, .v, .num 0, .stored⟩
/-- R438, offset 0x088. -/
abbrev Reg.HBR.DMA_RD_ERR : Fld := ⟨(.one 0x010), 0x088, 0, 1, 0, 32, .ro, .v, .num 0, .stored⟩
/-- R438, offset 0x08C. -/
abbrev Reg.HBR.HOLDS : Fld := ⟨(.one 0x010), 0x08C, 0, 1, 0, 32, .ro, .v, .num 0, .stored⟩
/-- R438, offset 0x090. -/
abbrev Reg.HBR.HOLD_DISCARDS : Fld := ⟨(.one 0x010), 0x090, 0, 1, 0, 32, .ro, .v, .num 0, .stored⟩
/-- R438, offset 0x094. -/
abbrev Reg.HBR.LHP_TIMEOUTS : Fld := ⟨(.one 0x010), 0x094, 0, 1, 0, 32, .ro, .v, .num 0, .stored⟩
/-- R101, offset 0x040. -/
abbrev Reg.HBR_LHP_WIN.BASE : Fld := ⟨(.one 0x01F), 0x040, 0, 1, 0, 10, .rw, .w, .num 0, .stored⟩
/-- R102, offset 0x044. -/
abbrev Reg.HBR_LHP_CFG.INST : Fld := ⟨(.one 0x01F), 0x044, 0, 1, 0, 6, .rw, .n, .num 1, .stored⟩
/-- R102, offset 0x044. -/
abbrev Reg.HBR_LHP_CFG.NARROW : Fld := ⟨(.one 0x01F), 0x044, 0, 1, 8, 1, .rw, .n, .num 0, .stored⟩
/-- R439, offset 0x048. -/
abbrev Reg.HBR_LHP_BUS.SYNC : Fld := ⟨(.one 0x01F), 0x048, 0, 1, 0, 1, .rw, .w, .num 0, .stored⟩
/-- R439, offset 0x048. -/
abbrev Reg.HBR_LHP_BUS.TMO_US : Fld := ⟨(.one 0x01F), 0x048, 0, 1, 8, 10, .rw, .w, .num 100, .stored⟩
/-- R439, offset 0x04C. -/
abbrev Reg.HBR_LHP_IRQ.PENDING : Fld := ⟨(.one 0x01F), 0x04C, 0, 1, 0, 32, .w1c, .v, .num 0, .stored⟩
/-- R439, offset 0x050. -/
abbrev Reg.HBR_LHP_IRQ_EN.EN : Fld := ⟨(.one 0x01F), 0x050, 0, 1, 0, 32, .rw, .w, .num 0, .stored⟩
/-- R103, offset 0xC00. -/
abbrev Reg.HBR_TAG_ALIAS.PUSH : Fld := ⟨(.one 0x01F), 0xC00, 4, 32, 0, 16, .wp, .v, .num 0, .acts⟩
/-- R398, offset 0x040. -/
abbrev Reg.TBU_SNAP.GO : Fld := ⟨(.one 0x020), 0x040, 0, 1, 0, 1, .rws, .v, .num 0, .stored⟩
/-- R398, offset 0x044. -/
abbrev Reg.TBU_SNAP_WFRAC.FRAC : Fld := ⟨(.one 0x020), 0x044, 0, 1, 0, 16, .ro, .v, .num 0, .view .TBU_SNAP_WFRAC_FRAC⟩
/-- R398, offset 0x044. -/
abbrev Reg.TBU_SNAP_WFRAC.EPOCH : Fld := ⟨(.one 0x020), 0x044, 0, 1, 16, 16, .ro, .v, .num 0, .view .TBU_SNAP_WFRAC_EPOCH⟩
/-- R398, offset 0x048. -/
abbrev Reg.TBU_SNAP_WNS_LO.NS : Fld := ⟨(.one 0x020), 0x048, 0, 1, 0, 32, .ro, .v, .num 0, .view .TBU_SNAP_WNS_LO_NS⟩
/-- R398, offset 0x04C. -/
abbrev Reg.TBU_SNAP_WNS_HI.NS : Fld := ⟨(.one 0x020), 0x04C, 0, 1, 0, 16, .ro, .v, .num 0, .view .TBU_SNAP_WNS_HI_NS⟩
/-- R398, offset 0x050. -/
abbrev Reg.TBU_TSQ_STAT.DEPTH : Fld := ⟨(.one 0x020), 0x050, 0, 1, 0, 11, .ro, .v, .num 0, .view .TBU_TSQ_STAT_DEPTH⟩
/-- R398, offset 0x054. -/
abbrev Reg.TBU_RING_CFG.MODE : Fld := ⟨(.one 0x020), 0x054, 0, 1, 0, 2, .rw, .n, .num 1, .stored⟩
/-- R398, offset 0x054. -/
abbrev Reg.TBU_RING_CFG.EXT : Fld := ⟨(.one 0x020), 0x054, 0, 1, 2, 1, .rw, .n, .num 0, .stored⟩
/-- R398, offset 0x054. -/
abbrev Reg.TBU_RING_CFG.FREEZE : Fld := ⟨(.one 0x020), 0x054, 0, 1, 3, 1, .rw, .v, .num 0, .stored⟩
/-- R398, offset 0x054. -/
abbrev Reg.TBU_RING_CFG.EXT_LOG2 : Fld := ⟨(.one 0x020), 0x054, 0, 1, 8, 5, .rw, .n, .num 20, .stored⟩
/-- R398, offset 0x058. -/
abbrev Reg.TBU_RING_STAT.SLOTS : Fld := ⟨(.one 0x020), 0x058, 0, 1, 0, 21, .ro, .w, .num 0, .view .TBU_RING_STAT_SLOTS⟩
/-- R398, offset 0x058. -/
abbrev Reg.TBU_RING_STAT.CAP_LOG2 : Fld := ⟨(.one 0x020), 0x058, 0, 1, 24, 5, .ro, .w, .num 13, .view .TBU_RING_STAT_CAP_LOG2⟩
/-- R398, offset 0x05C. -/
abbrev Reg.TBU_EGR_PTP.PORTS : Fld := ⟨(.one 0x020), 0x05C, 0, 1, 0, 16, .rw, .n, .num 0, .stored⟩
/-- R398, offset 0x080. -/
abbrev Reg.TBU_EGR_CAP.TALKER : Fld := ⟨(.one 0x020), 0x080, 4, 32, 0, 14, .rw, .n, .num 0, .stored⟩
/-- R398, offset 0x080. -/
abbrev Reg.TBU_EGR_CAP.PORT : Fld := ⟨(.one 0x020), 0x080, 4, 32, 16, 8, .rw, .n, .num 0, .stored⟩
/-- R398, offset 0x080. -/
abbrev Reg.TBU_EGR_CAP.VALID : Fld := ⟨(.one 0x020), 0x080, 4, 32, 31, 1, .rw, .n, .num 0, .stored⟩
/-- R400, offset 0x100. -/
abbrev Reg.TBU.TBU_TSQ_OVF : Fld := ⟨(.one 0x020), 0x100, 0, 1, 0, 32, .ro, .v, .num 0, .stored⟩
/-- R400, offset 0x104. -/
abbrev Reg.TBU.TSQ_CAPTURES : Fld := ⟨(.one 0x020), 0x104, 0, 1, 0, 32, .ro, .v, .num 0, .stored⟩
/-- R400, offset 0x108. -/
abbrev Reg.TBU.TSI_LOST : Fld := ⟨(.one 0x020), 0x108, 0, 1, 0, 32, .ro, .v, .num 0, .stored⟩
/-- R400, offset 0x10C. -/
abbrev Reg.TBU.RING_RECORDS : Fld := ⟨(.one 0x020), 0x10C, 0, 1, 0, 32, .ro, .v, .num 0, .stored⟩
/-- R400, offset 0x110. -/
abbrev Reg.TBU.RING_LOST : Fld := ⟨(.one 0x020), 0x110, 0, 1, 0, 32, .ro, .v, .num 0, .stored⟩
/-- R400, offset 0x114. -/
abbrev Reg.TBU.RING_OVERWRITTEN : Fld := ⟨(.one 0x020), 0x114, 0, 1, 0, 32, .ro, .v, .num 0, .stored⟩
/-- R400, offset 0x118. -/
abbrev Reg.TBU.MIRROR_SKIPPED : Fld := ⟨(.one 0x020), 0x118, 0, 1, 0, 32, .ro, .v, .num 0, .stored⟩
/-- R400, offset 0x11C. -/
abbrev Reg.TBU.TSO_SKIPPED : Fld := ⟨(.one 0x020), 0x11C, 0, 1, 0, 32, .ro, .v, .num 0, .stored⟩
/-- R400, offset 0x120. -/
abbrev Reg.TBU.BRD_STEPS : Fld := ⟨(.one 0x020), 0x120, 0, 1, 0, 32, .ro, .v, .num 0, .stored⟩
/-- R379, offset 0x800. -/
abbrev Reg.TBU_TSQ_LASTPOP.WORD : Fld := ⟨(.one 0x020), 0x800, 4, 4, 0, 32, .ro, .v, .num 0, .view .TBU_TSQ_LASTPOP_WORD⟩
/-- R390, offset 0x810. -/
abbrev Reg.TBU_RING_LASTPOP.WORD : Fld := ⟨(.one 0x020), 0x810, 4, 4, 0, 32, .ro, .v, .num 0, .view .TBU_RING_LASTPOP_WORD⟩
/-- R379, offset 0xC00. -/
abbrev Reg.TBU_TSQ_POP.POP : Fld := ⟨(.one 0x020), 0xC00, 0, 1, 0, 32, .rp, .v, .num 0, .acts⟩
/-- R390, offset 0xC04. -/
abbrev Reg.TBU_RING_POP.POP : Fld := ⟨(.one 0x020), 0xC04, 0, 1, 0, 32, .rp, .v, .num 0, .acts⟩
/-- R399, offset 0x040. -/
abbrev Reg.TBU_DOM_CFG.ROLE : Fld := ⟨(.one 0x021), 0x040, 64, 4, 0, 2, .rw, .n, .num 0, .stored⟩
/-- R399, offset 0x040. -/
abbrev Reg.TBU_DOM_CFG.SYNC : Fld := ⟨(.one 0x021), 0x040, 64, 4, 2, 1, .rw, .v, .num 0, .stored⟩
/-- R399, offset 0x040. -/
abbrev Reg.TBU_DOM_CFG.DOMNUM : Fld := ⟨(.one 0x021), 0x040, 64, 4, 8, 7, .rw, .n, .index, .stored⟩
/-- R399, offset 0x040. -/
abbrev Reg.TBU_DOM_CFG.HOLD_MS : Fld := ⟨(.one 0x021), 0x040, 64, 4, 16, 16, .rw, .n, .num 0, .stored⟩
/-- R399, offset 0x044. -/
abbrev Reg.TBU_DOM_RATE.RATE : Fld := ⟨(.one 0x021), 0x044, 64, 4, 0, 32, .rw, .w, .num 0, .stored⟩
/-- R399, offset 0x048. -/
abbrev Reg.TBU_DOM_STEP_S.STEP_S : Fld := ⟨(.one 0x021), 0x048, 64, 4, 0, 32, .rw, .v, .num 0, .stored⟩
/-- R399, offset 0x04C. -/
abbrev Reg.TBU_DOM_STEP_NS.STEP_NS : Fld := ⟨(.one 0x021), 0x04C, 64, 4, 0, 32, .rw, .v, .num 0, .stored⟩
/-- R399, offset 0x050. -/
abbrev Reg.TBU_DOM_STEP_CTRL.GO : Fld := ⟨(.one 0x021), 0x050, 64, 4, 0, 1, .rws, .v, .num 0, .stored⟩
/-- R399, offset 0x050. -/
abbrev Reg.TBU_DOM_STEP_CTRL.RESULT : Fld := ⟨(.one 0x021), 0x050, 64, 4, 1, 2, .ro, .v, .num 0, .stored⟩
/-- R399, offset 0x054. -/
abbrev Reg.TBU_DOM_PORTS.PORTS : Fld := ⟨(.one 0x021), 0x054, 64, 4, 0, 16, .rw, .n, .num 0, .stored⟩
/-- R399, offset 0x058. -/
abbrev Reg.TBU_DOM_SNAP_S_LO.S : Fld := ⟨(.one 0x021), 0x058, 64, 4, 0, 32, .ro, .v, .num 0, .view .TBU_DOM_SNAP_S_LO_S⟩
/-- R399, offset 0x05C. -/
abbrev Reg.TBU_DOM_SNAP_S_HI.S : Fld := ⟨(.one 0x021), 0x05C, 64, 4, 0, 16, .ro, .v, .num 0, .view .TBU_DOM_SNAP_S_HI_S⟩
/-- R399, offset 0x060. -/
abbrev Reg.TBU_DOM_SNAP_NS.NS : Fld := ⟨(.one 0x021), 0x060, 64, 4, 0, 30, .ro, .v, .num 0, .view .TBU_DOM_SNAP_NS_NS⟩
/-- R399, offset 0x064. -/
abbrev Reg.TBU_DOM_SNAP_FRAC.FRAC : Fld := ⟨(.one 0x021), 0x064, 64, 4, 0, 16, .ro, .v, .num 0, .view .TBU_DOM_SNAP_FRAC_FRAC⟩
/-- R401, offset 0x040. -/
abbrev Reg.TBU_TSI_CFG.EDGE : Fld := ⟨(.one 0x022), 0x040, 4, 5, 0, 2, .rw, .n, .num 0, .stored⟩
/-- R401, offset 0x040. -/
abbrev Reg.TBU_TSI_CFG.DLY : Fld := ⟨(.one 0x022), 0x040, 4, 5, 16, 16, .rw, .n, .num 0, .stored⟩
/-- R401, offset 0x080. -/
abbrev Reg.TSO_CTRL.EN : Fld := ⟨(.one 0x022), 0x080, 32, 5, 0, 1, .rw, .n, .num 0, .stored⟩
/-- R401, offset 0x080. -/
abbrev Reg.TSO_CTRL.CLOCK : Fld := ⟨(.one 0x022), 0x080, 32, 5, 1, 3, .rw, .n, .num 0, .stored⟩
/-- R401, offset 0x080. -/
abbrev Reg.TSO_CTRL.IDLE : Fld := ⟨(.one 0x022), 0x080, 32, 5, 4, 1, .rw, .n, .num 0, .stored⟩
/-- R401, offset 0x080. -/
abbrev Reg.TSO_CTRL.CFG_ERR : Fld := ⟨(.one 0x022), 0x080, 32, 5, 5, 1, .ro, .v, .num 0, .view .TSO_CTRL_CFG_ERR⟩
/-- R401, offset 0x084. -/
abbrev Reg.TSO_START_NS.NS : Fld := ⟨(.one 0x022), 0x084, 32, 4, 0, 30, .rw, .n, .num 0, .stored⟩
/-- R383, offset 0x104. -/
abbrev Reg.PPS_START_NS.NS : Fld := ⟨(.one 0x022), 0x104, 0, 1, 0, 30, .ro, .n, .num 0, .stored⟩
/-- R401, offset 0x088. -/
abbrev Reg.TSO_START_S.S : Fld := ⟨(.one 0x022), 0x088, 32, 5, 0, 32, .rw, .n, .num 0, .stored⟩
/-- R401, offset 0x08C. -/
abbrev Reg.TSO_PERIOD_NS.PERIOD : Fld := ⟨(.one 0x022), 0x08C, 32, 4, 0, 30, .rw, .n, .num 1000000, .stored⟩
/-- R383, offset 0x10C. -/
abbrev Reg.PPS_PERIOD_NS.PERIOD : Fld := ⟨(.one 0x022), 0x10C, 0, 1, 0, 30, .ro, .n, .num 1000000000, .stored⟩
/-- R401, offset 0x090. -/
abbrev Reg.TSO_HIGH_NS.HIGH : Fld := ⟨(.one 0x022), 0x090, 32, 5, 0, 30, .rw, .n, .num 500000, .stored⟩
/-- R401, offset 0x094. -/
abbrev Reg.TSO_START_S_HI.S : Fld := ⟨(.one 0x022), 0x094, 32, 5, 0, 16, .rw, .n, .num 0, .stored⟩
/-- R401, offset 0x200. -/
abbrev Reg.TBU_PORT_DLY.RX_DLY : Fld := ⟨(.one 0x022), 0x200, 4, 22, 0, 16, .rw, .n, .num 0, .stored⟩
/-- R401, offset 0x200. -/
abbrev Reg.TBU_PORT_DLY.TX_DLY : Fld := ⟨(.one 0x022), 0x200, 4, 22, 16, 16, .rw, .n, .num 0, .stored⟩
/-- R401, offset 0x040. -/
abbrev Reg.TBU_BRD_STAT.LOCKED : Fld := ⟨(.one 0x023), 0x040, 0, 1, 0, 1, .ro, .v, .num 0, .view .TBU_BRD_STAT_LOCKED⟩
/-- R401, offset 0x040. -/
abbrev Reg.TBU_BRD_STAT.HOPS : Fld := ⟨(.one 0x023), 0x040, 0, 1, 1, 3, .ro, .v, .num 0, .view .TBU_BRD_STAT_HOPS⟩
/-- R401, offset 0x040. -/
abbrev Reg.TBU_BRD_STAT.LINK : Fld := ⟨(.one 0x023), 0x040, 0, 1, 4, 2, .ro, .v, .num 0, .view .TBU_BRD_STAT_LINK⟩
/-- R401, offset 0x040. -/
abbrev Reg.TBU_BRD_STAT.OFFSET : Fld := ⟨(.one 0x023), 0x040, 0, 1, 16, 16, .ro, .v, .num 0, .view .TBU_BRD_STAT_OFFSET⟩
/-- R226, offset 0x040. -/
abbrev Reg.NRM_COMMIT.GO : Fld := ⟨(.one 0x028), 0x040, 0, 1, 0, 1, .rws, .v, .num 0, .stored⟩
/-- R226, offset 0x044. -/
abbrev Reg.NRM_COMMIT_STAT.ACTIVE : Fld := ⟨(.one 0x028), 0x044, 0, 1, 0, 1, .ro, .w, .num 0, .view .NRM_COMMIT_STAT_ACTIVE⟩
/-- R226, offset 0x044. -/
abbrev Reg.NRM_COMMIT_STAT.RESYNC : Fld := ⟨(.one 0x028), 0x044, 0, 1, 1, 1, .ro, .v, .num 0, .view .NRM_COMMIT_STAT_RESYNC⟩
/-- R226, offset 0x044. -/
abbrev Reg.NRM_COMMIT_STAT.SJ_MODE : Fld := ⟨(.one 0x028), 0x044, 0, 1, 2, 1, .ro, .v, .num 0, .view .NRM_COMMIT_STAT_SJ_MODE⟩
/-- R226, offset 0x044. -/
abbrev Reg.NRM_COMMIT_STAT.RESULT : Fld := ⟨(.one 0x028), 0x044, 0, 1, 4, 3, .ro, .v, .num 0, .stored⟩
/-- R226, offset 0x044. -/
abbrev Reg.NRM_COMMIT_STAT.COMMITS : Fld := ⟨(.one 0x028), 0x044, 0, 1, 16, 16, .ro, .v, .num 0, .stored⟩
/-- R226, offset 0x048. -/
abbrev Reg.NRM_SEQ_SEL.TALKER : Fld := ⟨(.one 0x028), 0x048, 0, 1, 0, 14, .rw, .v, .num 0, .stored⟩
/-- R226, offset 0x04C. -/
abbrev Reg.NRM_SEQ.NEXT : Fld := ⟨(.one 0x028), 0x04C, 0, 1, 0, 16, .ro, .v, .num 0, .view .NRM_SEQ_NEXT⟩
/-- R226, offset 0x050. -/
abbrev Reg.NRM_SF_SEL.FILTER : Fld := ⟨(.one 0x028), 0x050, 0, 1, 0, 10, .rw, .v, .num 0, .stored⟩
/-- R226, offset 0x054. -/
abbrev Reg.NRM_SF_STAT.BLOCKED : Fld := ⟨(.one 0x028), 0x054, 0, 1, 0, 1, .w1c, .v, .num 0, .view .NRM_SF_STAT_BLOCKED⟩
/-- R226, offset 0x058. -/
abbrev Reg.NRM_FM_SEL.METER : Fld := ⟨(.one 0x028), 0x058, 0, 1, 0, 10, .rw, .v, .num 0, .stored⟩
/-- R226, offset 0x05C. -/
abbrev Reg.NRM_FM_STAT.RED_LATCH : Fld := ⟨(.one 0x028), 0x05C, 0, 1, 0, 1, .w1c, .v, .num 0, .view .NRM_FM_STAT_RED_LATCH⟩
/-- R226, offset 0x060. -/
abbrev Reg.NRM_FM_TC.TC : Fld := ⟨(.one 0x028), 0x060, 0, 1, 0, 20, .ro, .v, .num 0, .view .NRM_FM_TC_TC⟩
/-- R226, offset 0x064. -/
abbrev Reg.NRM_FM_TE.TE : Fld := ⟨(.one 0x028), 0x064, 0, 1, 0, 20, .ro, .v, .num 0, .view .NRM_FM_TE_TE⟩
/-- R227, offset 0x080. -/
abbrev Reg.NRM.LOOKUPS : Fld := ⟨(.one 0x028), 0x080, 0, 1, 0, 32, .ro, .v, .num 0, .stored⟩
/-- R227, offset 0x084. -/
abbrev Reg.NRM.NO_TALKER : Fld := ⟨(.one 0x028), 0x084, 0, 1, 0, 32, .ro, .v, .num 0, .stored⟩
/-- R227, offset 0x088. -/
abbrev Reg.NRM.NO_ROUTE : Fld := ⟨(.one 0x028), 0x088, 0, 1, 0, 32, .ro, .v, .num 0, .stored⟩
/-- R227, offset 0x08C. -/
abbrev Reg.NRM.POLICED_SDU : Fld := ⟨(.one 0x028), 0x08C, 0, 1, 0, 32, .ro, .v, .num 0, .stored⟩
/-- R227, offset 0x090. -/
abbrev Reg.NRM.POLICED_BLOCKED : Fld := ⟨(.one 0x028), 0x090, 0, 1, 0, 32, .ro, .v, .num 0, .stored⟩
/-- R227, offset 0x094. -/
abbrev Reg.NRM.POLICED_RED : Fld := ⟨(.one 0x028), 0x094, 0, 1, 0, 32, .ro, .v, .num 0, .stored⟩
/-- R227, offset 0x098. -/
abbrev Reg.NRM.MARKED_YELLOW : Fld := ⟨(.one 0x028), 0x098, 0, 1, 0, 32, .ro, .v, .num 0, .stored⟩
/-- R227, offset 0x09C. -/
abbrev Reg.NRM.BP_CYCLES : Fld := ⟨(.one 0x028), 0x09C, 0, 1, 0, 32, .ro, .v, .num 0, .stored⟩
/-- R254, offset 0x040. -/
abbrev Reg.SWC_CT_EN.EN : Fld := ⟨(.one 0x030), 0x040, 0, 1, 0, 16, .rw, .n, .num 0xFFFF, .stored⟩
/-- R254, offset 0x044. -/
abbrev Reg.SWC_RESEQ_CFG.TIMEOUT_US : Fld := ⟨(.one 0x030), 0x044, 0, 1, 0, 10, .rw, .n, .num 20, .stored⟩
/-- R254, offset 0x048. -/
abbrev Reg.SWC_RESEQ_STAT.TICKETS : Fld := ⟨(.one 0x030), 0x048, 0, 1, 0, 14, .ro, .v, .num 0, .view .SWC_RESEQ_STAT_TICKETS⟩
/-- R254, offset 0x060. -/
abbrev Reg.SWC_LIFE.LIFE_US : Fld := ⟨(.one 0x030), 0x060, 4, 8, 0, 20, .rw, .n, .num 100000, .stored⟩
/-- R255, offset 0x080. -/
abbrev Reg.SWC.CT_STARTED : Fld := ⟨(.one 0x030), 0x080, 0, 1, 0, 32, .ro, .v, .num 0, .stored⟩
/-- R255, offset 0x084. -/
abbrev Reg.SWC.CT_STORED : Fld := ⟨(.one 0x030), 0x084, 0, 1, 0, 32, .ro, .v, .num 0, .stored⟩
/-- R255, offset 0x088. -/
abbrev Reg.SWC.LIFETIME_FAILS : Fld := ⟨(.one 0x030), 0x088, 0, 1, 0, 32, .ro, .v, .num 0, .stored⟩
/-- R255, offset 0x08C. -/
abbrev Reg.SWC.LOSS_RECORDS : Fld := ⟨(.one 0x030), 0x08C, 0, 1, 0, 32, .ro, .v, .num 0, .stored⟩
/-- R255, offset 0x090. -/
abbrev Reg.SWC.RESEQ_TIMEOUTS : Fld := ⟨(.one 0x030), 0x090, 0, 1, 0, 32, .ro, .v, .num 0, .stored⟩
/-- R255, offset 0x094. -/
abbrev Reg.SWC.RESEQ_LATE : Fld := ⟨(.one 0x030), 0x094, 0, 1, 0, 32, .ro, .v, .num 0, .stored⟩
/-- R255, offset 0x098. -/
abbrev Reg.SWC.RESEQ_FORCED : Fld := ⟨(.one 0x030), 0x098, 0, 1, 0, 32, .ro, .v, .num 0, .stored⟩
/-- R255, offset 0x09C. -/
abbrev Reg.SWC.RESEQ_CANCELLED : Fld := ⟨(.one 0x030), 0x09C, 0, 1, 0, 32, .ro, .v, .num 0, .stored⟩
/-- R255, offset 0x100. -/
abbrev Reg.SWC_XIN_CELLS_LO.N : Fld := ⟨(.one 0x030), 0x100, 8, 20, 0, 32, .ro, .v, .num 0, .stored⟩
/-- R255, offset 0x104. -/
abbrev Reg.SWC_XIN_CELLS_HI.N : Fld := ⟨(.one 0x030), 0x104, 8, 20, 0, 32, .ro, .v, .num 0, .stored⟩
/-- R255, offset 0x200. -/
abbrev Reg.SWC_XOUT_CELLS_LO.N : Fld := ⟨(.one 0x030), 0x200, 8, 20, 0, 32, .ro, .v, .num 0, .stored⟩
/-- R255, offset 0x204. -/
abbrev Reg.SWC_XOUT_CELLS_HI.N : Fld := ⟨(.one 0x030), 0x204, 8, 20, 0, 32, .ro, .v, .num 0, .stored⟩
/-- R256, offset 0x040. -/
abbrev Reg.SWC_GCL_CTRL.GATE_EN : Fld := ⟨.sched, 0x040, 512, 2, 0, 1, .rw, .n, .num 0, .stored⟩
/-- R256, offset 0x040. -/
abbrev Reg.SWC_GCL_CTRL.HOLD_EN : Fld := ⟨.sched, 0x040, 512, 2, 1, 1, .rw, .n, .num 0, .stored⟩
/-- R256, offset 0x040. -/
abbrev Reg.SWC_GCL_CTRL.CHANGE : Fld := ⟨.sched, 0x040, 512, 2, 2, 1, .rws, .v, .num 0, .view .SWC_GCL_CTRL_CHANGE⟩
/-- R256, offset 0x040. -/
abbrev Reg.SWC_GCL_CTRL.CLOCK : Fld := ⟨.sched, 0x040, 512, 2, 4, 3, .rw, .n, .num 0, .stored⟩
/-- R256, offset 0x040. -/
abbrev Reg.SWC_GCL_CTRL.ADMIN_LEN : Fld := ⟨.sched, 0x040, 512, 2, 8, 7, .rw, .n, .num 1, .stored⟩
/-- R256, offset 0x044. -/
abbrev Reg.SWC_GCL_STAT.PENDING : Fld := ⟨.sched, 0x044, 512, 2, 0, 1, .ro, .v, .num 0, .view .SWC_GCL_STAT_PENDING⟩
/-- R256, offset 0x044. -/
abbrev Reg.SWC_GCL_STAT.ERR : Fld := ⟨.sched, 0x044, 512, 2, 1, 1, .ro, .v, .num 0, .view .SWC_GCL_STAT_ERR⟩
/-- R256, offset 0x044. -/
abbrev Reg.SWC_GCL_STAT.INDEX : Fld := ⟨.sched, 0x044, 512, 2, 2, 6, .ro, .v, .num 0, .view .SWC_GCL_STAT_INDEX⟩
/-- R256, offset 0x044. -/
abbrev Reg.SWC_GCL_STAT.OPER_LEN : Fld := ⟨.sched, 0x044, 512, 2, 8, 7, .ro, .v, .num 0, .view .SWC_GCL_STAT_OPER_LEN⟩
/-- R256, offset 0x044. -/
abbrev Reg.SWC_GCL_STAT.GATES : Fld := ⟨.sched, 0x044, 512, 2, 16, 8, .ro, .v, .num 0xFF, .view .SWC_GCL_STAT_GATES⟩
/-- R256, offset 0x048. -/
abbrev Reg.SWC_GCL_BASE_NS.NS : Fld := ⟨.sched, 0x048, 512, 2, 0, 30, .rw, .n, .num 0, .stored⟩
/-- R256, offset 0x04C. -/
abbrev Reg.SWC_GCL_BASE_S.S : Fld := ⟨.sched, 0x04C, 512, 2, 0, 32, .rw, .n, .num 0, .stored⟩
/-- R256, offset 0x050. -/
abbrev Reg.SWC_GCL_CYCLE.CYCLE : Fld := ⟨.sched, 0x050, 512, 2, 0, 30, .rw, .n, .num 1000000, .stored⟩
/-- R256, offset 0x054. -/
abbrev Reg.SWC_GCL_EXT.EXT : Fld := ⟨.sched, 0x054, 512, 2, 0, 24, .rw, .n, .num 0, .stored⟩
/-- R256, offset 0x058. -/
abbrev Reg.SWC_GCL_BASE_S_HI.S : Fld := ⟨.sched, 0x058, 512, 2, 0, 16, .rw, .n, .num 0, .stored⟩
/-- R256, offset 0x080. -/
abbrev Reg.SWC_CBS_SLOPE_A.IDLE_SLOPE : Fld := ⟨.sched, 0x080, 8, 8, 0, 24, .rw, .n, .num 0, .stored⟩
/-- R256, offset 0x080. -/
abbrev Reg.SWC_CBS_SLOPE_A.EN : Fld := ⟨.sched, 0x080, 8, 8, 31, 1, .rw, .n, .num 0, .stored⟩
/-- R256, offset 0x084. -/
abbrev Reg.SWC_CBS_LIM_A.HI_CREDIT : Fld := ⟨.sched, 0x084, 8, 8, 0, 16, .rw, .n, .num 0, .stored⟩
/-- R256, offset 0x084. -/
abbrev Reg.SWC_CBS_LIM_A.LO_CREDIT : Fld := ⟨.sched, 0x084, 8, 8, 16, 16, .rw, .n, .num 0, .stored⟩
/-- R256, offset 0x280. -/
abbrev Reg.SWC_CBS_SLOPE_B.IDLE_SLOPE : Fld := ⟨.sched, 0x280, 8, 8, 0, 24, .rw, .n, .num 0, .stored⟩
/-- R256, offset 0x280. -/
abbrev Reg.SWC_CBS_SLOPE_B.EN : Fld := ⟨.sched, 0x280, 8, 8, 31, 1, .rw, .n, .num 0, .stored⟩
/-- R256, offset 0x284. -/
abbrev Reg.SWC_CBS_LIM_B.HI_CREDIT : Fld := ⟨.sched, 0x284, 8, 8, 0, 16, .rw, .n, .num 0, .stored⟩
/-- R256, offset 0x284. -/
abbrev Reg.SWC_CBS_LIM_B.LO_CREDIT : Fld := ⟨.sched, 0x284, 8, 8, 16, 16, .rw, .n, .num 0, .stored⟩
/-- R256, offset 0x0C0. -/
abbrev Reg.SWC_CBS_CREDIT_A.CREDIT : Fld := ⟨.sched, 0x0C0, 4, 8, 0, 32, .ro, .v, .num 0, .view .SWC_CBS_CREDIT_A_CREDIT⟩
/-- R256, offset 0x2C0. -/
abbrev Reg.SWC_CBS_CREDIT_B.CREDIT : Fld := ⟨.sched, 0x2C0, 4, 8, 0, 32, .ro, .v, .num 0, .view .SWC_CBS_CREDIT_B_CREDIT⟩
/-- R256, offset 0x800. -/
abbrev Reg.SWC_GCL_ADMIN_A.GATES : Fld := ⟨.sched, 0x800, 4, 64, 0, 8, .rw, .n, .num 0xFF, .stored⟩
/-- R256, offset 0x800. -/
abbrev Reg.SWC_GCL_ADMIN_A.INTERVAL : Fld := ⟨.sched, 0x800, 4, 64, 8, 24, .rw, .n, .num 0, .stored⟩
/-- R256, offset 0x900. -/
abbrev Reg.SWC_GCL_OPER_A.ENTRY : Fld := ⟨.sched, 0x900, 4, 64, 0, 32, .ro, .v, .num 0, .view .SWC_GCL_OPER_A_ENTRY⟩
/-- R256, offset 0xA00. -/
abbrev Reg.SWC_GCL_ADMIN_B.GATES : Fld := ⟨.sched, 0xA00, 4, 64, 0, 8, .rw, .n, .num 0xFF, .stored⟩
/-- R256, offset 0xA00. -/
abbrev Reg.SWC_GCL_ADMIN_B.INTERVAL : Fld := ⟨.sched, 0xA00, 4, 64, 8, 24, .rw, .n, .num 0, .stored⟩
/-- R256, offset 0xB00. -/
abbrev Reg.SWC_GCL_OPER_B.ENTRY : Fld := ⟨.sched, 0xB00, 4, 64, 0, 32, .ro, .v, .num 0, .view .SWC_GCL_OPER_B_ENTRY⟩
/-- R287, offset 0x040. -/
abbrev Reg.BUF_POOL_STAT.FREE : Fld := ⟨(.one 0x040), 0x040, 0, 1, 0, 17, .ro, .v, .num 65280, .view .BUF_POOL_STAT_FREE⟩
/-- R287, offset 0x044. -/
abbrev Reg.BUF_XM_FREE.FREE : Fld := ⟨(.one 0x040), 0x044, 0, 1, 0, 25, .ro, .v, .num 0, .view .BUF_XM_FREE_FREE⟩
/-- R287, offset 0x048. -/
abbrev Reg.BUF_SPILL.ON : Fld := ⟨(.one 0x040), 0x048, 0, 1, 0, 16, .rw, .n, .num 8192, .stored⟩
/-- R287, offset 0x048. -/
abbrev Reg.BUF_SPILL.OFF : Fld := ⟨(.one 0x040), 0x048, 0, 1, 16, 16, .rw, .n, .num 16384, .stored⟩
/-- R287, offset 0x04C. -/
abbrev Reg.BUF_PREFETCH.AHEAD : Fld := ⟨(.one 0x040), 0x04C, 0, 1, 0, 8, .rw, .n, .num 64, .stored⟩
/-- R287, offset 0x04C. -/
abbrev Reg.BUF_PREFETCH.SPILL_DEPTH : Fld := ⟨(.one 0x040), 0x04C, 0, 1, 16, 16, .rw, .n, .num 256, .stored⟩
/-- R287, offset 0x050. -/
abbrev Reg.BUF_XM_CFG.EN : Fld := ⟨(.one 0x040), 0x050, 0, 1, 0, 1, .rw, .n, .num 0, .stored⟩
/-- R287, offset 0x050. -/
abbrev Reg.BUF_XM_CFG.RATE : Fld := ⟨(.one 0x040), 0x050, 0, 1, 1, 2, .rw, .n, .num 3, .stored⟩
/-- R287, offset 0x050. -/
abbrev Reg.BUF_XM_CFG.DENSITY : Fld := ⟨(.one 0x040), 0x050, 0, 1, 4, 3, .rw, .n, .num 0, .stored⟩
/-- R287, offset 0x050. -/
abbrev Reg.BUF_XM_CFG.RETRAIN_S : Fld := ⟨(.one 0x040), 0x050, 0, 1, 8, 8, .rw, .n, .num 60, .stored⟩
/-- R287, offset 0x050. -/
abbrev Reg.BUF_XM_CFG.CELLS_MI : Fld := ⟨(.one 0x040), 0x050, 0, 1, 16, 5, .rw, .n, .num 0, .stored⟩
/-- R287, offset 0x054. -/
abbrev Reg.BUF_XM_STAT.READY : Fld := ⟨(.one 0x040), 0x054, 0, 1, 0, 1, .ro, .v, .num 0, .view .BUF_XM_STAT_READY⟩
/-- R287, offset 0x054. -/
abbrev Reg.BUF_XM_STAT.TRAINING : Fld := ⟨(.one 0x040), 0x054, 0, 1, 1, 1, .ro, .v, .num 0, .view .BUF_XM_STAT_TRAINING⟩
/-- R287, offset 0x054. -/
abbrev Reg.BUF_XM_STAT.FAIL : Fld := ⟨(.one 0x040), 0x054, 0, 1, 2, 1, .ro, .v, .num 0, .view .BUF_XM_STAT_FAIL⟩
/-- R287, offset 0x058. -/
abbrev Reg.BUF_XM_TRAIN.START : Fld := ⟨(.one 0x040), 0x058, 0, 1, 0, 1, .rws, .v, .num 0, .view .BUF_XM_TRAIN_START⟩
/-- R287, offset 0x060. -/
abbrev Reg.BUF_FLOOR.FLOOR : Fld := ⟨(.one 0x040), 0x060, 4, 8, 0, 25, .rw, .n, .floor, .stored⟩
/-- R287, offset 0x080. -/
abbrev Reg.BUF_PROFILE.SHARE : Fld := ⟨(.one 0x040), 0x080, 4, 16, 0, 32, .rw, .n, .num 0xFFFFFFFF, .stored⟩
/-- R287, offset 0x0C0. -/
abbrev Reg.BUF_EQ_SEL.SET : Fld := ⟨(.one 0x040), 0x0C0, 0, 1, 0, 11, .rw, .v, .num 0, .stored⟩
/-- R287, offset 0x0C4. -/
abbrev Reg.BUF_EQ_DEPTH.DEPTH : Fld := ⟨(.one 0x040), 0x0C4, 0, 1, 0, 25, .ro, .v, .num 0, .view .BUF_EQ_DEPTH_DEPTH⟩
/-- R287, offset 0x0E0. -/
abbrev Reg.BUF_EQ_CLASS.DEPTH : Fld := ⟨(.one 0x040), 0x0E0, 4, 8, 0, 25, .ro, .v, .num 0, .view .BUF_EQ_CLASS_DEPTH⟩
/-- R289, offset 0x100. -/
abbrev Reg.BUF.PUSHOUTS : Fld := ⟨(.one 0x040), 0x100, 0, 1, 0, 32, .ro, .v, .num 0, .stored⟩
/-- R289, offset 0x104. -/
abbrev Reg.BUF.ADMIT_WAITS : Fld := ⟨(.one 0x040), 0x104, 0, 1, 0, 32, .ro, .v, .num 0, .stored⟩
/-- R289, offset 0x108. -/
abbrev Reg.BUF.ADMIT_LIFETIME : Fld := ⟨(.one 0x040), 0x108, 0, 1, 0, 32, .ro, .v, .num 0, .stored⟩
/-- R289, offset 0x10C. -/
abbrev Reg.BUF.SPILLED : Fld := ⟨(.one 0x040), 0x10C, 0, 1, 0, 32, .ro, .v, .num 0, .stored⟩
/-- R289, offset 0x110. -/
abbrev Reg.BUF.PREFETCHED : Fld := ⟨(.one 0x040), 0x110, 0, 1, 0, 32, .ro, .v, .num 0, .stored⟩
/-- R289, offset 0x114. -/
abbrev Reg.BUF.PREFETCH_LATE : Fld := ⟨(.one 0x040), 0x114, 0, 1, 0, 32, .ro, .v, .num 0, .stored⟩
/-- R289, offset 0x118. -/
abbrev Reg.BUF.MEM_FAULTS : Fld := ⟨(.one 0x040), 0x118, 0, 1, 0, 32, .ro, .v, .num 0, .stored⟩
/-- R289, offset 0x11C. -/
abbrev Reg.BUF.RSV_WAITS : Fld := ⟨(.one 0x040), 0x11C, 0, 1, 0, 32, .ro, .v, .num 0, .stored⟩
/-- R288, offset 0x800. -/
abbrev Reg.BUF_SET.LIMIT : Fld := ⟨.sets, 0x800, 4, 256, 0, 24, .rw, .n, .setLimit, .stored⟩
/-- R288, offset 0x800. -/
abbrev Reg.BUF_SET.PROFILE : Fld := ⟨.sets, 0x800, 4, 256, 24, 4, .rw, .n, .num 0, .stored⟩
/-- R361, offset 0x040. -/
abbrev Reg.GWY_WIN.SEG : Fld := ⟨(.one 0x048), 0x040, 0, 1, 0, 4, .rw, .w, .num 0, .view .GWY_WIN_SEG⟩
/-- R361, offset 0x044. -/
abbrev Reg.GWY_SLOT_SEL.SLOT : Fld := ⟨(.one 0x048), 0x044, 0, 1, 0, 16, .rw, .v, .num 0, .stored⟩
/-- R361, offset 0x048. -/
abbrev Reg.GWY_SLOT_VLO.VALUE : Fld := ⟨(.one 0x048), 0x048, 0, 1, 0, 32, .rw, .v, .num 0, .view .GWY_SLOT_VLO_VALUE⟩
/-- R361, offset 0x04C. -/
abbrev Reg.GWY_SLOT_VHI.VALUE : Fld := ⟨(.one 0x048), 0x04C, 0, 1, 0, 32, .rw, .v, .num 0, .view .GWY_SLOT_VHI_VALUE⟩
/-- R361, offset 0x050. -/
abbrev Reg.GWY_SLOT_META.VALID : Fld := ⟨(.one 0x048), 0x050, 0, 1, 0, 1, .ro, .v, .num 0, .view .GWY_SLOT_META_VALID⟩
/-- R361, offset 0x050. -/
abbrev Reg.GWY_SLOT_META.STALE : Fld := ⟨(.one 0x048), 0x050, 0, 1, 1, 1, .ro, .v, .num 0, .view .GWY_SLOT_META_STALE⟩
/-- R361, offset 0x050. -/
abbrev Reg.GWY_SLOT_META.AGE : Fld := ⟨(.one 0x048), 0x050, 0, 1, 8, 24, .ro, .v, .num 0xFFFFFF, .view .GWY_SLOT_META_AGE⟩
/-- R361, offset 0x054. -/
abbrev Reg.GWY_PL_SEL.LIST : Fld := ⟨(.one 0x048), 0x054, 0, 1, 0, 12, .rw, .v, .num 0, .stored⟩
/-- R361, offset 0x058. -/
abbrev Reg.GWY_PL_STAT.NSEQ : Fld := ⟨(.one 0x048), 0x058, 0, 1, 0, 8, .ro, .v, .num 0, .view .GWY_PL_STAT_NSEQ⟩
/-- R361, offset 0x058. -/
abbrev Reg.GWY_PL_STAT.HELD : Fld := ⟨(.one 0x048), 0x058, 0, 1, 8, 1, .ro, .v, .num 0, .view .GWY_PL_STAT_HELD⟩
/-- R361, offset 0x058. -/
abbrev Reg.GWY_PL_STAT.WAITING : Fld := ⟨(.one 0x048), 0x058, 0, 1, 9, 1, .ro, .v, .num 0, .view .GWY_PL_STAT_WAITING⟩
/-- R361, offset 0x058. -/
abbrev Reg.GWY_PL_STAT.DIRTY : Fld := ⟨(.one 0x048), 0x058, 0, 1, 10, 1, .ro, .v, .num 0, .view .GWY_PL_STAT_DIRTY⟩
/-- R361, offset 0x058. -/
abbrev Reg.GWY_PL_STAT.MSGS : Fld := ⟨(.one 0x048), 0x058, 0, 1, 16, 5, .ro, .v, .num 0, .view .GWY_PL_STAT_MSGS⟩
/-- R362, offset 0x080. -/
abbrev Reg.GWY.CUT_SENTENCES : Fld := ⟨(.one 0x048), 0x080, 0, 1, 0, 32, .ro, .v, .num 0, .stored⟩
/-- R362, offset 0x084. -/
abbrev Reg.GWY.CUT_WRITES : Fld := ⟨(.one 0x048), 0x084, 0, 1, 0, 32, .ro, .v, .num 0, .stored⟩
/-- R362, offset 0x088. -/
abbrev Reg.GWY.CUT_SHORT : Fld := ⟨(.one 0x048), 0x088, 0, 1, 0, 32, .ro, .v, .num 0, .stored⟩
/-- R362, offset 0x08C. -/
abbrev Reg.GWY.CUT_NOSLOT : Fld := ⟨(.one 0x048), 0x08C, 0, 1, 0, 32, .ro, .v, .num 0, .stored⟩
/-- R362, offset 0x090. -/
abbrev Reg.GWY.CUT_EXCESS : Fld := ⟨(.one 0x048), 0x090, 0, 1, 0, 32, .ro, .v, .num 0, .stored⟩
/-- R362, offset 0x094. -/
abbrev Reg.GWY.FIRED : Fld := ⟨(.one 0x048), 0x094, 0, 1, 0, 32, .ro, .v, .num 0, .stored⟩
/-- R362, offset 0x098. -/
abbrev Reg.GWY.FIRE_LATE : Fld := ⟨(.one 0x048), 0x098, 0, 1, 0, 32, .ro, .v, .num 0, .stored⟩
/-- R362, offset 0x09C. -/
abbrev Reg.GWY.FIRE_MERGED : Fld := ⟨(.one 0x048), 0x09C, 0, 1, 0, 32, .ro, .v, .num 0, .stored⟩
/-- R362, offset 0x0A0. -/
abbrev Reg.GWY.FIRE_SKIPPED : Fld := ⟨(.one 0x048), 0x0A0, 0, 1, 0, 32, .ro, .v, .num 0, .stored⟩
/-- R362, offset 0x0A4. -/
abbrev Reg.GWY.STALE_EVENTS : Fld := ⟨(.one 0x048), 0x0A4, 0, 1, 0, 32, .ro, .v, .num 0, .stored⟩
/-- R362, offset 0x0A8. -/
abbrev Reg.GWY.ACF_MSGS : Fld := ⟨(.one 0x048), 0x0A8, 0, 1, 0, 32, .ro, .v, .num 0, .stored⟩
/-- R362, offset 0x0AC. -/
abbrev Reg.GWY.MEMBER_REFUSED : Fld := ⟨(.one 0x048), 0x0AC, 0, 1, 0, 32, .ro, .v, .num 0, .stored⟩
/-- R317, offset 0x040. -/
abbrev Reg.ENG_STAT.INSERVICE : Fld := ⟨(.one 0x050), 0x040, 0, 1, 0, 7, .ro, .v, .num 72, .view .ENG_STAT_INSERVICE⟩
/-- R317, offset 0x040. -/
abbrev Reg.ENG_STAT.DEGRADED : Fld := ⟨(.one 0x050), 0x040, 0, 1, 8, 1, .ro, .v, .num 0, .view .ENG_STAT_DEGRADED⟩
/-- R317, offset 0x040. -/
abbrev Reg.ENG_STAT.RETIRED : Fld := ⟨(.one 0x050), 0x040, 0, 1, 16, 7, .ro, .w, .num 0, .view .ENG_STAT_RETIRED⟩
/-- R317, offset 0x044. -/
abbrev Reg.ENG_SVC.ENGINE : Fld := ⟨(.one 0x050), 0x044, 0, 1, 0, 7, .rw, .v, .num 0, .stored⟩
/-- R317, offset 0x044. -/
abbrev Reg.ENG_SVC.RETURN : Fld := ⟨(.one 0x050), 0x044, 0, 1, 8, 1, .rws, .v, .num 0, .view .ENG_SVC_RETURN⟩
/-- R317, offset 0x044. -/
abbrev Reg.ENG_SVC.RETIRE : Fld := ⟨(.one 0x050), 0x044, 0, 1, 9, 1, .rws, .v, .num 0, .view .ENG_SVC_RETIRE⟩
/-- R317, offset 0x044. -/
abbrev Reg.ENG_SVC.RESULT : Fld := ⟨(.one 0x050), 0x044, 0, 1, 16, 2, .ro, .v, .num 0, .stored⟩
/-- R317, offset 0x048. -/
abbrev Reg.ENG_ST_CFG.EN : Fld := ⟨(.one 0x050), 0x048, 0, 1, 0, 1, .rw, .n, .num 1, .stored⟩
/-- R317, offset 0x048. -/
abbrev Reg.ENG_ST_CFG.PERIOD_MS : Fld := ⟨(.one 0x050), 0x048, 0, 1, 8, 8, .rw, .n, .num 10, .stored⟩
/-- R317, offset 0x048. -/
abbrev Reg.ENG_ST_CFG.NEXT : Fld := ⟨(.one 0x050), 0x048, 0, 1, 16, 7, .ro, .v, .num 0, .stored⟩
/-- R317, offset 0x04C. -/
abbrev Reg.ENG_SHARE_CFG.EN : Fld := ⟨(.one 0x050), 0x04C, 0, 1, 0, 1, .rw, .n, .num 0, .stored⟩
/-- R317, offset 0x04C. -/
abbrev Reg.ENG_SHARE_CFG.BURST_KC : Fld := ⟨(.one 0x050), 0x04C, 0, 1, 8, 8, .rw, .n, .num 64, .stored⟩
/-- R317, offset 0x050. -/
abbrev Reg.ENG_TS_SEL.TALKER : Fld := ⟨(.one 0x050), 0x050, 0, 1, 0, 14, .rw, .v, .num 0, .stored⟩
/-- R317, offset 0x050. -/
abbrev Reg.ENG_TS_SEL.WORD : Fld := ⟨(.one 0x050), 0x050, 0, 1, 16, 4, .rw, .v, .num 0, .stored⟩
/-- R317, offset 0x054. -/
abbrev Reg.ENG_TS_DATA.DATA : Fld := ⟨(.one 0x050), 0x054, 0, 1, 0, 18, .rw, .v, .num 0, .view .ENG_TS_DATA_DATA⟩
/-- R317, offset 0x058. -/
abbrev Reg.ENG_TS_STAT.BUSY : Fld := ⟨(.one 0x050), 0x058, 0, 1, 0, 1, .ro, .v, .num 0, .view .ENG_TS_STAT_BUSY⟩
/-- R317, offset 0x058. -/
abbrev Reg.ENG_TS_STAT.LOCKED : Fld := ⟨(.one 0x050), 0x058, 0, 1, 1, 1, .ro, .v, .num 0, .view .ENG_TS_STAT_LOCKED⟩
/-- R318, offset 0x080. -/
abbrev Reg.ENG.DISPATCHED : Fld := ⟨(.one 0x050), 0x080, 0, 1, 0, 32, .ro, .v, .num 0, .stored⟩
/-- R318, offset 0x084. -/
abbrev Reg.ENG.STOLEN : Fld := ⟨(.one 0x050), 0x084, 0, 1, 0, 32, .ro, .v, .num 0, .stored⟩
/-- R318, offset 0x088. -/
abbrev Reg.ENG.COMMITTED : Fld := ⟨(.one 0x050), 0x088, 0, 1, 0, 32, .ro, .v, .num 0, .stored⟩
/-- R318, offset 0x08C. -/
abbrev Reg.ENG.EMITTED : Fld := ⟨(.one 0x050), 0x08C, 0, 1, 0, 32, .ro, .v, .num 0, .stored⟩
/-- R318, offset 0x090. -/
abbrev Reg.ENG.REEXEC : Fld := ⟨(.one 0x050), 0x090, 0, 1, 0, 32, .ro, .v, .num 0, .stored⟩
/-- R318, offset 0x094. -/
abbrev Reg.ENG.SPE_FAULTS : Fld := ⟨(.one 0x050), 0x094, 0, 1, 0, 32, .ro, .v, .num 0, .stored⟩
/-- R318, offset 0x098. -/
abbrev Reg.ENG.WDOG_EXPIRED : Fld := ⟨(.one 0x050), 0x098, 0, 1, 0, 32, .ro, .v, .num 0, .stored⟩
/-- R318, offset 0x09C. -/
abbrev Reg.ENG.PROG_FAULTS : Fld := ⟨(.one 0x050), 0x09C, 0, 1, 0, 32, .ro, .v, .num 0, .stored⟩
/-- R318, offset 0x0A0. -/
abbrev Reg.ENG.ENGINE_FAULTS : Fld := ⟨(.one 0x050), 0x0A0, 0, 1, 0, 32, .ro, .v, .num 0, .stored⟩
/-- R318, offset 0x0A4. -/
abbrev Reg.ENG.CANCELLED : Fld := ⟨(.one 0x050), 0x0A4, 0, 1, 0, 32, .ro, .v, .num 0, .stored⟩
/-- R318, offset 0x0A8. -/
abbrev Reg.ENG.TOO_LONG : Fld := ⟨(.one 0x050), 0x0A8, 0, 1, 0, 32, .ro, .v, .num 0, .stored⟩
/-- R318, offset 0x0AC. -/
abbrev Reg.ENG.ECC_CORRECTED : Fld := ⟨(.one 0x050), 0x0AC, 0, 1, 0, 32, .ro, .v, .num 0, .stored⟩
/-- R317, offset 0x800. -/
abbrev Reg.ENG_SHARE.WEIGHT : Fld := ⟨(.one 0x051), 0x800, 4, 64, 0, 8, .rw, .n, .num 1, .stored⟩
/-- R317, offset 0x900. -/
abbrev Reg.ENG_CREDIT.CREDIT : Fld := ⟨(.one 0x051), 0x900, 4, 64, 0, 32, .ro, .v, .num 0, .view .ENG_CREDIT_CREDIT⟩
/-- R317, offset 0x100. -/
abbrev Reg.ENG_SPE_STAT.STATE : Fld := ⟨(.one 0x052), 0x100, 4, 72, 0, 3, .ro, .v, .num 0, .view .ENG_SPE_STAT_STATE⟩
/-- R317, offset 0x100. -/
abbrev Reg.ENG_SPE_STAT.RETIRED : Fld := ⟨(.one 0x052), 0x100, 4, 72, 3, 1, .ro, .w, .num 0, .view .ENG_SPE_STAT_RETIRED⟩
/-- R317, offset 0x100. -/
abbrev Reg.ENG_SPE_STAT.DEPTH : Fld := ⟨(.one 0x052), 0x100, 4, 72, 8, 6, .ro, .v, .num 0, .view .ENG_SPE_STAT_DEPTH⟩
/-- R317, offset 0x100. -/
abbrev Reg.ENG_SPE_STAT.FAULTS : Fld := ⟨(.one 0x052), 0x100, 4, 72, 16, 2, .ro, .w, .num 0, .view .ENG_SPE_STAT_FAULTS⟩
/-- R317, offset 0x100. -/
abbrev Reg.ENG_SPE_STAT.TALKER : Fld := ⟨(.one 0x052), 0x100, 4, 72, 18, 14, .ro, .v, .num 0, .view .ENG_SPE_STAT_TALKER⟩
/-- R490, offset 0x040. -/
abbrev Reg.STY_ID.DEV_ID : Fld := ⟨(.one 0x060), 0x040, 0, 1, 0, 4, .ro, .v, .num 0, .view .STY_ID_DEV_ID⟩
/-- R490, offset 0x040. -/
abbrev Reg.STY_ID.ROLE : Fld := ⟨(.one 0x060), 0x040, 0, 1, 4, 1, .ro, .v, .num 0, .view .STY_ID_ROLE⟩
/-- R490, offset 0x040. -/
abbrev Reg.STY_ID.LEVEL : Fld := ⟨(.one 0x060), 0x040, 0, 1, 8, 8, .ro, .v, .num 0, .view .STY_ID_LEVEL⟩
/-- R490, offset 0x044. -/
abbrev Reg.STY_CFG.TMO_US : Fld := ⟨(.one 0x060), 0x044, 0, 1, 0, 10, .rw, .n, .num 50, .stored⟩
/-- R490, offset 0x048. -/
abbrev Reg.STY_ATOM_STAT.RESULT : Fld := ⟨(.one 0x060), 0x048, 0, 1, 0, 3, .ro, .v, .num 0, .stored⟩
/-- R490, offset 0x048. -/
abbrev Reg.STY_ATOM_STAT.DEV : Fld := ⟨(.one 0x060), 0x048, 0, 1, 4, 4, .ro, .v, .num 0, .stored⟩
/-- R491, offset 0x04C. -/
abbrev Reg.STY_REM_ERR.ALL : Fld := ⟨(.one 0x060), 0x04C, 0, 1, 0, 31, .ro, .v, .num 0, .stored⟩
/-- R491, offset 0x04C. -/
abbrev Reg.STY_REM_ERR.VALID : Fld := ⟨(.one 0x060), 0x04C, 0, 1, 31, 1, .w1c, .v, .num 0, .stored⟩
/-- R492, offset 0x080. -/
abbrev Reg.STY_TOPO.VALID : Fld := ⟨(.one 0x060), 0x080, 4, 16, 0, 1, .rw, .n, .num 0, .stored⟩
/-- R492, offset 0x080. -/
abbrev Reg.STY_TOPO.PRI : Fld := ⟨(.one 0x060), 0x080, 4, 16, 1, 2, .rw, .n, .num 0, .stored⟩
/-- R492, offset 0x080. -/
abbrev Reg.STY_TOPO.ALT1_EN : Fld := ⟨(.one 0x060), 0x080, 4, 16, 3, 1, .rw, .n, .num 0, .stored⟩
/-- R492, offset 0x080. -/
abbrev Reg.STY_TOPO.ALT1 : Fld := ⟨(.one 0x060), 0x080, 4, 16, 4, 2, .rw, .n, .num 0, .stored⟩
/-- R492, offset 0x080. -/
abbrev Reg.STY_TOPO.ALT2_EN : Fld := ⟨(.one 0x060), 0x080, 4, 16, 6, 1, .rw, .n, .num 0, .stored⟩
/-- R492, offset 0x080. -/
abbrev Reg.STY_TOPO.ALT2 : Fld := ⟨(.one 0x060), 0x080, 4, 16, 7, 2, .rw, .n, .num 0, .stored⟩
/-- R492, offset 0x080. -/
abbrev Reg.STY_TOPO.INUSE : Fld := ⟨(.one 0x060), 0x080, 4, 16, 16, 2, .ro, .v, .num 0, .view .STY_TOPO_INUSE⟩
/-- R492, offset 0x080. -/
abbrev Reg.STY_TOPO.PATH : Fld := ⟨(.one 0x060), 0x080, 4, 16, 18, 2, .ro, .v, .num 0, .view .STY_TOPO_PATH⟩
/-- R492, offset 0x080. -/
abbrev Reg.STY_TOPO.REACH : Fld := ⟨(.one 0x060), 0x080, 4, 16, 20, 1, .ro, .v, .num 0, .view .STY_TOPO_REACH⟩
/-- R490, offset 0x0E0. -/
abbrev Reg.STY_SCRATCH.DATA : Fld := ⟨(.one 0x060), 0x0E0, 4, 4, 0, 32, .rw, .v, .num 0, .stored⟩
/-- R494, offset 0x100. -/
abbrev Reg.STY.REM_READS : Fld := ⟨(.one 0x060), 0x100, 0, 1, 0, 32, .ro, .v, .num 0, .stored⟩
/-- R494, offset 0x104. -/
abbrev Reg.STY.REM_WRITES : Fld := ⟨(.one 0x060), 0x104, 0, 1, 0, 32, .ro, .v, .num 0, .stored⟩
/-- R494, offset 0x108. -/
abbrev Reg.STY.REM_ERRORS : Fld := ⟨(.one 0x060), 0x108, 0, 1, 0, 32, .ro, .v, .num 0, .stored⟩
/-- R494, offset 0x10C. -/
abbrev Reg.STY.ATOM_OPS : Fld := ⟨(.one 0x060), 0x10C, 0, 1, 0, 32, .ro, .v, .num 0, .stored⟩
/-- R494, offset 0x110. -/
abbrev Reg.STY.ATOM_RETRIES : Fld := ⟨(.one 0x060), 0x110, 0, 1, 0, 32, .ro, .v, .num 0, .stored⟩
/-- R494, offset 0x114. -/
abbrev Reg.STY.CROSSINGS : Fld := ⟨(.one 0x060), 0x114, 0, 1, 0, 32, .ro, .v, .num 0, .stored⟩
/-- R494, offset 0x118. -/
abbrev Reg.STY.REROUTES : Fld := ⟨(.one 0x060), 0x118, 0, 1, 0, 32, .ro, .v, .num 0, .stored⟩
/-- R494, offset 0x11C. -/
abbrev Reg.STY.HOP_DISCARDS : Fld := ⟨(.one 0x060), 0x11C, 0, 1, 0, 32, .ro, .v, .num 0, .stored⟩
/-- R141, offset 0x040. -/
abbrev Reg.ETH_MODE.LANE : Fld := ⟨.ethB, 0x040, 0, 1, 0, 3, .rw, .n, .ethLane, .stored⟩
/-- R141, offset 0x040. -/
abbrev Reg.ETH_MODE.SPEED : Fld := ⟨.ethB, 0x040, 0, 1, 4, 2, .rw, .n, .ethSpeed, .stored⟩
/-- R147, offset 0x058. -/
abbrev Reg.ETH_FC_THR.XOFF : Fld := ⟨.ethB, 0x058, 0, 1, 0, 16, .rw, .n, .ethXoff, .stored⟩
/-- R147, offset 0x058. -/
abbrev Reg.ETH_FC_THR.XON : Fld := ⟨.ethB, 0x058, 0, 1, 16, 16, .rw, .n, .ethXon, .stored⟩
/-- R153, offset 0x078. -/
abbrev Reg.ETH_PREEMPT.EN : Fld := ⟨.ethB, 0x078, 0, 1, 0, 1, .rw, .n, .num 0, .stored⟩
/-- R153, offset 0x078. -/
abbrev Reg.ETH_PREEMPT.VERIFY_DIS : Fld := ⟨.ethB, 0x078, 0, 1, 1, 1, .rw, .n, .num 0, .stored⟩
/-- R153, offset 0x078. -/
abbrev Reg.ETH_PREEMPT.ADD_FRAG : Fld := ⟨.ethB, 0x078, 0, 1, 2, 2, .rw, .n, .num 0, .stored⟩
/-- R153, offset 0x078. -/
abbrev Reg.ETH_PREEMPT.EXPRESS : Fld := ⟨.ethB, 0x078, 0, 1, 8, 8, .rw, .n, .num 0x80, .stored⟩
/-- R153, offset 0x078. -/
abbrev Reg.ETH_PREEMPT.VERIFY_STAT : Fld := ⟨.ethB, 0x078, 0, 1, 16, 2, .ro, .v, .num 3, .view .ETH_PREEMPT_VERIFY_STAT⟩
/-- R153, offset 0x078. -/
abbrev Reg.ETH_PREEMPT.VERIFY_MS : Fld := ⟨.ethB, 0x078, 0, 1, 24, 8, .rw, .n, .num 10, .stored⟩
/-- R141, offset 0x040. -/
abbrev Reg.ETH_MODE.LANE_ethS : Fld := ⟨.ethS, 0x040, 0, 1, 0, 3, .ro, .n, .ethLane, .stored⟩
/-- R141, offset 0x040. -/
abbrev Reg.ETH_MODE.LANE_ethI : Fld := ⟨.ethI, 0x040, 0, 1, 0, 3, .ro, .n, .ethLane, .stored⟩
/-- R141, offset 0x040. -/
abbrev Reg.ETH_MODE.SPEED_ethnB : Fld := ⟨.ethnB, 0x040, 0, 1, 4, 2, .ro, .n, .ethSpeed, .stored⟩
/-- R147, offset 0x058. -/
abbrev Reg.ETH_FC_THR.XOFF_ethnB : Fld := ⟨.ethnB, 0x058, 0, 1, 0, 16, .rw, .n, .ethXoff, .stored⟩
/-- R147, offset 0x058. -/
abbrev Reg.ETH_FC_THR.XON_ethnB : Fld := ⟨.ethnB, 0x058, 0, 1, 16, 16, .rw, .n, .ethXon, .stored⟩
/-- R141, offset 0x040. -/
abbrev Reg.ETH_MODE.T1_ROLE : Fld := ⟨.ethT, 0x040, 0, 1, 8, 1, .rw, .n, .num 0, .stored⟩
/-- R155, offset 0x088. -/
abbrev Reg.ETH_T1_CFG.TC10_EN : Fld := ⟨.ethT, 0x088, 0, 1, 0, 1, .rw, .n, .num 0, .stored⟩
/-- R155, offset 0x088. -/
abbrev Reg.ETH_T1_CFG.SLEEP_REQ : Fld := ⟨.ethT, 0x088, 0, 1, 1, 1, .rws, .v, .num 0, .stored⟩
/-- R155, offset 0x088. -/
abbrev Reg.ETH_T1_CFG.WAKE_REQ : Fld := ⟨.ethT, 0x088, 0, 1, 2, 1, .rws, .v, .num 0, .stored⟩
/-- R155, offset 0x088. -/
abbrev Reg.ETH_T1_CFG.TC10_STAT : Fld := ⟨.ethT, 0x088, 0, 1, 4, 2, .ro, .a, .num 0, .stored⟩
/-- R155, offset 0x088. -/
abbrev Reg.ETH_T1_CFG.DIAG_START : Fld := ⟨.ethT, 0x088, 0, 1, 8, 1, .rws, .v, .num 0, .stored⟩
/-- R155, offset 0x088. -/
abbrev Reg.ETH_T1_CFG.DIAG_RES : Fld := ⟨.ethT, 0x088, 0, 1, 10, 2, .ro, .v, .num 3, .stored⟩
/-- R155, offset 0x088. -/
abbrev Reg.ETH_T1_CFG.DIAG_DIST : Fld := ⟨.ethT, 0x088, 0, 1, 16, 8, .ro, .v, .num 0, .stored⟩
/-- R142, offset 0x044. -/
abbrev Reg.ETH_MAXLEN.MAXLEN : Fld := ⟨.eth, 0x044, 0, 1, 0, 14, .rw, .n, .num 1536, .stored⟩
/-- R143, offset 0x048. -/
abbrev Reg.ETH_RX_DEFAULT.TALKER : Fld := ⟨.eth, 0x048, 0, 1, 0, 14, .rw, .n, .num 0, .stored⟩
/-- R143, offset 0x048. -/
abbrev Reg.ETH_RX_DEFAULT.QUEUE : Fld := ⟨.eth, 0x048, 0, 1, 16, 3, .rw, .n, .num 0, .stored⟩
/-- R143, offset 0x048. -/
abbrev Reg.ETH_RX_DEFAULT.CLASS : Fld := ⟨.eth, 0x048, 0, 1, 19, 3, .rw, .n, .num 0, .stored⟩
/-- R143, offset 0x048. -/
abbrev Reg.ETH_RX_DEFAULT.DISCARD : Fld := ⟨.eth, 0x048, 0, 1, 22, 1, .rw, .n, .num 1, .stored⟩
/-- R143, offset 0x048. -/
abbrev Reg.ETH_RX_DEFAULT.DEF_PCP : Fld := ⟨.eth, 0x048, 0, 1, 24, 3, .rw, .n, .num 0, .stored⟩
/-- R144, offset 0x04C. -/
abbrev Reg.ETH_TX_TAG.VID : Fld := ⟨.eth, 0x04C, 0, 1, 0, 12, .rw, .n, .num 0, .stored⟩
/-- R144, offset 0x04C. -/
abbrev Reg.ETH_TX_TAG.TAGMODE : Fld := ⟨.eth, 0x04C, 0, 1, 12, 2, .rw, .n, .num 0, .stored⟩
/-- R145, offset 0x050. -/
abbrev Reg.ETH_TX_PCPMAP.PCP : Fld := ⟨.eth, 0x050, 0, 1, 0, 24, .rw, .n, .num 0xFAC688, .stored⟩
/-- R146, offset 0x054. -/
abbrev Reg.ETH_FC_CFG.RX_EN : Fld := ⟨.eth, 0x054, 0, 1, 0, 1, .rw, .n, .num 1, .stored⟩
/-- R146, offset 0x054. -/
abbrev Reg.ETH_FC_CFG.PFC_EN : Fld := ⟨.eth, 0x054, 0, 1, 8, 8, .rw, .n, .num 0xFF, .stored⟩
/-- R146, offset 0x054. -/
abbrev Reg.ETH_FC_CFG.QUANTA : Fld := ⟨.eth, 0x054, 0, 1, 16, 16, .rw, .n, .num 0xFFFF, .stored⟩
/-- R148, offset 0x05C. -/
abbrev Reg.ETH_FC_STAT.RX_PAUSED : Fld := ⟨.eth, 0x05C, 0, 1, 0, 8, .ro, .v, .num 0, .view .ETH_FC_STAT_RX_PAUSED⟩
/-- R148, offset 0x05C. -/
abbrev Reg.ETH_FC_STAT.TX_XOFF : Fld := ⟨.eth, 0x05C, 0, 1, 16, 8, .ro, .v, .num 0, .view .ETH_FC_STAT_TX_XOFF⟩
/-- R148, offset 0x05C. -/
abbrev Reg.ETH_FC_STAT.TX_XOFF_ALL : Fld := ⟨.eth, 0x05C, 0, 1, 24, 1, .ro, .v, .num 0, .view .ETH_FC_STAT_TX_XOFF_ALL⟩
/-- R149, offset 0x060. -/
abbrev Reg.ETH_HOLD.HOLD_US : Fld := ⟨.eth, 0x060, 0, 1, 0, 17, .rw, .n, .num 2000, .stored⟩
/-- R150, offset 0x064. -/
abbrev Reg.ETH_LINK_STAT.STATE : Fld := ⟨.eth, 0x064, 0, 1, 0, 2, .ro, .v, .num 0, .view .ETH_LINK_STAT_STATE⟩
/-- R150, offset 0x064. -/
abbrev Reg.ETH_LINK_STAT.PCS_LOCK : Fld := ⟨.eth, 0x064, 0, 1, 2, 1, .ro, .v, .num 0, .view .ETH_LINK_STAT_PCS_LOCK⟩
/-- R150, offset 0x064. -/
abbrev Reg.ETH_LINK_STAT.CFG_ERR : Fld := ⟨.eth, 0x064, 0, 1, 3, 1, .ro, .v, .num 0, .view .ETH_LINK_STAT_CFG_ERR⟩
/-- R150, offset 0x064. -/
abbrev Reg.ETH_LINK_STAT.SPD_MISMATCH : Fld := ⟨.eth, 0x064, 0, 1, 4, 1, .ro, .v, .num 0, .view .ETH_LINK_STAT_SPD_MISMATCH⟩
/-- R150, offset 0x064. -/
abbrev Reg.ETH_LINK_STAT.PREEMPT_ACTIVE : Fld := ⟨.eth, 0x064, 0, 1, 5, 1, .ro, .v, .num 0, .view .ETH_LINK_STAT_PREEMPT_ACTIVE⟩
/-- R150, offset 0x064. -/
abbrev Reg.ETH_LINK_STAT.HOLD_LEFT : Fld := ⟨.eth, 0x064, 0, 1, 15, 17, .ro, .v, .num 0, .view .ETH_LINK_STAT_HOLD_LEFT⟩
/-- R151, offset 0x068. -/
abbrev Reg.ETH_SRC_MAC_LO.A : Fld := ⟨.eth, 0x068, 0, 1, 0, 32, .rw, .n, .num 0, .stored⟩
/-- R151, offset 0x06C. -/
abbrev Reg.ETH_SRC_MAC_HI.A : Fld := ⟨.eth, 0x06C, 0, 1, 0, 16, .rw, .n, .num 0, .stored⟩
/-- R152, offset 0x070. -/
abbrev Reg.ETH_CTR_HALF_LO.H : Fld := ⟨.eth, 0x070, 0, 1, 0, 32, .w1c, .v, .num 0, .stored⟩
/-- R152, offset 0x074. -/
abbrev Reg.ETH_CTR_HALF_HI.H : Fld := ⟨.eth, 0x074, 0, 1, 0, 16, .w1c, .v, .num 0, .stored⟩
/-- R139, offset 0x100. -/
abbrev Reg.ETH_CTR.N : Fld := ⟨.eth, 0x100, 4, 48, 0, 32, .ro, .v, .num 0, .stored⟩
/-- R146, offset 0x054. -/
abbrev Reg.ETH_FC_CFG.TX_MODE : Fld := ⟨.ethnM, 0x054, 0, 1, 1, 2, .rw, .n, .ethTxMode, .stored⟩
/-- R146, offset 0x054. -/
abbrev Reg.ETH_FC_CFG.TX_MODE_ethM : Fld := ⟨.ethM, 0x054, 0, 1, 1, 2, .rw, .n, .ethTxMode, .stored⟩
/-- R154, offset 0x080. -/
abbrev Reg.ETH_MD_CFG.PLCA_EN : Fld := ⟨.ethM, 0x080, 0, 1, 0, 1, .rw, .n, .num 0, .stored⟩
/-- R154, offset 0x080. -/
abbrev Reg.ETH_MD_CFG.NODE_ID : Fld := ⟨.ethM, 0x080, 0, 1, 8, 8, .rw, .n, .num 0xFF, .stored⟩
/-- R154, offset 0x080. -/
abbrev Reg.ETH_MD_CFG.NODE_CNT : Fld := ⟨.ethM, 0x080, 0, 1, 16, 8, .rw, .n, .num 8, .stored⟩
/-- R154, offset 0x080. -/
abbrev Reg.ETH_MD_CFG.TO_TMR : Fld := ⟨.ethM, 0x080, 0, 1, 24, 8, .rw, .n, .num 32, .stored⟩
/-- R154, offset 0x084. -/
abbrev Reg.ETH_MD_BURST.BURST_CNT : Fld := ⟨.ethM, 0x084, 0, 1, 0, 8, .rw, .n, .num 0, .stored⟩
/-- R154, offset 0x084. -/
abbrev Reg.ETH_MD_BURST.BURST_TMR : Fld := ⟨.ethM, 0x084, 0, 1, 8, 8, .rw, .n, .num 128, .stored⟩
/-- R154, offset 0x084. -/
abbrev Reg.ETH_MD_BURST.BEACON_SEEN : Fld := ⟨.ethM, 0x084, 0, 1, 16, 1, .ro, .v, .num 0, .view .ETH_MD_BURST_BEACON_SEEN⟩
/-- R156, offset 0x040. -/
abbrev Reg.ETH_CB_CFG.EN : Fld := ⟨(.one 0x08F), 0x040, 4, 2, 0, 1, .rw, .n, .num 0, .stored⟩
/-- R156, offset 0x040. -/
abbrev Reg.ETH_CB_CFG.HIST_LEN : Fld := ⟨(.one 0x08F), 0x040, 4, 2, 8, 7, .rw, .n, .num 32, .stored⟩
/-- R156, offset 0x040. -/
abbrev Reg.ETH_CB_CFG.RESET_MS : Fld := ⟨(.one 0x08F), 0x040, 4, 2, 16, 8, .rw, .n, .num 10, .stored⟩
/-- R156, offset 0x100. -/
abbrev Reg.ETH_CB_STREAM.TALKER : Fld := ⟨(.one 0x08F), 0x100, 4, 128, 0, 14, .rw, .n, .num 0, .stored⟩
/-- R156, offset 0x100. -/
abbrev Reg.ETH_CB_STREAM.GEN : Fld := ⟨(.one 0x08F), 0x100, 4, 128, 14, 1, .rw, .n, .num 0, .stored⟩
/-- R156, offset 0x100. -/
abbrev Reg.ETH_CB_STREAM.ELIM : Fld := ⟨(.one 0x08F), 0x100, 4, 128, 15, 1, .rw, .n, .num 0, .stored⟩
/-- R156, offset 0x100. -/
abbrev Reg.ETH_CB_STREAM.GEN_SEQ : Fld := ⟨(.one 0x08F), 0x100, 4, 128, 16, 16, .rw, .v, .num 0, .stored⟩
/-- R196, offset 0x040. -/
abbrev Reg.CAN_CTRL.MODE : Fld := ⟨.can, 0x040, 0, 1, 0, 2, .rw, .n, .num 0, .stored⟩
/-- R196, offset 0x040. -/
abbrev Reg.CAN_CTRL.AUTO_RECOV : Fld := ⟨.can, 0x040, 0, 1, 2, 1, .rw, .n, .num 1, .stored⟩
/-- R196, offset 0x040. -/
abbrev Reg.CAN_CTRL.SELF_RX : Fld := ⟨.can, 0x040, 0, 1, 3, 1, .rw, .n, .num 0, .stored⟩
/-- R196, offset 0x040. -/
abbrev Reg.CAN_CTRL.HOLD_MS : Fld := ⟨.can, 0x040, 0, 1, 8, 8, .rw, .n, .num 2, .stored⟩
/-- R197, offset 0x044. -/
abbrev Reg.CAN_NBT.BRP : Fld := ⟨.can, 0x044, 0, 1, 0, 5, .rw, .n, .num 0, .stored⟩
/-- R197, offset 0x044. -/
abbrev Reg.CAN_NBT.TSEG1 : Fld := ⟨.can, 0x044, 0, 1, 8, 8, .rw, .n, .num 0x7E, .stored⟩
/-- R197, offset 0x044. -/
abbrev Reg.CAN_NBT.TSEG2 : Fld := ⟨.can, 0x044, 0, 1, 16, 7, .rw, .n, .num 0x1F, .stored⟩
/-- R197, offset 0x044. -/
abbrev Reg.CAN_NBT.SJW : Fld := ⟨.can, 0x044, 0, 1, 24, 7, .rw, .n, .num 0x1F, .stored⟩
/-- R197, offset 0x048. -/
abbrev Reg.CAN_DBT.BRP : Fld := ⟨.can, 0x048, 0, 1, 0, 5, .rw, .n, .num 0, .stored⟩
/-- R197, offset 0x048. -/
abbrev Reg.CAN_DBT.TSEG1 : Fld := ⟨.can, 0x048, 0, 1, 8, 5, .rw, .n, .num 0x1C, .stored⟩
/-- R197, offset 0x048. -/
abbrev Reg.CAN_DBT.TSEG2 : Fld := ⟨.can, 0x048, 0, 1, 16, 4, .rw, .n, .num 0x9, .stored⟩
/-- R197, offset 0x048. -/
abbrev Reg.CAN_DBT.SJW : Fld := ⟨.can, 0x048, 0, 1, 24, 4, .rw, .n, .num 0x9, .stored⟩
/-- R197, offset 0x048. -/
abbrev Reg.CAN_DBT.TDC_EN : Fld := ⟨.can, 0x048, 0, 1, 31, 1, .rw, .n, .num 1, .stored⟩
/-- spec/05_fieldbus_talkers.md, registers, offset 0x050. -/
abbrev Reg.CAN_TDC.TDCO : Fld := ⟨.can, 0x050, 0, 1, 0, 7, .rw, .n, .num 30, .stored⟩
/-- spec/05_fieldbus_talkers.md, registers, offset 0x054. -/
abbrev Reg.CAN_RX_DEFAULT.TALKER : Fld := ⟨.can, 0x054, 0, 1, 0, 14, .rw, .n, .num 0, .stored⟩
/-- spec/05_fieldbus_talkers.md, registers, offset 0x054. -/
abbrev Reg.CAN_RX_DEFAULT.CLASS : Fld := ⟨.can, 0x054, 0, 1, 16, 3, .rw, .n, .num 0, .stored⟩
/-- spec/05_fieldbus_talkers.md, registers, offset 0x054. -/
abbrev Reg.CAN_RX_DEFAULT.DISCARD : Fld := ⟨.can, 0x054, 0, 1, 19, 1, .rw, .n, .num 1, .stored⟩
/-- R198, offset 0x058. -/
abbrev Reg.CAN_STAT.TEC : Fld := ⟨.can, 0x058, 0, 1, 0, 8, .ro, .v, .num 0, .view .CAN_STAT_TEC⟩
/-- R198, offset 0x058. -/
abbrev Reg.CAN_STAT.REC : Fld := ⟨.can, 0x058, 0, 1, 8, 8, .ro, .v, .num 0, .view .CAN_STAT_REC⟩
/-- R198, offset 0x058. -/
abbrev Reg.CAN_STAT.STATE : Fld := ⟨.can, 0x058, 0, 1, 16, 2, .ro, .v, .num 3, .view .CAN_STAT_STATE⟩
/-- R198, offset 0x058. -/
abbrev Reg.CAN_STAT.HOLDING : Fld := ⟨.can, 0x058, 0, 1, 18, 1, .ro, .v, .num 0, .view .CAN_STAT_HOLDING⟩
/-- R198, offset 0x058. -/
abbrev Reg.CAN_STAT.CFG_ERR : Fld := ⟨.can, 0x058, 0, 1, 19, 1, .ro, .v, .num 0, .view .CAN_STAT_CFG_ERR⟩
/-- R198, offset 0x058. -/
abbrev Reg.CAN_STAT.RECOVER : Fld := ⟨.can, 0x058, 0, 1, 20, 1, .rws, .v, .num 0, .view .CAN_STAT_RECOVER⟩
/-- R198, offset 0x058. -/
abbrev Reg.CAN_STAT.TX_USED : Fld := ⟨.can, 0x058, 0, 1, 24, 7, .ro, .v, .num 0, .view .CAN_STAT_TX_USED⟩
/-- spec/05_fieldbus_talkers.md, registers, offset 0x060. -/
abbrev Reg.CAN_MRAM_SEL.SLOT : Fld := ⟨.can, 0x060, 0, 1, 0, 7, .rw, .v, .num 0, .stored⟩
/-- spec/05_fieldbus_talkers.md, registers, offset 0x060. -/
abbrev Reg.CAN_MRAM_SEL.WORD : Fld := ⟨.can, 0x060, 0, 1, 8, 6, .rw, .v, .num 0, .stored⟩
/-- spec/05_fieldbus_talkers.md, registers, offset 0x064. -/
abbrev Reg.CAN_MRAM_DATA.WORD : Fld := ⟨.can, 0x064, 0, 1, 0, 18, .ro, .v, .num 0, .view .CAN_MRAM_DATA_WORD⟩
/-- spec/05_fieldbus_talkers.md, registers, offset 0x100. -/
abbrev Reg.CAN.RX_OK : Fld := ⟨.can, 0x100, 0, 1, 0, 32, .ro, .v, .num 0, .stored⟩
/-- spec/05_fieldbus_talkers.md, registers, offset 0x104. -/
abbrev Reg.CAN.TX_OK : Fld := ⟨.can, 0x104, 0, 1, 0, 32, .ro, .v, .num 0, .stored⟩
/-- spec/05_fieldbus_talkers.md, registers, offset 0x108. -/
abbrev Reg.CAN.RX_FILTERED : Fld := ⟨.can, 0x108, 0, 1, 0, 32, .ro, .v, .num 0, .stored⟩
/-- spec/05_fieldbus_talkers.md, registers, offset 0x10C. -/
abbrev Reg.CAN.RX_OVERRUN : Fld := ⟨.can, 0x10C, 0, 1, 0, 32, .ro, .v, .num 0, .stored⟩
/-- spec/05_fieldbus_talkers.md, registers, offset 0x110. -/
abbrev Reg.CAN.ERR_FRAMES : Fld := ⟨.can, 0x110, 0, 1, 0, 32, .ro, .v, .num 0, .stored⟩
/-- spec/05_fieldbus_talkers.md, registers, offset 0x114. -/
abbrev Reg.CAN.ARB_LOST : Fld := ⟨.can, 0x114, 0, 1, 0, 32, .ro, .v, .num 0, .stored⟩
/-- spec/05_fieldbus_talkers.md, registers, offset 0x118. -/
abbrev Reg.CAN.BUSOFF_EVENTS : Fld := ⟨.can, 0x118, 0, 1, 0, 32, .ro, .v, .num 0, .stored⟩
/-- R165, offset 0x800. -/
abbrev Reg.CAN_FLT_D0.ALL : Fld := ⟨.can, 0x800, 16, 32, 0, 32, .rw, .n, .num 0, .stored⟩
/-- R165, offset 0x804. -/
abbrev Reg.CAN_FLT_D1.MASK : Fld := ⟨.can, 0x804, 16, 32, 0, 29, .rw, .n, .num 0, .stored⟩
/-- R165, offset 0x808. -/
abbrev Reg.CAN_FLT_D2.TALKER : Fld := ⟨.can, 0x808, 16, 32, 0, 14, .rw, .n, .num 0, .stored⟩
/-- R165, offset 0x808. -/
abbrev Reg.CAN_FLT_D2.CLASS : Fld := ⟨.can, 0x808, 16, 32, 16, 3, .rw, .n, .num 0, .stored⟩
/-- R165, offset 0x808. -/
abbrev Reg.CAN_FLT_D2.DISCARD : Fld := ⟨.can, 0x808, 16, 32, 19, 1, .rw, .n, .num 0, .stored⟩
/-- R196, offset 0x040. -/
abbrev Reg.CAN_CTRL.XLM_EN : Fld := ⟨.canX, 0x040, 0, 1, 4, 1, .rw, .n, .num 0, .stored⟩
/-- R197, offset 0x04C. -/
abbrev Reg.CAN_XBT.BRP : Fld := ⟨.canX, 0x04C, 0, 1, 0, 5, .rw, .n, .num 0, .stored⟩
/-- R197, offset 0x04C. -/
abbrev Reg.CAN_XBT.TSEG1 : Fld := ⟨.canX, 0x04C, 0, 1, 8, 5, .rw, .n, .num 0x1C, .stored⟩
/-- R197, offset 0x04C. -/
abbrev Reg.CAN_XBT.TSEG2 : Fld := ⟨.canX, 0x04C, 0, 1, 16, 4, .rw, .n, .num 0x9, .stored⟩
/-- R197, offset 0x04C. -/
abbrev Reg.CAN_XBT.SJW : Fld := ⟨.canX, 0x04C, 0, 1, 24, 4, .rw, .n, .num 0x9, .stored⟩
/-- R197, offset 0x04C. -/
abbrev Reg.CAN_XBT.TDC_EN : Fld := ⟨.canX, 0x04C, 0, 1, 31, 1, .rw, .n, .num 1, .stored⟩
/-- spec/05_fieldbus_talkers.md, registers, offset 0x040. -/
abbrev Reg.LIN_CTRL.ROLE : Fld := ⟨.lin, 0x040, 0, 1, 0, 1, .rw, .n, .num 0, .stored⟩
/-- spec/05_fieldbus_talkers.md, registers, offset 0x040. -/
abbrev Reg.LIN_CTRL.RUN : Fld := ⟨.lin, 0x040, 0, 1, 1, 1, .rw, .n, .num 0, .stored⟩
/-- spec/05_fieldbus_talkers.md, registers, offset 0x044. -/
abbrev Reg.LIN_BAUD.BAUD : Fld := ⟨.lin, 0x044, 0, 1, 0, 15, .rw, .n, .num 19200, .stored⟩
/-- spec/05_fieldbus_talkers.md, registers, offset 0x048. -/
abbrev Reg.LIN_SCHED.START : Fld := ⟨.lin, 0x048, 0, 1, 0, 6, .rw, .n, .num 0, .stored⟩
/-- spec/05_fieldbus_talkers.md, registers, offset 0x048. -/
abbrev Reg.LIN_SCHED.END : Fld := ⟨.lin, 0x048, 0, 1, 8, 6, .rw, .n, .num 0, .stored⟩
/-- spec/05_fieldbus_talkers.md, registers, offset 0x048. -/
abbrev Reg.LIN_SCHED.SWITCH : Fld := ⟨.lin, 0x048, 0, 1, 16, 1, .rws, .v, .num 0, .view .LIN_SCHED_SWITCH⟩
/-- spec/05_fieldbus_talkers.md, registers, offset 0x048. -/
abbrev Reg.LIN_SCHED.CUR : Fld := ⟨.lin, 0x048, 0, 1, 24, 6, .ro, .v, .num 0, .view .LIN_SCHED_CUR⟩
/-- spec/05_fieldbus_talkers.md, registers, offset 0x080. -/
abbrev Reg.LIN.CK_ERR : Fld := ⟨.lin, 0x080, 0, 1, 0, 32, .ro, .v, .num 0, .stored⟩
/-- spec/05_fieldbus_talkers.md, registers, offset 0x084. -/
abbrev Reg.LIN.NO_RESP : Fld := ⟨.lin, 0x084, 0, 1, 0, 32, .ro, .v, .num 0, .stored⟩
/-- spec/05_fieldbus_talkers.md, registers, offset 0x088. -/
abbrev Reg.LIN.LIN_OVERWRITE : Fld := ⟨.lin, 0x088, 0, 1, 0, 32, .ro, .v, .num 0, .stored⟩
/-- spec/05_fieldbus_talkers.md, registers, offset 0x08C. -/
abbrev Reg.LIN.LIN_SKIPPED : Fld := ⟨.lin, 0x08C, 0, 1, 0, 32, .ro, .v, .num 0, .stored⟩
/-- R174, offset 0x100. -/
abbrev Reg.LIN_FRM_D0.LO : Fld := ⟨.lin, 0x100, 8, 64, 0, 13, .rw, .n, .num 0, .stored⟩
/-- R174, offset 0x100. -/
abbrev Reg.LIN_FRM_D0.HI : Fld := ⟨.lin, 0x100, 8, 64, 15, 16, .rw, .n, .num 0, .stored⟩
/-- R174, offset 0x104. -/
abbrev Reg.LIN_FRM_D1.TALKER : Fld := ⟨.lin, 0x104, 8, 64, 0, 14, .rw, .n, .num 0, .stored⟩
/-- R174, offset 0x104. -/
abbrev Reg.LIN_FRM_D1.CLASS : Fld := ⟨.lin, 0x104, 8, 64, 16, 3, .rw, .n, .num 0, .stored⟩
/-- R199, offset 0x040. -/
abbrev Reg.UAR_CFG.MODE : Fld := ⟨.uar, 0x040, 0, 1, 0, 2, .rw, .n, .num 0, .stored⟩
/-- R199, offset 0x040. -/
abbrev Reg.UAR_CFG.FORMAT : Fld := ⟨.uar, 0x040, 0, 1, 2, 2, .rw, .n, .num 0, .stored⟩
/-- R199, offset 0x040. -/
abbrev Reg.UAR_CFG.STOP2 : Fld := ⟨.uar, 0x040, 0, 1, 4, 1, .rw, .n, .num 0, .stored⟩
/-- R199, offset 0x040. -/
abbrev Reg.UAR_CFG.MAXLEN : Fld := ⟨.uar, 0x040, 0, 1, 16, 11, .rw, .n, .num 82, .stored⟩
/-- spec/05_fieldbus_talkers.md, registers, offset 0x044. -/
abbrev Reg.UAR_BAUD.FRAC : Fld := ⟨.uar, 0x044, 0, 1, 0, 4, .rw, .n, .num 2, .stored⟩
/-- spec/05_fieldbus_talkers.md, registers, offset 0x044. -/
abbrev Reg.UAR_BAUD.INT : Fld := ⟨.uar, 0x044, 0, 1, 4, 16, .rw, .n, .num 78, .stored⟩
/-- spec/05_fieldbus_talkers.md, registers, offset 0x048. -/
abbrev Reg.UAR_NMEA.CK_REQ : Fld := ⟨.uar, 0x048, 0, 1, 0, 1, .rw, .n, .num 1, .stored⟩
/-- spec/05_fieldbus_talkers.md, registers, offset 0x048. -/
abbrev Reg.UAR_NMEA.TX_CK : Fld := ⟨.uar, 0x048, 0, 1, 1, 1, .rw, .n, .num 0, .stored⟩
/-- spec/05_fieldbus_talkers.md, registers, offset 0x04C. -/
abbrev Reg.UAR_GEN.START : Fld := ⟨.uar, 0x04C, 0, 1, 0, 8, .rw, .n, .num 0, .stored⟩
/-- spec/05_fieldbus_talkers.md, registers, offset 0x04C. -/
abbrev Reg.UAR_GEN.START_EN : Fld := ⟨.uar, 0x04C, 0, 1, 8, 1, .rw, .n, .num 0, .stored⟩
/-- spec/05_fieldbus_talkers.md, registers, offset 0x04C. -/
abbrev Reg.UAR_GEN.END : Fld := ⟨.uar, 0x04C, 0, 1, 16, 8, .rw, .n, .num 0, .stored⟩
/-- spec/05_fieldbus_talkers.md, registers, offset 0x04C. -/
abbrev Reg.UAR_GEN.END_EN : Fld := ⟨.uar, 0x04C, 0, 1, 24, 1, .rw, .n, .num 0, .stored⟩
/-- spec/05_fieldbus_talkers.md, registers, offset 0x04C. -/
abbrev Reg.UAR_GEN.IDLE : Fld := ⟨.uar, 0x04C, 0, 1, 28, 4, .rw, .n, .num 0, .stored⟩
/-- spec/05_fieldbus_talkers.md, registers, offset 0x050. -/
abbrev Reg.UAR_DEFAULT.TALKER : Fld := ⟨.uar, 0x050, 0, 1, 0, 14, .rw, .n, .num 0, .stored⟩
/-- spec/05_fieldbus_talkers.md, registers, offset 0x050. -/
abbrev Reg.UAR_DEFAULT.CLASS : Fld := ⟨.uar, 0x050, 0, 1, 16, 3, .rw, .n, .num 0, .stored⟩
/-- spec/05_fieldbus_talkers.md, registers, offset 0x050. -/
abbrev Reg.UAR_DEFAULT.DISCARD : Fld := ⟨.uar, 0x050, 0, 1, 19, 1, .rw, .n, .num 1, .stored⟩
/-- spec/05_fieldbus_talkers.md, registers, offset 0x080. -/
abbrev Reg.UAR.RX_SENT : Fld := ⟨.uar, 0x080, 0, 1, 0, 32, .ro, .v, .num 0, .stored⟩
/-- spec/05_fieldbus_talkers.md, registers, offset 0x084. -/
abbrev Reg.UAR.RX_CK_ERR : Fld := ⟨.uar, 0x084, 0, 1, 0, 32, .ro, .v, .num 0, .stored⟩
/-- spec/05_fieldbus_talkers.md, registers, offset 0x088. -/
abbrev Reg.UAR.RX_BADCHAR : Fld := ⟨.uar, 0x088, 0, 1, 0, 32, .ro, .v, .num 0, .stored⟩
/-- spec/05_fieldbus_talkers.md, registers, offset 0x08C. -/
abbrev Reg.UAR.RX_RESTART : Fld := ⟨.uar, 0x08C, 0, 1, 0, 32, .ro, .v, .num 0, .stored⟩
/-- spec/05_fieldbus_talkers.md, registers, offset 0x090. -/
abbrev Reg.UAR.RX_TOOLONG : Fld := ⟨.uar, 0x090, 0, 1, 0, 32, .ro, .v, .num 0, .stored⟩
/-- spec/05_fieldbus_talkers.md, registers, offset 0x094. -/
abbrev Reg.UAR.RX_OVERRUN : Fld := ⟨.uar, 0x094, 0, 1, 0, 32, .ro, .v, .num 0, .stored⟩
/-- spec/05_fieldbus_talkers.md, registers, offset 0x098. -/
abbrev Reg.UAR.RX_FILTERED : Fld := ⟨.uar, 0x098, 0, 1, 0, 32, .ro, .v, .num 0, .stored⟩
/-- spec/05_fieldbus_talkers.md, registers, offset 0x09C. -/
abbrev Reg.UAR.TX_SENT : Fld := ⟨.uar, 0x09C, 0, 1, 0, 32, .ro, .v, .num 0, .stored⟩
/-- R183, offset 0x100. -/
abbrev Reg.UAR_ADR_D0.CHARS : Fld := ⟨.uar, 0x100, 8, 32, 0, 32, .rw, .n, .num 0, .stored⟩
/-- R183, offset 0x104. -/
abbrev Reg.UAR_ADR_D1.LO : Fld := ⟨.uar, 0x104, 8, 32, 0, 13, .rw, .n, .num 0, .stored⟩
/-- R183, offset 0x104. -/
abbrev Reg.UAR_ADR_D1.TALKER : Fld := ⟨.uar, 0x104, 8, 32, 16, 14, .rw, .n, .num 0, .stored⟩
/-- spec/05_fieldbus_talkers.md, registers, offset 0x040. -/
abbrev Reg.SPI_CFG.DIV : Fld := ⟨.spi, 0x040, 0, 1, 0, 8, .rw, .n, .num 4, .stored⟩
/-- spec/05_fieldbus_talkers.md, registers, offset 0x040. -/
abbrev Reg.SPI_CFG.RUN : Fld := ⟨.spi, 0x040, 0, 1, 16, 1, .rw, .n, .num 0, .stored⟩
/-- R187, offset 0x804. -/
abbrev Reg.POLL_D1.CSMODE : Fld := ⟨.spi, 0x804, 32, 32, 0, 4, .rw, .n, .num 0, .stored⟩
/-- spec/05_fieldbus_talkers.md, registers, offset 0x040. -/
abbrev Reg.I2C_CFG.SPEED : Fld := ⟨.i2c, 0x040, 0, 1, 0, 2, .rw, .n, .num 1, .stored⟩
/-- spec/05_fieldbus_talkers.md, registers, offset 0x040. -/
abbrev Reg.I2C_CFG.STRETCH_MS : Fld := ⟨.i2c, 0x040, 0, 1, 8, 8, .rw, .n, .num 25, .stored⟩
/-- spec/05_fieldbus_talkers.md, registers, offset 0x040. -/
abbrev Reg.I2C_CFG.RUN : Fld := ⟨.i2c, 0x040, 0, 1, 16, 1, .rw, .n, .num 0, .stored⟩
/-- R187, offset 0x804. -/
abbrev Reg.POLL_D1.ADDR : Fld := ⟨.i2c, 0x804, 32, 32, 0, 7, .rw, .n, .num 0, .stored⟩
/-- spec/05_fieldbus_talkers.md, registers, offset 0x080. -/
abbrev Reg.POLL.POLLS_OK : Fld := ⟨.poll, 0x080, 0, 1, 0, 32, .ro, .v, .num 0, .stored⟩
/-- spec/05_fieldbus_talkers.md, registers, offset 0x084. -/
abbrev Reg.POLL.POLL_OVERRUN : Fld := ⟨.poll, 0x084, 0, 1, 0, 32, .ro, .v, .num 0, .stored⟩
/-- spec/05_fieldbus_talkers.md, registers, offset 0x088. -/
abbrev Reg.POLL.NACK : Fld := ⟨.poll, 0x088, 0, 1, 0, 32, .ro, .v, .num 0, .stored⟩
/-- spec/05_fieldbus_talkers.md, registers, offset 0x08C. -/
abbrev Reg.POLL.TIMEOUT : Fld := ⟨.poll, 0x08C, 0, 1, 0, 32, .ro, .v, .num 0, .stored⟩
/-- R187, offset 0x800. -/
abbrev Reg.POLL_D0.TALKER : Fld := ⟨.poll, 0x800, 32, 32, 0, 14, .rw, .n, .num 0, .stored⟩
/-- R187, offset 0x800. -/
abbrev Reg.POLL_D0.CLASS : Fld := ⟨.poll, 0x800, 32, 32, 16, 3, .rw, .n, .num 0, .stored⟩
/-- R187, offset 0x800. -/
abbrev Reg.POLL_D0.CHG_ONLY : Fld := ⟨.poll, 0x800, 32, 32, 19, 1, .rw, .n, .num 0, .stored⟩
/-- R187, offset 0x800. -/
abbrev Reg.POLL_D0.VALID : Fld := ⟨.poll, 0x800, 32, 32, 31, 1, .rw, .n, .num 0, .stored⟩
/-- R187, offset 0x804. -/
abbrev Reg.POLL_D1.CMD_LEN : Fld := ⟨.poll, 0x804, 32, 32, 8, 4, .rw, .n, .num 0, .stored⟩
/-- R187, offset 0x804. -/
abbrev Reg.POLL_D1.RD_LEN : Fld := ⟨.poll, 0x804, 32, 32, 12, 7, .rw, .n, .num 0, .stored⟩
/-- R187, offset 0x804. -/
abbrev Reg.POLL_D1.REFRESH : Fld := ⟨.poll, 0x804, 32, 32, 24, 8, .rw, .n, .num 0, .stored⟩
/-- R187, offset 0x808. -/
abbrev Reg.POLL_D2.PERIOD : Fld := ⟨.poll, 0x808, 32, 32, 0, 16, .rw, .n, .num 0, .stored⟩
/-- R187, offset 0x808. -/
abbrev Reg.POLL_D2.PHASE : Fld := ⟨.poll, 0x808, 32, 32, 16, 16, .rw, .n, .num 0, .stored⟩
/-- R187, offset 0x80C. -/
abbrev Reg.POLL_D3.CMD : Fld := ⟨.poll, 0x80C, 32, 32, 0, 32, .rw, .n, .num 0, .stored⟩
/-- R187, offset 0x810. -/
abbrev Reg.POLL_D4.CMD : Fld := ⟨.poll, 0x810, 32, 32, 0, 32, .rw, .n, .num 0, .stored⟩
/-- spec/05_fieldbus_talkers.md, registers, offset 0x040. -/
abbrev Reg.GPI_SAMPLE.PERIOD_US : Fld := ⟨(.one 0x0D0), 0x040, 0, 1, 0, 10, .rw, .n, .num 10, .stored⟩
/-- spec/05_fieldbus_talkers.md, registers, offset 0x040. -/
abbrev Reg.GPI_SAMPLE.DEB : Fld := ⟨(.one 0x0D0), 0x040, 0, 1, 16, 5, .rw, .n, .num 2, .stored⟩
/-- spec/05_fieldbus_talkers.md, registers, offset 0x044. -/
abbrev Reg.GPI_LEVEL.L : Fld := ⟨(.one 0x0D0), 0x044, 0, 1, 0, 32, .ro, .a, .num 0, .stored⟩
/-- spec/05_fieldbus_talkers.md, registers, offset 0x048. -/
abbrev Reg.GPI_LOST.N : Fld := ⟨(.one 0x0D0), 0x048, 0, 1, 0, 32, .ro, .a, .num 0, .stored⟩
/-- R200, offset 0x100. -/
abbrev Reg.GPI_LINE.TALKER : Fld := ⟨(.one 0x0D0), 0x100, 4, 32, 0, 14, .rw, .n, .num 0, .stored⟩
/-- R200, offset 0x100. -/
abbrev Reg.GPI_LINE.CLASS : Fld := ⟨(.one 0x0D0), 0x100, 4, 32, 16, 3, .rw, .n, .num 0, .stored⟩
/-- R200, offset 0x100. -/
abbrev Reg.GPI_LINE.EDGE : Fld := ⟨(.one 0x0D0), 0x100, 4, 32, 19, 2, .rw, .n, .num 0, .stored⟩
/-- R200, offset 0x100. -/
abbrev Reg.GPI_LINE.WAKE : Fld := ⟨(.one 0x0D0), 0x100, 4, 32, 21, 1, .rw, .n, .num 0, .stored⟩
/-- R512, offset 0x040. -/
abbrev Reg.FBC_SWK_CFG.RATE : Fld := ⟨(.one 0x0DF), 0x040, 0, 1, 0, 2, .rw, .n, .num 2, .stored⟩
/-- R512, offset 0x044. -/
abbrev Reg.FBC_SWK_MODE_LO.MODE : Fld := ⟨(.one 0x0DF), 0x044, 0, 1, 0, 32, .rw, .n, .num 0, .stored⟩
/-- R512, offset 0x048. -/
abbrev Reg.FBC_SWK_MODE_HI.MODE : Fld := ⟨(.one 0x0DF), 0x048, 0, 1, 0, 32, .rw, .n, .num 0, .stored⟩
/-- R512, offset 0x800. -/
abbrev Reg.FBC_SWK_D0.ID : Fld := ⟨(.one 0x0DF), 0x800, 32, 32, 0, 30, .rw, .n, .num 0, .stored⟩
/-- R512, offset 0x800. -/
abbrev Reg.FBC_SWK_D0.VALID : Fld := ⟨(.one 0x0DF), 0x800, 32, 32, 31, 1, .rw, .n, .num 0, .stored⟩
/-- R512, offset 0x804. -/
abbrev Reg.FBC_SWK_D1.MASK : Fld := ⟨(.one 0x0DF), 0x804, 32, 32, 0, 29, .rw, .n, .num 0, .stored⟩
/-- R512, offset 0x808. -/
abbrev Reg.FBC_SWK_D2.CHAN : Fld := ⟨(.one 0x0DF), 0x808, 32, 32, 0, 32, .rw, .n, .num 0, .stored⟩
/-- R512, offset 0x80C. -/
abbrev Reg.FBC_SWK_D3.DLC : Fld := ⟨(.one 0x0DF), 0x80C, 32, 32, 0, 5, .rw, .n, .num 0, .stored⟩
/-- R512, offset 0x810. -/
abbrev Reg.FBC_SWK_D4.DMASK : Fld := ⟨(.one 0x0DF), 0x810, 32, 32, 0, 32, .rw, .n, .num 0, .stored⟩
/-- R512, offset 0x814. -/
abbrev Reg.FBC_SWK_D5.DMASK : Fld := ⟨(.one 0x0DF), 0x814, 32, 32, 0, 32, .rw, .n, .num 0, .stored⟩
/-- R461, offset 0x040. -/
abbrev Reg.INST_STAT.EXISTS : Fld := ⟨.inst, 0x040, 0, 1, 0, 1, .ro, .w, .firstInst 1, .stored⟩
/-- R461, offset 0x040. -/
abbrev Reg.INST_STAT.RESETTING : Fld := ⟨.inst, 0x040, 0, 1, 1, 1, .ro, .v, .num 0, .stored⟩
/-- R461, offset 0x040. -/
abbrev Reg.INST_STAT.FREEZING : Fld := ⟨.inst, 0x040, 0, 1, 2, 1, .ro, .v, .num 0, .stored⟩
/-- R461, offset 0x040. -/
abbrev Reg.INST_STAT.FROZEN : Fld := ⟨.inst, 0x040, 0, 1, 3, 1, .ro, .v, .num 0, .stored⟩
/-- R461, offset 0x040. -/
abbrev Reg.INST_STAT.OVERQUOTA : Fld := ⟨.inst, 0x040, 0, 1, 4, 1, .ro, .v, .num 0, .view .INST_STAT_OVERQUOTA⟩
/-- R461, offset 0x040. -/
abbrev Reg.INST_STAT.IMG_BUSY : Fld := ⟨.inst, 0x040, 0, 1, 5, 1, .ro, .v, .num 0, .stored⟩
/-- R461, offset 0x040. -/
abbrev Reg.INST_STAT.INFLIGHT : Fld := ⟨.inst, 0x040, 0, 1, 16, 16, .ro, .i, .num 0, .view .INST_STAT_INFLIGHT⟩
/-- R461, offset 0x044. -/
abbrev Reg.INST_QUOTA.QUOTA : Fld := ⟨.inst, 0x044, 0, 1, 0, 24, .ro, .w, .num 0, .stored⟩
/-- R461, offset 0x048. -/
abbrev Reg.INST_LIMITS.WEIGHT : Fld := ⟨.inst, 0x048, 0, 1, 0, 8, .ro, .n, .num 1, .view .INST_LIMITS_WEIGHT⟩
/-- R461, offset 0x048. -/
abbrev Reg.INST_LIMITS.WIN_MAX : Fld := ⟨.inst, 0x048, 0, 1, 16, 10, .ro, .w, .firstInst 64, .stored⟩
/-- R461, offset 0x04C. -/
abbrev Reg.INST_USE.CELLS : Fld := ⟨.inst, 0x04C, 0, 1, 0, 25, .ro, .v, .num 0, .view .INST_USE_CELLS⟩
/-- R461, offset 0x050. -/
abbrev Reg.INST_WIN_USE.UNITS : Fld := ⟨.inst, 0x050, 0, 1, 0, 10, .ro, .i, .num 0, .view .INST_WIN_USE_UNITS⟩
/-- R70, offset 0x800. -/
abbrev Reg.LASTREAD.RX_DELIVERED : Fld := ⟨.inst, 0x800, 0, 1, 0, 32, .ro, .i, .num 0, .stored⟩
/-- R70, offset 0x804. -/
abbrev Reg.LASTREAD.TX_HANDED : Fld := ⟨.inst, 0x804, 0, 1, 0, 32, .ro, .i, .num 0, .stored⟩
/-- R70, offset 0x808. -/
abbrev Reg.LASTREAD.TX_DELIVERED : Fld := ⟨.inst, 0x808, 0, 1, 0, 32, .ro, .i, .num 0, .stored⟩
/-- R70, offset 0x80C. -/
abbrev Reg.LASTREAD.TX_FAILED : Fld := ⟨.inst, 0x80C, 0, 1, 0, 32, .ro, .i, .num 0, .stored⟩
/-- R70, offset 0x810. -/
abbrev Reg.LASTREAD.PUSHED_OUT : Fld := ⟨.inst, 0x810, 0, 1, 0, 32, .ro, .i, .num 0, .stored⟩
/-- R70, offset 0x814. -/
abbrev Reg.LASTREAD.POLICED : Fld := ⟨.inst, 0x814, 0, 1, 0, 32, .ro, .i, .num 0, .stored⟩
/-- R70, offset 0x818. -/
abbrev Reg.LASTREAD.LIFETIME : Fld := ⟨.inst, 0x818, 0, 1, 0, 32, .ro, .i, .num 0, .stored⟩
/-- R70, offset 0x81C. -/
abbrev Reg.LASTREAD.ADMIT_WAITS : Fld := ⟨.inst, 0x81C, 0, 1, 0, 32, .ro, .i, .num 0, .stored⟩
/-- R70, offset 0x820. -/
abbrev Reg.LASTREAD.FLUSHED : Fld := ⟨.inst, 0x820, 0, 1, 0, 32, .ro, .i, .num 0, .stored⟩
/-- R70, offset 0x828. -/
abbrev Reg.LASTREAD.RX_BYTES_LO : Fld := ⟨.inst, 0x828, 0, 1, 0, 32, .ro, .i, .num 0, .stored⟩
/-- R70, offset 0x82C. -/
abbrev Reg.LASTREAD.RX_BYTES_HI : Fld := ⟨.inst, 0x82C, 0, 1, 0, 32, .ro, .i, .num 0, .stored⟩
/-- R70, offset 0x830. -/
abbrev Reg.LASTREAD.TX_BYTES_LO : Fld := ⟨.inst, 0x830, 0, 1, 0, 32, .ro, .i, .num 0, .stored⟩
/-- R70, offset 0x834. -/
abbrev Reg.LASTREAD.TX_BYTES_HI : Fld := ⟨.inst, 0x834, 0, 1, 0, 32, .ro, .i, .num 0, .stored⟩
/-- R70, offset 0x838. -/
abbrev Reg.LASTREAD.ENG_CYCLES_LO : Fld := ⟨.inst, 0x838, 0, 1, 0, 32, .ro, .i, .num 0, .stored⟩
/-- R70, offset 0x83C. -/
abbrev Reg.LASTREAD.ENG_CYCLES_HI : Fld := ⟨.inst, 0x83C, 0, 1, 0, 32, .ro, .i, .num 0, .stored⟩
/-- R460, offset 0xC00. -/
abbrev Reg.INST.RX_DELIVERED : Fld := ⟨.inst, 0xC00, 0, 1, 0, 32, .rc, .i, .num 0, .stored⟩
/-- R460, offset 0xC04. -/
abbrev Reg.INST.TX_HANDED : Fld := ⟨.inst, 0xC04, 0, 1, 0, 32, .rc, .i, .num 0, .stored⟩
/-- R460, offset 0xC08. -/
abbrev Reg.INST.TX_DELIVERED : Fld := ⟨.inst, 0xC08, 0, 1, 0, 32, .rc, .i, .num 0, .stored⟩
/-- R460, offset 0xC0C. -/
abbrev Reg.INST.TX_FAILED : Fld := ⟨.inst, 0xC0C, 0, 1, 0, 32, .rc, .i, .num 0, .stored⟩
/-- R460, offset 0xC10. -/
abbrev Reg.INST.PUSHED_OUT : Fld := ⟨.inst, 0xC10, 0, 1, 0, 32, .rc, .i, .num 0, .stored⟩
/-- R460, offset 0xC14. -/
abbrev Reg.INST.POLICED : Fld := ⟨.inst, 0xC14, 0, 1, 0, 32, .rc, .i, .num 0, .stored⟩
/-- R460, offset 0xC18. -/
abbrev Reg.INST.LIFETIME : Fld := ⟨.inst, 0xC18, 0, 1, 0, 32, .rc, .i, .num 0, .stored⟩
/-- R460, offset 0xC1C. -/
abbrev Reg.INST.ADMIT_WAITS : Fld := ⟨.inst, 0xC1C, 0, 1, 0, 32, .rc, .i, .num 0, .stored⟩
/-- R460, offset 0xC20. -/
abbrev Reg.INST.FLUSHED : Fld := ⟨.inst, 0xC20, 0, 1, 0, 32, .rc, .i, .num 0, .stored⟩
/-- R460, offset 0xC28. -/
abbrev Reg.INST.RX_BYTES_LO : Fld := ⟨.inst, 0xC28, 0, 1, 0, 32, .rc, .i, .num 0, .stored⟩
/-- R460, offset 0xC2C. -/
abbrev Reg.INST.RX_BYTES_HI : Fld := ⟨.inst, 0xC2C, 0, 1, 0, 32, .rc, .i, .num 0, .stored⟩
/-- R460, offset 0xC30. -/
abbrev Reg.INST.TX_BYTES_LO : Fld := ⟨.inst, 0xC30, 0, 1, 0, 32, .rc, .i, .num 0, .stored⟩
/-- R460, offset 0xC34. -/
abbrev Reg.INST.TX_BYTES_HI : Fld := ⟨.inst, 0xC34, 0, 1, 0, 32, .rc, .i, .num 0, .stored⟩
/-- R460, offset 0xC38. -/
abbrev Reg.INST.ENG_CYCLES_LO : Fld := ⟨.inst, 0xC38, 0, 1, 0, 32, .rc, .i, .num 0, .stored⟩
/-- R460, offset 0xC3C. -/
abbrev Reg.INST.ENG_CYCLES_HI : Fld := ⟨.inst, 0xC3C, 0, 1, 0, 32, .rc, .i, .num 0, .stored⟩
/-- R462, offset 0x200. -/
abbrev Reg.INST_CMD.GO : Fld := ⟨.inst0, 0x200, 0, 1, 0, 1, .rws, .v, .num 0, .stored⟩
/-- R462, offset 0x200. -/
abbrev Reg.INST_CMD.OP : Fld := ⟨.inst0, 0x200, 0, 1, 4, 4, .rw, .v, .num 0, .stored⟩
/-- R462, offset 0x200. -/
abbrev Reg.INST_CMD.TARGET : Fld := ⟨.inst0, 0x200, 0, 1, 8, 6, .rw, .v, .num 0, .stored⟩
/-- R462, offset 0x200. -/
abbrev Reg.INST_CMD.RESULT : Fld := ⟨.inst0, 0x200, 0, 1, 16, 3, .ro, .v, .num 0, .stored⟩
/-- R462, offset 0x200. -/
abbrev Reg.INST_CMD.SRC : Fld := ⟨.inst0, 0x200, 0, 1, 20, 2, .ro, .v, .num 0, .stored⟩
/-- R462, offset 0x204. -/
abbrev Reg.INST_CMD_ARG.ARG : Fld := ⟨.inst0, 0x204, 4, 3, 0, 32, .rw, .v, .num 0, .stored⟩
/-- R462, offset 0x210. -/
abbrev Reg.INST_CMD_ARG3.RET : Fld := ⟨.inst0, 0x210, 0, 1, 0, 32, .ro, .v, .num 0, .stored⟩
/-- R462, offset 0x214. -/
abbrev Reg.INST_POOL_STAT.COUNT : Fld := ⟨.inst0, 0x214, 0, 1, 0, 7, .ro, .w, .num 1, .view .INST_POOL_STAT_COUNT⟩
/-- R462, offset 0x214. -/
abbrev Reg.INST_POOL_STAT.WIN_FREE : Fld := ⟨.inst0, 0x214, 0, 1, 16, 11, .ro, .w, .num 960, .view .INST_POOL_STAT_WIN_FREE⟩
/-- R462, offset 0x218. -/
abbrev Reg.INST_RPT_CFG.QUEUE : Fld := ⟨.inst0, 0x218, 0, 1, 0, 4, .rw, .n, .num 0, .stored⟩
/-- R462, offset 0x218. -/
abbrev Reg.INST_RPT_CFG.EN : Fld := ⟨.inst0, 0x218, 0, 1, 8, 1, .rw, .n, .num 1, .stored⟩
/-- R462, offset 0x218. -/
abbrev Reg.INST_RPT_CFG.CLASS : Fld := ⟨.inst0, 0x218, 0, 1, 16, 3, .rw, .n, .num 6, .stored⟩
/-- R462, offset 0x21C. -/
abbrev Reg.INST_RPT_SUM0.INST : Fld := ⟨.inst0, 0x21C, 0, 1, 0, 6, .ro, .v, .num 0, .stored⟩
/-- R462, offset 0x21C. -/
abbrev Reg.INST_RPT_SUM0.CAUSE : Fld := ⟨.inst0, 0x21C, 0, 1, 8, 2, .ro, .v, .num 0, .stored⟩
/-- R462, offset 0x21C. -/
abbrev Reg.INST_RPT_SUM0.NLIST : Fld := ⟨.inst0, 0x21C, 0, 1, 16, 16, .ro, .v, .num 0, .stored⟩
/-- R462, offset 0x220. -/
abbrev Reg.INST_RPT_SUM1.COMPLETED : Fld := ⟨.inst0, 0x220, 0, 1, 0, 32, .ro, .v, .num 0, .stored⟩
/-- R462, offset 0x224. -/
abbrev Reg.INST_RPT_SUM2.FREED : Fld := ⟨.inst0, 0x224, 0, 1, 0, 32, .ro, .v, .num 0, .stored⟩
/-- R462, offset 0x228. -/
abbrev Reg.INST_IMG_SEL.DWORD : Fld := ⟨.inst0, 0x228, 0, 1, 0, 20, .rw, .v, .num 0, .stored⟩
/-- R462, offset 0x228. -/
abbrev Reg.INST_IMG_SEL.SLOT : Fld := ⟨.inst0, 0x228, 0, 1, 24, 5, .rw, .v, .num 0, .stored⟩
/-- R462, offset 0xC80. -/
abbrev Reg.INST_IMG_DATA.DATA : Fld := ⟨.inst0, 0xC80, 0, 1, 0, 32, .rw, .v, .num 0, .view .INST_IMG_DATA_DATA⟩
/-- R441, offset 0x040. -/
abbrev Reg.HBR_WIN_FLUSH.RX : Fld := ⟨.win, 0x040, 0, 1, 0, 16, .rws, .i, .num 0, .view .HBR_WIN_FLUSH_RX⟩
/-- R441, offset 0x040. -/
abbrev Reg.HBR_WIN_FLUSH.TX : Fld := ⟨.win, 0x040, 0, 1, 16, 8, .rws, .i, .num 0, .view .HBR_WIN_FLUSH_TX⟩
/-- R441, offset 0x040. -/
abbrev Reg.HBR_WIN_FLUSH.TXC : Fld := ⟨.win, 0x040, 0, 1, 24, 8, .rws, .i, .num 0, .view .HBR_WIN_FLUSH_TXC⟩
/-- R441, offset 0x100. -/
abbrev Reg.HBR_RXW_ITEMS.ITEMS : Fld := ⟨.win, 0x100, 4, 16, 0, 16, .ro, .i, .num 0, .view .HBR_RXW_ITEMS_ITEMS⟩
/-- R441, offset 0x140. -/
abbrev Reg.HBR_TXW_ITEMS.ITEMS : Fld := ⟨.win, 0x140, 4, 8, 0, 16, .ro, .i, .num 0, .view .HBR_TXW_ITEMS_ITEMS⟩
/-- R441, offset 0x180. -/
abbrev Reg.FLUSH_TAIL_WORDS.COUNT : Fld := ⟨.win, 0x180, 0, 1, 0, 32, .ro, .i, .num 0, .stored⟩
/-- R441, offset 0x184. -/
abbrev Reg.FLUSHED_ITEMS.COUNT : Fld := ⟨.win, 0x184, 0, 1, 0, 32, .ro, .i, .num 0, .stored⟩
/-- R441, offset 0x800. -/
abbrev Reg.HBR_RXW_LASTPOP.WORD : Fld := ⟨.win, 0x800, 4, 64, 0, 32, .ro, .i, .num 0, .view .HBR_RXW_LASTPOP_WORD⟩
/-- R441, offset 0x900. -/
abbrev Reg.HBR_TXCW_LASTPOP.WORD : Fld := ⟨.win, 0x900, 4, 32, 0, 32, .ro, .i, .num 0, .view .HBR_TXCW_LASTPOP_WORD⟩
/-- R441, offset 0xC00. -/
abbrev Reg.HBR_RXW.POP : Fld := ⟨.win, 0xC00, 4, 16, 0, 32, .rp, .i, .num 0, .acts⟩
/-- R441, offset 0xC40. -/
abbrev Reg.HBR_TXW.PUSH : Fld := ⟨.win, 0xC40, 4, 8, 0, 18, .wp, .i, .num 0, .acts⟩
/-- R441, offset 0xC80. -/
abbrev Reg.HBR_TXCW.POP : Fld := ⟨.win, 0xC80, 4, 8, 0, 32, .rp, .i, .num 0, .acts⟩
/-- R440, offset 0x040. -/
abbrev Reg.HBR_Q_CFG.MODE : Fld := ⟨.db, 0x040, 32, 24, 0, 2, .rw, .i, .num 0, .stored⟩
/-- R440, offset 0x040. -/
abbrev Reg.HBR_Q_CFG.SIZE : Fld := ⟨.db, 0x040, 32, 24, 4, 4, .rw, .i, .num 0, .stored⟩
/-- R440, offset 0x040. -/
abbrev Reg.HBR_Q_CFG.HOLDOFF_US : Fld := ⟨.db, 0x040, 32, 24, 8, 8, .rw, .i, .num 0, .stored⟩
/-- R440, offset 0x040. -/
abbrev Reg.HBR_Q_CFG.VECTOR : Fld := ⟨.db, 0x040, 32, 24, 16, 5, .rw, .i, .num 0, .stored⟩
/-- R440, offset 0x040. -/
abbrev Reg.HBR_Q_CFG.IRQ_EN : Fld := ⟨.db, 0x040, 32, 24, 21, 1, .rw, .i, .num 0, .stored⟩
/-- R440, offset 0x040. -/
abbrev Reg.HBR_Q_CFG.TS_REQ : Fld := ⟨.db, 0x040, 32, 24, 22, 1, .rw, .i, .num 0, .stored⟩
/-- R440, offset 0x040. -/
abbrev Reg.HBR_Q_CFG.WIN_UNITS : Fld := ⟨.db, 0x040, 32, 24, 24, 6, .rw, .i, .num 5, .stored⟩
/-- R440, offset 0x044. -/
abbrev Reg.HBR_Q_RING_LO.ADDR : Fld := ⟨.db, 0x044, 32, 24, 6, 26, .rw, .i, .num 0, .stored⟩
/-- R440, offset 0x048. -/
abbrev Reg.HBR_Q_RING_HI.ADDR : Fld := ⟨.db, 0x048, 32, 24, 0, 32, .rw, .i, .num 0, .stored⟩
/-- R440, offset 0x04C. -/
abbrev Reg.HBR_Q_CQ_LO.ADDR : Fld := ⟨.db, 0x04C, 32, 24, 6, 26, .rw, .i, .num 0, .stored⟩
/-- R440, offset 0x050. -/
abbrev Reg.HBR_Q_CQ_HI.ADDR : Fld := ⟨.db, 0x050, 32, 24, 0, 32, .rw, .i, .num 0, .stored⟩
/-- R440, offset 0x054. -/
abbrev Reg.HBR_Q_IDX.DEV_HEAD : Fld := ⟨.db, 0x054, 32, 24, 0, 16, .ro, .i, .num 0, .stored⟩
/-- R440, offset 0x054. -/
abbrev Reg.HBR_Q_IDX.CQ_TAIL : Fld := ⟨.db, 0x054, 32, 24, 16, 16, .ro, .i, .num 0, .stored⟩
/-- R440, offset 0x058. -/
abbrev Reg.HBR_Q_STAT.ON : Fld := ⟨.db, 0x058, 32, 24, 0, 1, .ro, .i, .num 0, .stored⟩
/-- R440, offset 0x058. -/
abbrev Reg.HBR_Q_STAT.ERR : Fld := ⟨.db, 0x058, 32, 24, 1, 1, .ro, .i, .num 0, .stored⟩
/-- R440, offset 0x058. -/
abbrev Reg.HBR_Q_STAT.ERRCODE : Fld := ⟨.db, 0x058, 32, 24, 2, 2, .ro, .i, .num 0, .stored⟩
/-- R440, offset 0x058. -/
abbrev Reg.HBR_Q_STAT.WAITING : Fld := ⟨.db, 0x058, 32, 24, 4, 1, .ro, .i, .num 0, .view .HBR_Q_STAT_WAITING⟩
/-- R440, offset 0x800. -/
abbrev Reg.DB_TAIL_RX.IDX : Fld := ⟨.db, 0x800, 8, 16, 0, 16, .wo, .i, .num 0, .acts⟩
/-- R440, offset 0x804. -/
abbrev Reg.DB_CQ_HEAD_RX.IDX : Fld := ⟨.db, 0x804, 8, 16, 0, 16, .wo, .i, .num 0, .acts⟩
/-- R440, offset 0x880. -/
abbrev Reg.DB_TAIL_TX.IDX : Fld := ⟨.db, 0x880, 8, 8, 0, 16, .wo, .i, .num 0, .acts⟩
/-- R440, offset 0x884. -/
abbrev Reg.DB_CQ_HEAD_TX.IDX : Fld := ⟨.db, 0x884, 8, 8, 0, 16, .wo, .i, .num 0, .acts⟩
/-- Fields of the page set `all`, part 0. -/
def fields_all_0 : List Fld := [Reg.PG_ID.BLOCK, Reg.PG_ID.PAGE, Reg.PG_ID.LAYOUT, Reg.PG_ID.SUB, Reg.PG_REV.STEP, Reg.PG_REV.BLKREV, Reg.PG_CTRL.IRQ_EN, Reg.PG_STAT.ENABLED, Reg.PG_STAT.LOCKED, Reg.PG_STAT.STICKY, Reg.PG_STAT.MAINT, Reg.PG_STAT.FAULT, Reg.PG_EVT_RAW.RAW, Reg.PG_EVT.EVT, Reg.PG_EVT_EN_SET.EN, Reg.PG_EVT_EN_CLR.EN]
/-- Fields of the page set `all`, part 1. -/
def fields_all_1 : List Fld := [Reg.PG_FAULT.WORST, Reg.PG_FAULT.COUNT, Reg.PG_FAULT.LASTREC, Reg.PG_MAINT.ACT, Reg.PG_MAINT.TAKE, Reg.PG_MAINT.DROP, Reg.PG_MAINT.HELD, Reg.PG_MAINT.REFUSED, Reg.PG_MAINT.HOLDER, Reg.PG_MAINT.SRC, Reg.PG_LOCK.LOCK, Reg.PG_LOCK.STICKY, Reg.PG_LOCK.KEY]
/-- Every field of the page set `all`. -/
def fields_all : List Fld := fields_all_0 ++ fields_all_1
/-- Fields of the page set `ena`, part 0. -/
def fields_ena_0 : List Fld := [Reg.PG_CTRL.EN]
/-- Every field of the page set `ena`. -/
def fields_ena : List Fld := fields_ena_0
/-- Fields of the page set `link`, part 0. -/
def fields_link_0 : List Fld := [Reg.PG_CTRL.EN_link, Reg.STY_LINK_CFG.HOLD_US, Reg.STY_LINK_CFG.RETRAIN_MS, Reg.STY_LINK_STAT.STATE, Reg.STY_LINK_STAT.PEER_DEV, Reg.STY_LINK_STAT.PEER_ROLE, Reg.STY_LINK_STAT.LANES, Reg.STY_LINK_STAT.REFUSE, Reg.STY_LINK_STAT.PEER_LEVEL, Reg.STY_LINK_ASYM.ASYM, Reg.STY_LINK_RETRAIN.START, Reg.STY_LINK_RETRAIN.RESULT, Reg.STYL.FLITS_TX, Reg.STYL.FLITS_RX, Reg.STYL.CRC_ERR, Reg.STYL.REPLAYS]
/-- Fields of the page set `link`, part 1. -/
def fields_link_1 : List Fld := [Reg.STYL.LANE_FAULTS, Reg.STYL.LINK_DOWNS, Reg.STYL.VC0_MSGS_TX, Reg.STYL.DUP_DISCARDS, Reg.STYL.BAD_MSG]
/-- Every field of the page set `link`. -/
def fields_link : List Fld := fields_link_0 ++ fields_link_1
/-- Fields of the page set `noen`, part 0. -/
def fields_noen_0 : List Fld := [Reg.PG_CTRL.EN_noen]
/-- Every field of the page set `noen`. -/
def fields_noen : List Fld := fields_noen_0
/-- Fields of the page set `000`, part 0. -/
def fields_p000_0 : List Fld := [Reg.PCH_BOOT_STAT.CAUSE, Reg.PCH_BOOT_STAT.FASTSTART, Reg.PCH_BOOT_STAT.FWD, Reg.PCH_BOOT_STAT.FS_ERR, Reg.PCH_BOOT_STAT.RAIL_LATE, Reg.PCH_BOOT_STAT.RST_GLITCH, Reg.PCH_BOOT_STAT.FWD_TIME, Reg.PCH_PWR_CTRL.TARGET, Reg.PCH_PWR_CTRL.GO, Reg.PCH_PWR_CTRL.DRAIN_MS, Reg.PCH_PWR_STAT.STATE, Reg.PCH_PWR_STAT.RESULT, Reg.PCH_PWR_STAT.STRUCK_LOST, Reg.PCH_WAKE_EN.SRC, Reg.PCH_WAKE_STAT.SRC, Reg.PCH_WAKE_STAT.UNIT]
/-- Fields of the page set `000`, part 1. -/
def fields_p000_1 : List Fld := [Reg.PCH_WAKE_STAT.REASON, Reg.PCH_WAKE_STAT.VALID, Reg.PCH_WAKE_CFG.RAIL_MS, Reg.PCH_WAKE_CFG.WW_EN, Reg.PCH_WAKE_CFG.PERIOD_MS, Reg.PCH_RESET.SOFT, Reg.PCH_RESET.KEY, Reg.PCH_WDOG.TIMEOUT_MS, Reg.PCH_WDOG.KICK, Reg.PCH_RST_LOST.COUNT]
/-- Every field of the page set `000`. -/
def fields_p000 : List Fld := fields_p000_0 ++ fields_p000_1
/-- Fields of the page set `001`, part 0. -/
def fields_p001_0 : List Fld := [Reg.PCH_HEALTH.WORST, Reg.PCH_HEALTH.SAFE, Reg.PCH_HEALTH.SVC, Reg.PCH_HEALTH.SJ, Reg.PCH_FLT_BLOCKS.BLOCKS, Reg.PCH_FLT_SEL.INDEX, Reg.PCH_FLT_SEL.DWORD, Reg.PCH_FLT_SEL.FRZ, Reg.PCH_FLT_SEL.PART, Reg.PCH_FLT_DATA.DATA, Reg.PCH_FLT_NEXT.NEXT, Reg.PCH_FLT_NEXT.FRZ_NEXT, Reg.PCH_FLT_ACK.PAGE, Reg.PCH_FLT_ACK.ALL, Reg.PCH_FLT_ACK.GO, Reg.PCH_SVC.LEVEL]
/-- Fields of the page set `001`, part 1. -/
def fields_p001_1 : List Fld := [Reg.PCH_SVC.FORCE_LOW, Reg.PCH_SAFE.ENTER, Reg.PCH_SAFE.KEY, Reg.PCH_SAFE.CAUSE, Reg.PCH_SAFE.ACTIVE, Reg.PCH_SAFE_LOST.COUNT, Reg.PCH_TEMP.TJ, Reg.PCH_TEMP.TJ_MAX, Reg.PCH_TEMP_CFG.WARN, Reg.PCH_TEMP_CFG.CRIT, Reg.PCH_TEMP_CFG.HYST, Reg.PCH_SCRUB.EN, Reg.PCH_SCRUB.PASS_MIN, Reg.PCH.SRAM_CORRECTED, Reg.PCH.SRAM_UNCORR, Reg.PCH.FLT_RECORDS]
/-- Fields of the page set `001`, part 2. -/
def fields_p001_2 : List Fld := [Reg.PCH.FLT_MERGED, Reg.PCH.SAFE_ENTRIES, Reg.PCH.TEMP_WARNS, Reg.PCH.SCRUB_PASSES, Reg.PCH.SCRUB_REFUSED, Reg.PCH.MH_RESTARTS]
/-- Every field of the page set `001`. -/
def fields_p001 : List Fld := fields_p001_0 ++ fields_p001_1 ++ fields_p001_2
/-- Fields of the page set `002`, part 0. -/
def fields_p002_0 : List Fld := [Reg.PCH_WW_STAT.PC, Reg.PCH_WW_STAT.FAULT, Reg.PCH_WW_RUNS.RUNS, Reg.PCH_WW_DATA.W, Reg.PCH_WW_SLOT_LO.SLOT, Reg.PCH_WW_SLOT_HI.SLOT]
/-- Every field of the page set `002`. -/
def fields_p002 : List Fld := fields_p002_0
/-- Fields of the page set `008`, part 0. -/
def fields_p008_0 : List Fld := [Reg.MST_LEVELS.MGMT, Reg.MST_LEVELS.STAY, Reg.MST_LEVELS.SCHEMA, Reg.MST_LEVELS.PROG, Reg.MST_FW_STAT.LOADER, Reg.MST_FW_STAT.FALLBACK, Reg.MST_FW_STAT.OLD_RO, Reg.MST_FW_STAT.SCHEMA_MIN, Reg.MST_FW_STAT.SCHEMA_MAX, Reg.MST_UPD_CMD.OP, Reg.MST_UPD_CMD.GO, Reg.MST_UPD_CMD.TARGET, Reg.MST_UPD_STAT.STATE, Reg.MST_UPD_STAT.RESULT, Reg.MST_UPD_STAT.HOLDER, Reg.MST_UPD_STAT.COMP]
/-- Fields of the page set `008`, part 1. -/
def fields_p008_1 : List Fld := [Reg.MST_UPD_BYTES.BYTES, Reg.MST_UPD_REFUSED.REQ, Reg.MST_UPD_REFUSED.HOLDER, Reg.MST_UPD_REFUSED.VALID, Reg.MST_DOWNGRADE.PERMIT, Reg.MST_DOWNGRADE.KEY, Reg.MST_SEC_CFG.SIG_REQ, Reg.MST_SEC_CFG.KEYS, Reg.MST_SET_CMD.COMMIT, Reg.MST_SET_CMD.ERASE_OLD, Reg.MST_SET_CMD.KEY, Reg.MST_SET_STAT.RESULT, Reg.MST_SET_STAT.SCHEMA, Reg.MST_SET_STAT.SEQ, Reg.MST_COMP_SEL.TYPE, Reg.MST_COMP_VER.VERSION]
/-- Fields of the page set `008`, part 2. -/
def fields_p008_2 : List Fld := [Reg.MST_SJ_SEL.ENTRY, Reg.MST_SJ_SEL.DWORD, Reg.MST_SJ_DATA.DATA, Reg.MST_SJ_STAT.COPY, Reg.MST_SJ_STAT.VALID, Reg.MST_SJ_STAT.GEN, Reg.MST_UPD_DATA.PUSH, Reg.MST_UPD_DATA16.PUSH, Reg.MST.SESSIONS, Reg.MST.REFUSED_OPENS, Reg.MST.COMP_WRITTEN, Reg.MST.COMP_SKIPPED, Reg.MST.SET_COMMITS, Reg.MST.SJ_LOOKUPS, Reg.MST.SJ_NOMATCH, Reg.MST.MRAM_CORRECTED]
/-- Every field of the page set `008`. -/
def fields_p008 : List Fld := fields_p008_0 ++ fields_p008_1 ++ fields_p008_2
/-- Fields of the page set `010`, part 0. -/
def fields_p010_0 : List Fld := [Reg.HBR_PCIE_STAT.SPEED, Reg.HBR_PCIE_STAT.WIDTH, Reg.HBR_PCIE_STAT.DL_UP, Reg.HBR_HOLD.PCIE_US, Reg.HBR_IRQ_ROUTE.VECTOR, Reg.HBR_IRQ_ROUTE.PCIE, Reg.HBR_IRQ_ROUTE.LHP, Reg.HBR.TX_SENTENCES, Reg.HBR.RX_SENTENCES, Reg.HBR.DMA_RD_ERR, Reg.HBR.HOLDS, Reg.HBR.HOLD_DISCARDS, Reg.HBR.LHP_TIMEOUTS]
/-- Every field of the page set `010`. -/
def fields_p010 : List Fld := fields_p010_0
/-- Fields of the page set `01F`, part 0. -/
def fields_p01F_0 : List Fld := [Reg.HBR_LHP_WIN.BASE, Reg.HBR_LHP_CFG.INST, Reg.HBR_LHP_CFG.NARROW, Reg.HBR_LHP_BUS.SYNC, Reg.HBR_LHP_BUS.TMO_US, Reg.HBR_LHP_IRQ.PENDING, Reg.HBR_LHP_IRQ_EN.EN, Reg.HBR_TAG_ALIAS.PUSH]
/-- Every field of the page set `01F`. -/
def fields_p01F : List Fld := fields_p01F_0
/-- Fields of the page set `020`, part 0. -/
def fields_p020_0 : List Fld := [Reg.TBU_SNAP.GO, Reg.TBU_SNAP_WFRAC.FRAC, Reg.TBU_SNAP_WFRAC.EPOCH, Reg.TBU_SNAP_WNS_LO.NS, Reg.TBU_SNAP_WNS_HI.NS, Reg.TBU_TSQ_STAT.DEPTH, Reg.TBU_RING_CFG.MODE, Reg.TBU_RING_CFG.EXT, Reg.TBU_RING_CFG.FREEZE, Reg.TBU_RING_CFG.EXT_LOG2, Reg.TBU_RING_STAT.SLOTS, Reg.TBU_RING_STAT.CAP_LOG2, Reg.TBU_EGR_PTP.PORTS, Reg.TBU_EGR_CAP.TALKER, Reg.TBU_EGR_CAP.PORT, Reg.TBU_EGR_CAP.VALID]
/-- Fields of the page set `020`, part 1. -/
def fields_p020_1 : List Fld := [Reg.TBU.TBU_TSQ_OVF, Reg.TBU.TSQ_CAPTURES, Reg.TBU.TSI_LOST, Reg.TBU.RING_RECORDS, Reg.TBU.RING_LOST, Reg.TBU.RING_OVERWRITTEN, Reg.TBU.MIRROR_SKIPPED, Reg.TBU.TSO_SKIPPED, Reg.TBU.BRD_STEPS, Reg.TBU_TSQ_LASTPOP.WORD, Reg.TBU_RING_LASTPOP.WORD, Reg.TBU_TSQ_POP.POP, Reg.TBU_RING_POP.POP]
/-- Every field of the page set `020`. -/
def fields_p020 : List Fld := fields_p020_0 ++ fields_p020_1
/-- Fields of the page set `021`, part 0. -/
def fields_p021_0 : List Fld := [Reg.TBU_DOM_CFG.ROLE, Reg.TBU_DOM_CFG.SYNC, Reg.TBU_DOM_CFG.DOMNUM, Reg.TBU_DOM_CFG.HOLD_MS, Reg.TBU_DOM_RATE.RATE, Reg.TBU_DOM_STEP_S.STEP_S, Reg.TBU_DOM_STEP_NS.STEP_NS, Reg.TBU_DOM_STEP_CTRL.GO, Reg.TBU_DOM_STEP_CTRL.RESULT, Reg.TBU_DOM_PORTS.PORTS, Reg.TBU_DOM_SNAP_S_LO.S, Reg.TBU_DOM_SNAP_S_HI.S, Reg.TBU_DOM_SNAP_NS.NS, Reg.TBU_DOM_SNAP_FRAC.FRAC]
/-- Every field of the page set `021`. -/
def fields_p021 : List Fld := fields_p021_0
/-- Fields of the page set `022`, part 0. -/
def fields_p022_0 : List Fld := [Reg.TBU_TSI_CFG.EDGE, Reg.TBU_TSI_CFG.DLY, Reg.TSO_CTRL.EN, Reg.TSO_CTRL.CLOCK, Reg.TSO_CTRL.IDLE, Reg.TSO_CTRL.CFG_ERR, Reg.TSO_START_NS.NS, Reg.PPS_START_NS.NS, Reg.TSO_START_S.S, Reg.TSO_PERIOD_NS.PERIOD, Reg.PPS_PERIOD_NS.PERIOD, Reg.TSO_HIGH_NS.HIGH, Reg.TSO_START_S_HI.S, Reg.TBU_PORT_DLY.RX_DLY, Reg.TBU_PORT_DLY.TX_DLY]
/-- Every field of the page set `022`. -/
def fields_p022 : List Fld := fields_p022_0
/-- Fields of the page set `023`, part 0. -/
def fields_p023_0 : List Fld := [Reg.TBU_BRD_STAT.LOCKED, Reg.TBU_BRD_STAT.HOPS, Reg.TBU_BRD_STAT.LINK, Reg.TBU_BRD_STAT.OFFSET]
/-- Every field of the page set `023`. -/
def fields_p023 : List Fld := fields_p023_0
/-- Fields of the page set `028`, part 0. -/
def fields_p028_0 : List Fld := [Reg.NRM_COMMIT.GO, Reg.NRM_COMMIT_STAT.ACTIVE, Reg.NRM_COMMIT_STAT.RESYNC, Reg.NRM_COMMIT_STAT.SJ_MODE, Reg.NRM_COMMIT_STAT.RESULT, Reg.NRM_COMMIT_STAT.COMMITS, Reg.NRM_SEQ_SEL.TALKER, Reg.NRM_SEQ.NEXT, Reg.NRM_SF_SEL.FILTER, Reg.NRM_SF_STAT.BLOCKED, Reg.NRM_FM_SEL.METER, Reg.NRM_FM_STAT.RED_LATCH, Reg.NRM_FM_TC.TC, Reg.NRM_FM_TE.TE, Reg.NRM.LOOKUPS, Reg.NRM.NO_TALKER]
/-- Fields of the page set `028`, part 1. -/
def fields_p028_1 : List Fld := [Reg.NRM.NO_ROUTE, Reg.NRM.POLICED_SDU, Reg.NRM.POLICED_BLOCKED, Reg.NRM.POLICED_RED, Reg.NRM.MARKED_YELLOW, Reg.NRM.BP_CYCLES]
/-- Every field of the page set `028`. -/
def fields_p028 : List Fld := fields_p028_0 ++ fields_p028_1
/-- Fields of the page set `030`, part 0. -/
def fields_p030_0 : List Fld := [Reg.SWC_CT_EN.EN, Reg.SWC_RESEQ_CFG.TIMEOUT_US, Reg.SWC_RESEQ_STAT.TICKETS, Reg.SWC_LIFE.LIFE_US, Reg.SWC.CT_STARTED, Reg.SWC.CT_STORED, Reg.SWC.LIFETIME_FAILS, Reg.SWC.LOSS_RECORDS, Reg.SWC.RESEQ_TIMEOUTS, Reg.SWC.RESEQ_LATE, Reg.SWC.RESEQ_FORCED, Reg.SWC.RESEQ_CANCELLED, Reg.SWC_XIN_CELLS_LO.N, Reg.SWC_XIN_CELLS_HI.N, Reg.SWC_XOUT_CELLS_LO.N, Reg.SWC_XOUT_CELLS_HI.N]
/-- Every field of the page set `030`. -/
def fields_p030 : List Fld := fields_p030_0
/-- Fields of the page set `sched`, part 0. -/
def fields_sched_0 : List Fld := [Reg.SWC_GCL_CTRL.GATE_EN, Reg.SWC_GCL_CTRL.HOLD_EN, Reg.SWC_GCL_CTRL.CHANGE, Reg.SWC_GCL_CTRL.CLOCK, Reg.SWC_GCL_CTRL.ADMIN_LEN, Reg.SWC_GCL_STAT.PENDING, Reg.SWC_GCL_STAT.ERR, Reg.SWC_GCL_STAT.INDEX, Reg.SWC_GCL_STAT.OPER_LEN, Reg.SWC_GCL_STAT.GATES, Reg.SWC_GCL_BASE_NS.NS, Reg.SWC_GCL_BASE_S.S, Reg.SWC_GCL_CYCLE.CYCLE, Reg.SWC_GCL_EXT.EXT, Reg.SWC_GCL_BASE_S_HI.S, Reg.SWC_CBS_SLOPE_A.IDLE_SLOPE]
/-- Fields of the page set `sched`, part 1. -/
def fields_sched_1 : List Fld := [Reg.SWC_CBS_SLOPE_A.EN, Reg.SWC_CBS_LIM_A.HI_CREDIT, Reg.SWC_CBS_LIM_A.LO_CREDIT, Reg.SWC_CBS_SLOPE_B.IDLE_SLOPE, Reg.SWC_CBS_SLOPE_B.EN, Reg.SWC_CBS_LIM_B.HI_CREDIT, Reg.SWC_CBS_LIM_B.LO_CREDIT, Reg.SWC_CBS_CREDIT_A.CREDIT, Reg.SWC_CBS_CREDIT_B.CREDIT, Reg.SWC_GCL_ADMIN_A.GATES, Reg.SWC_GCL_ADMIN_A.INTERVAL, Reg.SWC_GCL_OPER_A.ENTRY, Reg.SWC_GCL_ADMIN_B.GATES, Reg.SWC_GCL_ADMIN_B.INTERVAL, Reg.SWC_GCL_OPER_B.ENTRY]
/-- Every field of the page set `sched`. -/
def fields_sched : List Fld := fields_sched_0 ++ fields_sched_1
/-- Fields of the page set `040`, part 0. -/
def fields_p040_0 : List Fld := [Reg.BUF_POOL_STAT.FREE, Reg.BUF_XM_FREE.FREE, Reg.BUF_SPILL.ON, Reg.BUF_SPILL.OFF, Reg.BUF_PREFETCH.AHEAD, Reg.BUF_PREFETCH.SPILL_DEPTH, Reg.BUF_XM_CFG.EN, Reg.BUF_XM_CFG.RATE, Reg.BUF_XM_CFG.DENSITY, Reg.BUF_XM_CFG.RETRAIN_S, Reg.BUF_XM_CFG.CELLS_MI, Reg.BUF_XM_STAT.READY, Reg.BUF_XM_STAT.TRAINING, Reg.BUF_XM_STAT.FAIL, Reg.BUF_XM_TRAIN.START, Reg.BUF_FLOOR.FLOOR]
/-- Fields of the page set `040`, part 1. -/
def fields_p040_1 : List Fld := [Reg.BUF_PROFILE.SHARE, Reg.BUF_EQ_SEL.SET, Reg.BUF_EQ_DEPTH.DEPTH, Reg.BUF_EQ_CLASS.DEPTH, Reg.BUF.PUSHOUTS, Reg.BUF.ADMIT_WAITS, Reg.BUF.ADMIT_LIFETIME, Reg.BUF.SPILLED, Reg.BUF.PREFETCHED, Reg.BUF.PREFETCH_LATE, Reg.BUF.MEM_FAULTS, Reg.BUF.RSV_WAITS]
/-- Every field of the page set `040`. -/
def fields_p040 : List Fld := fields_p040_0 ++ fields_p040_1
/-- Fields of the page set `sets`, part 0. -/
def fields_sets_0 : List Fld := [Reg.BUF_SET.LIMIT, Reg.BUF_SET.PROFILE]
/-- Every field of the page set `sets`. -/
def fields_sets : List Fld := fields_sets_0
/-- Fields of the page set `048`, part 0. -/
def fields_p048_0 : List Fld := [Reg.GWY_WIN.SEG, Reg.GWY_SLOT_SEL.SLOT, Reg.GWY_SLOT_VLO.VALUE, Reg.GWY_SLOT_VHI.VALUE, Reg.GWY_SLOT_META.VALID, Reg.GWY_SLOT_META.STALE, Reg.GWY_SLOT_META.AGE, Reg.GWY_PL_SEL.LIST, Reg.GWY_PL_STAT.NSEQ, Reg.GWY_PL_STAT.HELD, Reg.GWY_PL_STAT.WAITING, Reg.GWY_PL_STAT.DIRTY, Reg.GWY_PL_STAT.MSGS, Reg.GWY.CUT_SENTENCES, Reg.GWY.CUT_WRITES, Reg.GWY.CUT_SHORT]
/-- Fields of the page set `048`, part 1. -/
def fields_p048_1 : List Fld := [Reg.GWY.CUT_NOSLOT, Reg.GWY.CUT_EXCESS, Reg.GWY.FIRED, Reg.GWY.FIRE_LATE, Reg.GWY.FIRE_MERGED, Reg.GWY.FIRE_SKIPPED, Reg.GWY.STALE_EVENTS, Reg.GWY.ACF_MSGS, Reg.GWY.MEMBER_REFUSED]
/-- Every field of the page set `048`. -/
def fields_p048 : List Fld := fields_p048_0 ++ fields_p048_1
/-- Fields of the page set `050`, part 0. -/
def fields_p050_0 : List Fld := [Reg.ENG_STAT.INSERVICE, Reg.ENG_STAT.DEGRADED, Reg.ENG_STAT.RETIRED, Reg.ENG_SVC.ENGINE, Reg.ENG_SVC.RETURN, Reg.ENG_SVC.RETIRE, Reg.ENG_SVC.RESULT, Reg.ENG_ST_CFG.EN, Reg.ENG_ST_CFG.PERIOD_MS, Reg.ENG_ST_CFG.NEXT, Reg.ENG_SHARE_CFG.EN, Reg.ENG_SHARE_CFG.BURST_KC, Reg.ENG_TS_SEL.TALKER, Reg.ENG_TS_SEL.WORD, Reg.ENG_TS_DATA.DATA, Reg.ENG_TS_STAT.BUSY]
/-- Fields of the page set `050`, part 1. -/
def fields_p050_1 : List Fld := [Reg.ENG_TS_STAT.LOCKED, Reg.ENG.DISPATCHED, Reg.ENG.STOLEN, Reg.ENG.COMMITTED, Reg.ENG.EMITTED, Reg.ENG.REEXEC, Reg.ENG.SPE_FAULTS, Reg.ENG.WDOG_EXPIRED, Reg.ENG.PROG_FAULTS, Reg.ENG.ENGINE_FAULTS, Reg.ENG.CANCELLED, Reg.ENG.TOO_LONG, Reg.ENG.ECC_CORRECTED]
/-- Every field of the page set `050`. -/
def fields_p050 : List Fld := fields_p050_0 ++ fields_p050_1
/-- Fields of the page set `051`, part 0. -/
def fields_p051_0 : List Fld := [Reg.ENG_SHARE.WEIGHT, Reg.ENG_CREDIT.CREDIT]
/-- Every field of the page set `051`. -/
def fields_p051 : List Fld := fields_p051_0
/-- Fields of the page set `052`, part 0. -/
def fields_p052_0 : List Fld := [Reg.ENG_SPE_STAT.STATE, Reg.ENG_SPE_STAT.RETIRED, Reg.ENG_SPE_STAT.DEPTH, Reg.ENG_SPE_STAT.FAULTS, Reg.ENG_SPE_STAT.TALKER]
/-- Every field of the page set `052`. -/
def fields_p052 : List Fld := fields_p052_0
/-- Fields of the page set `060`, part 0. -/
def fields_p060_0 : List Fld := [Reg.STY_ID.DEV_ID, Reg.STY_ID.ROLE, Reg.STY_ID.LEVEL, Reg.STY_CFG.TMO_US, Reg.STY_ATOM_STAT.RESULT, Reg.STY_ATOM_STAT.DEV, Reg.STY_REM_ERR.ALL, Reg.STY_REM_ERR.VALID, Reg.STY_TOPO.VALID, Reg.STY_TOPO.PRI, Reg.STY_TOPO.ALT1_EN, Reg.STY_TOPO.ALT1, Reg.STY_TOPO.ALT2_EN, Reg.STY_TOPO.ALT2, Reg.STY_TOPO.INUSE, Reg.STY_TOPO.PATH]
/-- Fields of the page set `060`, part 1. -/
def fields_p060_1 : List Fld := [Reg.STY_TOPO.REACH, Reg.STY_SCRATCH.DATA, Reg.STY.REM_READS, Reg.STY.REM_WRITES, Reg.STY.REM_ERRORS, Reg.STY.ATOM_OPS, Reg.STY.ATOM_RETRIES, Reg.STY.CROSSINGS, Reg.STY.REROUTES, Reg.STY.HOP_DISCARDS]
/-- Every field of the page set `060`. -/
def fields_p060 : List Fld := fields_p060_0 ++ fields_p060_1
/-- Fields of the page set `ethB`, part 0. -/
def fields_ethB_0 : List Fld := [Reg.ETH_MODE.LANE, Reg.ETH_MODE.SPEED, Reg.ETH_FC_THR.XOFF, Reg.ETH_FC_THR.XON, Reg.ETH_PREEMPT.EN, Reg.ETH_PREEMPT.VERIFY_DIS, Reg.ETH_PREEMPT.ADD_FRAG, Reg.ETH_PREEMPT.EXPRESS, Reg.ETH_PREEMPT.VERIFY_STAT, Reg.ETH_PREEMPT.VERIFY_MS]
/-- Every field of the page set `ethB`. -/
def fields_ethB : List Fld := fields_ethB_0
/-- Fields of the page set `ethS`, part 0. -/
def fields_ethS_0 : List Fld := [Reg.ETH_MODE.LANE_ethS]
/-- Every field of the page set `ethS`. -/
def fields_ethS : List Fld := fields_ethS_0
/-- Fields of the page set `ethI`, part 0. -/
def fields_ethI_0 : List Fld := [Reg.ETH_MODE.LANE_ethI]
/-- Every field of the page set `ethI`. -/
def fields_ethI : List Fld := fields_ethI_0
/-- Fields of the page set `ethnB`, part 0. -/
def fields_ethnB_0 : List Fld := [Reg.ETH_MODE.SPEED_ethnB, Reg.ETH_FC_THR.XOFF_ethnB, Reg.ETH_FC_THR.XON_ethnB]
/-- Every field of the page set `ethnB`. -/
def fields_ethnB : List Fld := fields_ethnB_0
/-- Fields of the page set `ethT`, part 0. -/
def fields_ethT_0 : List Fld := [Reg.ETH_MODE.T1_ROLE, Reg.ETH_T1_CFG.TC10_EN, Reg.ETH_T1_CFG.SLEEP_REQ, Reg.ETH_T1_CFG.WAKE_REQ, Reg.ETH_T1_CFG.TC10_STAT, Reg.ETH_T1_CFG.DIAG_START, Reg.ETH_T1_CFG.DIAG_RES, Reg.ETH_T1_CFG.DIAG_DIST]
/-- Every field of the page set `ethT`. -/
def fields_ethT : List Fld := fields_ethT_0
/-- Fields of the page set `eth`, part 0. -/
def fields_eth_0 : List Fld := [Reg.ETH_MAXLEN.MAXLEN, Reg.ETH_RX_DEFAULT.TALKER, Reg.ETH_RX_DEFAULT.QUEUE, Reg.ETH_RX_DEFAULT.CLASS, Reg.ETH_RX_DEFAULT.DISCARD, Reg.ETH_RX_DEFAULT.DEF_PCP, Reg.ETH_TX_TAG.VID, Reg.ETH_TX_TAG.TAGMODE, Reg.ETH_TX_PCPMAP.PCP, Reg.ETH_FC_CFG.RX_EN, Reg.ETH_FC_CFG.PFC_EN, Reg.ETH_FC_CFG.QUANTA, Reg.ETH_FC_STAT.RX_PAUSED, Reg.ETH_FC_STAT.TX_XOFF, Reg.ETH_FC_STAT.TX_XOFF_ALL, Reg.ETH_HOLD.HOLD_US]
/-- Fields of the page set `eth`, part 1. -/
def fields_eth_1 : List Fld := [Reg.ETH_LINK_STAT.STATE, Reg.ETH_LINK_STAT.PCS_LOCK, Reg.ETH_LINK_STAT.CFG_ERR, Reg.ETH_LINK_STAT.SPD_MISMATCH, Reg.ETH_LINK_STAT.PREEMPT_ACTIVE, Reg.ETH_LINK_STAT.HOLD_LEFT, Reg.ETH_SRC_MAC_LO.A, Reg.ETH_SRC_MAC_HI.A, Reg.ETH_CTR_HALF_LO.H, Reg.ETH_CTR_HALF_HI.H, Reg.ETH_CTR.N]
/-- Every field of the page set `eth`. -/
def fields_eth : List Fld := fields_eth_0 ++ fields_eth_1
/-- Fields of the page set `ethnM`, part 0. -/
def fields_ethnM_0 : List Fld := [Reg.ETH_FC_CFG.TX_MODE]
/-- Every field of the page set `ethnM`. -/
def fields_ethnM : List Fld := fields_ethnM_0
/-- Fields of the page set `ethM`, part 0. -/
def fields_ethM_0 : List Fld := [Reg.ETH_FC_CFG.TX_MODE_ethM, Reg.ETH_MD_CFG.PLCA_EN, Reg.ETH_MD_CFG.NODE_ID, Reg.ETH_MD_CFG.NODE_CNT, Reg.ETH_MD_CFG.TO_TMR, Reg.ETH_MD_BURST.BURST_CNT, Reg.ETH_MD_BURST.BURST_TMR, Reg.ETH_MD_BURST.BEACON_SEEN]
/-- Every field of the page set `ethM`. -/
def fields_ethM : List Fld := fields_ethM_0
/-- Fields of the page set `08F`, part 0. -/
def fields_p08F_0 : List Fld := [Reg.ETH_CB_CFG.EN, Reg.ETH_CB_CFG.HIST_LEN, Reg.ETH_CB_CFG.RESET_MS, Reg.ETH_CB_STREAM.TALKER, Reg.ETH_CB_STREAM.GEN, Reg.ETH_CB_STREAM.ELIM, Reg.ETH_CB_STREAM.GEN_SEQ]
/-- Every field of the page set `08F`. -/
def fields_p08F : List Fld := fields_p08F_0
/-- Fields of the page set `can`, part 0. -/
def fields_can_0 : List Fld := [Reg.CAN_CTRL.MODE, Reg.CAN_CTRL.AUTO_RECOV, Reg.CAN_CTRL.SELF_RX, Reg.CAN_CTRL.HOLD_MS, Reg.CAN_NBT.BRP, Reg.CAN_NBT.TSEG1, Reg.CAN_NBT.TSEG2, Reg.CAN_NBT.SJW, Reg.CAN_DBT.BRP, Reg.CAN_DBT.TSEG1, Reg.CAN_DBT.TSEG2, Reg.CAN_DBT.SJW, Reg.CAN_DBT.TDC_EN, Reg.CAN_TDC.TDCO, Reg.CAN_RX_DEFAULT.TALKER, Reg.CAN_RX_DEFAULT.CLASS]
/-- Fields of the page set `can`, part 1. -/
def fields_can_1 : List Fld := [Reg.CAN_RX_DEFAULT.DISCARD, Reg.CAN_STAT.TEC, Reg.CAN_STAT.REC, Reg.CAN_STAT.STATE, Reg.CAN_STAT.HOLDING, Reg.CAN_STAT.CFG_ERR, Reg.CAN_STAT.RECOVER, Reg.CAN_STAT.TX_USED, Reg.CAN_MRAM_SEL.SLOT, Reg.CAN_MRAM_SEL.WORD, Reg.CAN_MRAM_DATA.WORD, Reg.CAN.RX_OK, Reg.CAN.TX_OK, Reg.CAN.RX_FILTERED, Reg.CAN.RX_OVERRUN, Reg.CAN.ERR_FRAMES]
/-- Fields of the page set `can`, part 2. -/
def fields_can_2 : List Fld := [Reg.CAN.ARB_LOST, Reg.CAN.BUSOFF_EVENTS, Reg.CAN_FLT_D0.ALL, Reg.CAN_FLT_D1.MASK, Reg.CAN_FLT_D2.TALKER, Reg.CAN_FLT_D2.CLASS, Reg.CAN_FLT_D2.DISCARD]
/-- Every field of the page set `can`. -/
def fields_can : List Fld := fields_can_0 ++ fields_can_1 ++ fields_can_2
/-- Fields of the page set `canX`, part 0. -/
def fields_canX_0 : List Fld := [Reg.CAN_CTRL.XLM_EN, Reg.CAN_XBT.BRP, Reg.CAN_XBT.TSEG1, Reg.CAN_XBT.TSEG2, Reg.CAN_XBT.SJW, Reg.CAN_XBT.TDC_EN]
/-- Every field of the page set `canX`. -/
def fields_canX : List Fld := fields_canX_0
/-- Fields of the page set `lin`, part 0. -/
def fields_lin_0 : List Fld := [Reg.LIN_CTRL.ROLE, Reg.LIN_CTRL.RUN, Reg.LIN_BAUD.BAUD, Reg.LIN_SCHED.START, Reg.LIN_SCHED.END, Reg.LIN_SCHED.SWITCH, Reg.LIN_SCHED.CUR, Reg.LIN.CK_ERR, Reg.LIN.NO_RESP, Reg.LIN.LIN_OVERWRITE, Reg.LIN.LIN_SKIPPED, Reg.LIN_FRM_D0.LO, Reg.LIN_FRM_D0.HI, Reg.LIN_FRM_D1.TALKER, Reg.LIN_FRM_D1.CLASS]
/-- Every field of the page set `lin`. -/
def fields_lin : List Fld := fields_lin_0
/-- Fields of the page set `uar`, part 0. -/
def fields_uar_0 : List Fld := [Reg.UAR_CFG.MODE, Reg.UAR_CFG.FORMAT, Reg.UAR_CFG.STOP2, Reg.UAR_CFG.MAXLEN, Reg.UAR_BAUD.FRAC, Reg.UAR_BAUD.INT, Reg.UAR_NMEA.CK_REQ, Reg.UAR_NMEA.TX_CK, Reg.UAR_GEN.START, Reg.UAR_GEN.START_EN, Reg.UAR_GEN.END, Reg.UAR_GEN.END_EN, Reg.UAR_GEN.IDLE, Reg.UAR_DEFAULT.TALKER, Reg.UAR_DEFAULT.CLASS, Reg.UAR_DEFAULT.DISCARD]
/-- Fields of the page set `uar`, part 1. -/
def fields_uar_1 : List Fld := [Reg.UAR.RX_SENT, Reg.UAR.RX_CK_ERR, Reg.UAR.RX_BADCHAR, Reg.UAR.RX_RESTART, Reg.UAR.RX_TOOLONG, Reg.UAR.RX_OVERRUN, Reg.UAR.RX_FILTERED, Reg.UAR.TX_SENT, Reg.UAR_ADR_D0.CHARS, Reg.UAR_ADR_D1.LO, Reg.UAR_ADR_D1.TALKER]
/-- Every field of the page set `uar`. -/
def fields_uar : List Fld := fields_uar_0 ++ fields_uar_1
/-- Fields of the page set `spi`, part 0. -/
def fields_spi_0 : List Fld := [Reg.SPI_CFG.DIV, Reg.SPI_CFG.RUN, Reg.POLL_D1.CSMODE]
/-- Every field of the page set `spi`. -/
def fields_spi : List Fld := fields_spi_0
/-- Fields of the page set `i2c`, part 0. -/
def fields_i2c_0 : List Fld := [Reg.I2C_CFG.SPEED, Reg.I2C_CFG.STRETCH_MS, Reg.I2C_CFG.RUN, Reg.POLL_D1.ADDR]
/-- Every field of the page set `i2c`. -/
def fields_i2c : List Fld := fields_i2c_0
/-- Fields of the page set `poll`, part 0. -/
def fields_poll_0 : List Fld := [Reg.POLL.POLLS_OK, Reg.POLL.POLL_OVERRUN, Reg.POLL.NACK, Reg.POLL.TIMEOUT, Reg.POLL_D0.TALKER, Reg.POLL_D0.CLASS, Reg.POLL_D0.CHG_ONLY, Reg.POLL_D0.VALID, Reg.POLL_D1.CMD_LEN, Reg.POLL_D1.RD_LEN, Reg.POLL_D1.REFRESH, Reg.POLL_D2.PERIOD, Reg.POLL_D2.PHASE, Reg.POLL_D3.CMD, Reg.POLL_D4.CMD]
/-- Every field of the page set `poll`. -/
def fields_poll : List Fld := fields_poll_0
/-- Fields of the page set `0D0`, part 0. -/
def fields_p0D0_0 : List Fld := [Reg.GPI_SAMPLE.PERIOD_US, Reg.GPI_SAMPLE.DEB, Reg.GPI_LEVEL.L, Reg.GPI_LOST.N, Reg.GPI_LINE.TALKER, Reg.GPI_LINE.CLASS, Reg.GPI_LINE.EDGE, Reg.GPI_LINE.WAKE]
/-- Every field of the page set `0D0`. -/
def fields_p0D0 : List Fld := fields_p0D0_0
/-- Fields of the page set `0DF`, part 0. -/
def fields_p0DF_0 : List Fld := [Reg.FBC_SWK_CFG.RATE, Reg.FBC_SWK_MODE_LO.MODE, Reg.FBC_SWK_MODE_HI.MODE, Reg.FBC_SWK_D0.ID, Reg.FBC_SWK_D0.VALID, Reg.FBC_SWK_D1.MASK, Reg.FBC_SWK_D2.CHAN, Reg.FBC_SWK_D3.DLC, Reg.FBC_SWK_D4.DMASK, Reg.FBC_SWK_D5.DMASK]
/-- Every field of the page set `0DF`. -/
def fields_p0DF : List Fld := fields_p0DF_0
/-- Fields of the page set `inst`, part 0. -/
def fields_inst_0 : List Fld := [Reg.INST_STAT.EXISTS, Reg.INST_STAT.RESETTING, Reg.INST_STAT.FREEZING, Reg.INST_STAT.FROZEN, Reg.INST_STAT.OVERQUOTA, Reg.INST_STAT.IMG_BUSY, Reg.INST_STAT.INFLIGHT, Reg.INST_QUOTA.QUOTA, Reg.INST_LIMITS.WEIGHT, Reg.INST_LIMITS.WIN_MAX, Reg.INST_USE.CELLS, Reg.INST_WIN_USE.UNITS, Reg.LASTREAD.RX_DELIVERED, Reg.LASTREAD.TX_HANDED, Reg.LASTREAD.TX_DELIVERED, Reg.LASTREAD.TX_FAILED]
/-- Fields of the page set `inst`, part 1. -/
def fields_inst_1 : List Fld := [Reg.LASTREAD.PUSHED_OUT, Reg.LASTREAD.POLICED, Reg.LASTREAD.LIFETIME, Reg.LASTREAD.ADMIT_WAITS, Reg.LASTREAD.FLUSHED, Reg.LASTREAD.RX_BYTES_LO, Reg.LASTREAD.RX_BYTES_HI, Reg.LASTREAD.TX_BYTES_LO, Reg.LASTREAD.TX_BYTES_HI, Reg.LASTREAD.ENG_CYCLES_LO, Reg.LASTREAD.ENG_CYCLES_HI, Reg.INST.RX_DELIVERED, Reg.INST.TX_HANDED, Reg.INST.TX_DELIVERED, Reg.INST.TX_FAILED, Reg.INST.PUSHED_OUT]
/-- Fields of the page set `inst`, part 2. -/
def fields_inst_2 : List Fld := [Reg.INST.POLICED, Reg.INST.LIFETIME, Reg.INST.ADMIT_WAITS, Reg.INST.FLUSHED, Reg.INST.RX_BYTES_LO, Reg.INST.RX_BYTES_HI, Reg.INST.TX_BYTES_LO, Reg.INST.TX_BYTES_HI, Reg.INST.ENG_CYCLES_LO, Reg.INST.ENG_CYCLES_HI]
/-- Every field of the page set `inst`. -/
def fields_inst : List Fld := fields_inst_0 ++ fields_inst_1 ++ fields_inst_2
/-- Fields of the page set `inst0`, part 0. -/
def fields_inst0_0 : List Fld := [Reg.INST_CMD.GO, Reg.INST_CMD.OP, Reg.INST_CMD.TARGET, Reg.INST_CMD.RESULT, Reg.INST_CMD.SRC, Reg.INST_CMD_ARG.ARG, Reg.INST_CMD_ARG3.RET, Reg.INST_POOL_STAT.COUNT, Reg.INST_POOL_STAT.WIN_FREE, Reg.INST_RPT_CFG.QUEUE, Reg.INST_RPT_CFG.EN, Reg.INST_RPT_CFG.CLASS, Reg.INST_RPT_SUM0.INST, Reg.INST_RPT_SUM0.CAUSE, Reg.INST_RPT_SUM0.NLIST, Reg.INST_RPT_SUM1.COMPLETED]
/-- Fields of the page set `inst0`, part 1. -/
def fields_inst0_1 : List Fld := [Reg.INST_RPT_SUM2.FREED, Reg.INST_IMG_SEL.DWORD, Reg.INST_IMG_SEL.SLOT, Reg.INST_IMG_DATA.DATA]
/-- Every field of the page set `inst0`. -/
def fields_inst0 : List Fld := fields_inst0_0 ++ fields_inst0_1
/-- Fields of the page set `win`, part 0. -/
def fields_win_0 : List Fld := [Reg.HBR_WIN_FLUSH.RX, Reg.HBR_WIN_FLUSH.TX, Reg.HBR_WIN_FLUSH.TXC, Reg.HBR_RXW_ITEMS.ITEMS, Reg.HBR_TXW_ITEMS.ITEMS, Reg.FLUSH_TAIL_WORDS.COUNT, Reg.FLUSHED_ITEMS.COUNT, Reg.HBR_RXW_LASTPOP.WORD, Reg.HBR_TXCW_LASTPOP.WORD, Reg.HBR_RXW.POP, Reg.HBR_TXW.PUSH, Reg.HBR_TXCW.POP]
/-- Every field of the page set `win`. -/
def fields_win : List Fld := fields_win_0
/-- Fields of the page set `db`, part 0. -/
def fields_db_0 : List Fld := [Reg.HBR_Q_CFG.MODE, Reg.HBR_Q_CFG.SIZE, Reg.HBR_Q_CFG.HOLDOFF_US, Reg.HBR_Q_CFG.VECTOR, Reg.HBR_Q_CFG.IRQ_EN, Reg.HBR_Q_CFG.TS_REQ, Reg.HBR_Q_CFG.WIN_UNITS, Reg.HBR_Q_RING_LO.ADDR, Reg.HBR_Q_RING_HI.ADDR, Reg.HBR_Q_CQ_LO.ADDR, Reg.HBR_Q_CQ_HI.ADDR, Reg.HBR_Q_IDX.DEV_HEAD, Reg.HBR_Q_IDX.CQ_TAIL, Reg.HBR_Q_STAT.ON, Reg.HBR_Q_STAT.ERR, Reg.HBR_Q_STAT.ERRCODE]
/-- Fields of the page set `db`, part 1. -/
def fields_db_1 : List Fld := [Reg.HBR_Q_STAT.WAITING, Reg.DB_TAIL_RX.IDX, Reg.DB_CQ_HEAD_RX.IDX, Reg.DB_TAIL_TX.IDX, Reg.DB_CQ_HEAD_TX.IDX]
/-- Every field of the page set `db`. -/
def fields_db : List Fld := fields_db_0 ++ fields_db_1

/-- The field tables, in the order of the page sets. -/
def fieldTables : List (PageSet × List Fld) :=
  [(.all, fields_all),
   (.ena, fields_ena),
   (.link, fields_link),
   (.noen, fields_noen),
   (.one 0x000, fields_p000),
   (.one 0x001, fields_p001),
   (.one 0x002, fields_p002),
   (.one 0x008, fields_p008),
   (.one 0x010, fields_p010),
   (.one 0x01F, fields_p01F),
   (.one 0x020, fields_p020),
   (.one 0x021, fields_p021),
   (.one 0x022, fields_p022),
   (.one 0x023, fields_p023),
   (.one 0x028, fields_p028),
   (.one 0x030, fields_p030),
   (.sched, fields_sched),
   (.one 0x040, fields_p040),
   (.sets, fields_sets),
   (.one 0x048, fields_p048),
   (.one 0x050, fields_p050),
   (.one 0x051, fields_p051),
   (.one 0x052, fields_p052),
   (.one 0x060, fields_p060),
   (.ethB, fields_ethB),
   (.ethS, fields_ethS),
   (.ethI, fields_ethI),
   (.ethnB, fields_ethnB),
   (.ethT, fields_ethT),
   (.eth, fields_eth),
   (.ethnM, fields_ethnM),
   (.ethM, fields_ethM),
   (.one 0x08F, fields_p08F),
   (.can, fields_can),
   (.canX, fields_canX),
   (.lin, fields_lin),
   (.uar, fields_uar),
   (.spi, fields_spi),
   (.i2c, fields_i2c),
   (.poll, fields_poll),
   (.one 0x0D0, fields_p0D0),
   (.one 0x0DF, fields_p0DF),
   (.inst, fields_inst),
   (.inst0, fields_inst0),
   (.win, fields_win),
   (.db, fields_db)]

/-- Every field that page `id` has. -/
def fieldsOf (id : Nat) : List Fld :=
  (fieldTables.filter fun t => t.1.has id).flatMap fun t => t.2

end Sys2Proof.Machine
end

