-- ==== Sys2Proof/Machine/SMap.lean ====
section
/-! DEFINITION. Sparse maps in one canonical form: (key, value) pairs with strictly rising keys and no entry equal to
what an unlisted key reads as. With bytes as values such a map is a list of `Host.Cell`: the memories of the block. -/

namespace Sys2Proof.Machine

/-- A sparse map. -/
abbrev SMap (α : Type) := List (Nat × α)

/-- Read key `k`; `dflt k` is what an unlisted key reads as. -/
def SMap.get {α : Type} (dflt : Nat → α) : SMap α → Nat → α
  | [], k => dflt k
  | (j, v) :: m, k => if k = j then v else SMap.get dflt m k

/-- List key `k` with a value, in its place. -/
def SMap.insert {α : Type} : SMap α → Nat → α → SMap α
  | [], k, v => [(k, v)]
  | (j, w) :: m, k, v =>
    if k < j then (k, v) :: (j, w) :: m else if k = j then (k, v) :: m else (j, w) :: SMap.insert m k v

/-- Take key `k` off the list. -/
def SMap.erase {α : Type} (m : SMap α) (k : Nat) : SMap α := m.filter fun e => e.1 != k

/-- Write key `k`. Writing what an unlisted key reads as removes the entry. -/
def SMap.put {α : Type} [DecidableEq α] (dflt : Nat → α) (m : SMap α) (k : Nat) (v : α) : SMap α :=
  if v = dflt k then SMap.erase m k else SMap.insert m k v

/-- Change the value at key `k`. -/
def SMap.upd {α : Type} [DecidableEq α] (dflt : Nat → α) (m : SMap α) (k : Nat) (f : α → α) : SMap α :=
  SMap.put dflt m k (f (SMap.get dflt m k))

/-- Change every listed value of a map with one unlisted value. -/
def SMap.mapVals {α : Type} [DecidableEq α] (dflt : α) (f : α → α) (m : SMap α) : SMap α :=
  (m.map fun e => (e.1, f e.2)).filter fun e => decide (e.2 ≠ dflt)

/-- Return every key of which `drop` holds to its unlisted value. -/
def SMap.clear {α : Type} (m : SMap α) (drop : Nat → Bool) : SMap α :=
  m.filter fun e => !drop e.1

/-- Every key of the map lies above `lo`. -/
def SMap.above {α : Type} (lo : Nat) (m : SMap α) : Bool :=
  m.all fun e => decide (lo < e.1)

/-- The canonical form. -/
def SMap.wf {α : Type} [DecidableEq α] (dflt : Nat → α) : SMap α → Bool
  | [] => true
  | (k, v) :: m => decide (v ≠ dflt k) && SMap.above k m && SMap.wf dflt m

/-- The canonical form of a memory of bytes, in which an unlisted byte reads 0x00. -/
def Memory.wf (m : List Host.Cell) : Bool := SMap.wf (fun _ => (0 : BitVec 8)) m

end Sys2Proof.Machine
end

