-- ==== Sys2Proof/Machine/State.lean ====
section
/-! DEFINITION. The state of the block: every register, memory, queue, counter, mode and pin that the spec names, as
plain data, and the queue of the commands that wait. Times are counts of 62.5 ps of the working clock (R363) unless a
field says otherwise. -/

namespace Sys2Proof.Machine

/-! ### Sentences (spec/01_sentence_model.md) -/

/-- R23: the fields of the sentence header block. `time` is W7 to W4 as one number. -/
structure Shb where
  talker : BitVec 14
  kind   : BitVec 2
  cls    : BitVec 3
  de     : Bool
  inst   : BitVec 6
  flags  : BitVec 6
  seq    : BitVec 16
  len    : BitVec 14
  bank   : BitVec 2
  time   : BitVec 64
  deriving DecidableEq, Repr

/-- Where a sentence or an item came from. -/
inductive Origin where
  /-- Ethernet port `p`, its ingress queue `q`. -/
  | eth (p q : Nat)
  /-- The field-bus channel, poll controller or side-band unit of a port code (R35). -/
  | bus (code : Nat)
  /-- Transmit queue `t` of instance `n`: window or DMA mode, what the completion record returns, whether an egress
  time was asked for (R375), and how often the class I fields of the instance had returned to their defaults (R449). -/
  | host (n t : Nat) (win : Bool) (cookie : BitVec 32) (ts : Bool) (era : Nat)
  /-- Stay link `l`. -/
  | stay (l : Nat)
  /-- Pack list `l`, and whether it was an ACF list (R337). -/
  | gateway (l : Nat) (acf : Bool)
  /-- The device itself (R29, KIND 0b10). -/
  | device
  deriving DecidableEq, Repr

/-- R209: what a subscription names. -/
inductive Dest where
  | port (code : Nat)
  | host (n q : Nat)
  | list (l : Nat)
  | stay (dev : Nat) (group : Bool) (route : Nat)
  | cut
  | bad
  deriving DecidableEq, Repr

/-- R33, R243: a listener member of a sentence: the copies still to settle, how it failed (R34 code, R35 place) and the
egress time taken for it (R375). -/
structure Member where
  idx  : Nat
  dest : Dest
  open_ : Nat
  fail : Option (Nat × Nat)
  time : Option (BitVec 64)
  deriving DecidableEq, Repr

/-- R245, R246: the account of one sentence that took a sequence number. `sealed` says that no further copy will be
made for it, `listed` that an instance reset has listed it (R450). -/
structure Acct where
  shb     : Shb
  org     : Origin
  members : List Member
  sealed  : Bool
  listed  : Bool
  deriving DecidableEq, Repr

/-- R257, R260: where a cell of a sentence lies. A move under way keeps its source readable until it ends. -/
inductive CellAt where
  | chip (h : Nat)
  | spilling (h ext : Nat)
  | ext (h : Nat)
  | fetching (h chip : Nat)
  deriving DecidableEq, Repr

/-- R276: where a sentence that is not admitted waits. -/
inductive WaitAt where
  | pipe (p : Nat)
  | engine (k : Nat)
  /-- With its origin: the Host Bridge, a Stay link, a pack list, or the stage that made a device control sentence. -/
  | source
  deriving DecidableEq, Repr

/-- What a copy is for: a listener member, an engine-path input, or the crow's-nest ring (R228). -/
inductive Role where
  | member (m : Nat)
  | engine
  | record
  deriving DecidableEq, Repr

/-- What the device holds cells for: a sentence; one whose copies have all ended and whose cells its mirror copy still holds
(R243); a loss record; a mirror copy, with the sentence whose cells it holds. -/
inductive Holds where
  | sentence
  | ended
  | loss
  | mirror (of_ : Option Nat)
  deriving DecidableEq, Repr

/-- R127: the other port of a pair: there is none, its copy is open, it was sent, or it failed (code and place). -/
inductive Mate where
  | none
  | open_
  | sent
  | failed (code place : Nat)
  deriving DecidableEq, Repr

/-- R270: a copy that admission makes: for whom, charged to which set, over which crossbar output. -/
structure Target where
  role : Role
  set  : Nat
  out  : Nat
  ct   : Bool
  mate : Mate
  deriving DecidableEq, Repr

/-- A sentence that the device holds. -/
structure Sen where
  shb     : Shb
  acct    : Nat
  body    : List Byte
  org     : Origin
  /-- The crossbar input that holds its cells (R228). -/
  inp     : Nat
  /-- The moment its lifetime runs from (R241). -/
  life    : Nat
  /-- The cells charged to it (R267), in payload order. -/
  cells   : List CellAt
  /-- Its reception has ended (R235, R262). -/
  whole   : Bool
  /-- Where it waits for admission; `none` once admitted. -/
  waits   : Option WaitAt
  /-- It was judged and not admitted (R272, R277). -/
  waited  : Bool
  /-- The copies admission makes. -/
  targets : List Target
  /-- The order of its admission (R273). -/
  adm     : Nat
  /-- The crossbar outputs at which it was issued a ticket (R248). -/
  tickets : List Nat
  /-- Charged to the reserve of R279. -/
  reserve : Bool
  /-- The serial number of the item it came from. -/
  fid     : Nat
  /-- Bytes its frame fills in the ingress buffer until it is admitted (R277). -/
  bytes   : Nat
  /-- The program it is handed to the dispatcher with, and whether its talker is serial (R206, R212). -/
  prog    : Nat
  serial  : Bool
  /-- R127: of each 802.1CB pair that generates for it, the R-tag number taken from GEN_SEQ. -/
  rtag    : List (Nat × BitVec 16)
  /-- R476: the message words of a sentence that is forwarded to another device, with HC raised. -/
  fwd     : List (BitVec 16)
  what    : Holds := .sentence
  /-- An egress point waits for cells of it that are not on chip (R263). -/
  late    : Bool := false
  deriving DecidableEq, Repr

/-- R266: where a copy that is admitted and not settled is held. -/
inductive Place where
  | pool      -- an engine-path input that no engine has taken (R294), or an output before its commit (R302)
  | voq
  | reseq
  | egress
  | medium
  deriving DecidableEq, Repr

/-- R243: one copy. Its place in the list of copies gives its order in its queue. -/
structure Copy where
  sid   : Nat
  role  : Role
  set   : Nat
  out   : Nat
  place : Place
  cut   : Bool
  gap   : Bool
  mate  : Mate
  deriving DecidableEq, Repr

/-- R228: a sentence in a VOQ: cells that can cross now, whether more will come (R233), and whether its first cell
waits for an express grant. -/
structure Cross where
  sid     : Nat
  inp     : Nat
  out     : Nat
  cls     : Nat
  left    : Nat
  more    : Bool
  express : Bool
  deriving DecidableEq, Repr

/-- R249. GIVEN_UP tickets leave their context at once (R251). -/
inductive TicketState where
  | waiting
  | arrived
  | cancelled
  deriving DecidableEq, Repr

/-- R233: a crossbar input and output that carry a cell until a moment: one of the match, or an express one. -/
structure Carry where
  inp     : Nat
  out     : Nat
  till    : Nat
  express : Bool
  deriving DecidableEq, Repr

/-- R248, R249: a ticket, the sentences that arrived for it and how many must. -/
structure Ticket where
  seq   : BitVec 16
  state : TicketState
  need  : Nat
  sids  : List Nat
  deriving DecidableEq, Repr

/-- R248: the context of a talker at a crossbar output: whether the next number released carries RESEQ_GAP (R251), and
when its timer started (R250). -/
structure Ctx where
  out     : Nat
  talker  : BitVec 14
  tickets : List Ticket
  gap     : Bool
  since   : Option Nat
  deriving DecidableEq, Repr

/-- R237, R239: the egress scheduler of one port: the operating gate list, the entry in force and the moment it began,
the start of its cycle, a pending change with its instant on its clock, and the credits in units of 1/16,000,000 bit
with the moment they were brought up to. -/
structure Gcl where
  oper    : List (BitVec 32)
  cycle   : Nat
  clock   : Nat
  index   : Nat
  began   : Nat
  start   : Nat
  pending : Option (Nat × List (BitVec 32) × Nat × Nat)
  clockP  : Nat
  err     : Bool
  credits : List Int
  at_     : Nat
  deriving DecidableEq, Repr

/-- The switch core and the Buffer Manager's queues (spec/07_switch_core.md, spec/08_buffers_and_congestion.md). -/
structure Swc where
  sens    : List (Nat × Sen)
  accts   : List (Nat × Acct)
  copies  : List Copy
  voq     : List Cross
  prev    : List (Nat × Nat × Nat)
  carry   : List Carry
  gp      : SMap Nat
  ap      : SMap Nat
  ctxs    : List Ctx
  gcl     : SMap Gcl
  nextSid : Nat
  nextAdm : Nat
  /-- R251, R280: the registers written in cell time `oldCell`, with what they held at its start. -/
  oldCell : Nat
  olds    : List (Nat × Nat)
  deriving DecidableEq, Repr

/-- LPDDR5 (R284 to R286): READY, FAIL, training or retraining under way, the configuration in force since the last
training, the temperature at it and the moment the next periodic retraining falls due. -/
structure Xm where
  ready    : Bool
  fail     : Bool
  training : Bool
  retrain  : Bool
  rate     : Nat
  density  : Nat
  cellsMi  : Nat
  extLog2  : Nat
  extRing  : Bool
  temp     : Int
  due      : Nat
  spill    : Bool
  /-- R289: the first cell time that PREFETCH_LATE has not yet judged. -/
  lateTo   : Nat
  /-- R284: a training since the last power-on reset, RESET_N or wake from Struck has taken RATE, DENSITY and CELLS_MI. -/
  latched  : Bool
  /-- R286: when a start of retraining that was refused is tried again. -/
  retryAt  : Nat
  deriving DecidableEq, Repr

/-! ### Ingress normaliser (spec/06_ingress_and_tables.md) -/

/-- R201: what part A of an Ethernet lookup leaves for part B: the talker entry, the resolved members and whether the
route failed. -/
structure PartA where
  d0      : BitVec 32
  d1      : BitVec 32
  members : List Member
  noRoute : Bool
  /-- R521: no storm-jib entry matched. -/
  miss    : Bool
  /-- The ports toward which a copy starts cut-through (R234). -/
  ct      : List Nat
  /-- The frame was still being received. -/
  early   : Bool
  deriving DecidableEq, Repr

/-- An item that waits for its lookup, or an Ethernet frame between the parts of its lookup. The list of items is in
capture order. -/
structure Item where
  org     : Origin
  kind    : BitVec 2
  talker  : BitVec 14
  cls     : BitVec 3
  de      : Bool
  repl    : Bool
  bank    : Option (BitVec 2)
  body    : List Byte
  time    : BitVec 64
  /-- Metered length of R214, and the bytes it holds in an ingress buffer. -/
  metered : Nat
  /-- The header the host posted (R30, R207). -/
  inst    : Nat
  /-- Reception has ended, and its checks passed. -/
  whole   : Bool
  partA   : Option PartA
  /-- A frame's serial number, by which its port knows it. -/
  fid     : Nat
  /-- R540: the image address of a bad dword that its filter read. -/
  bad     : Option Nat
  deriving DecidableEq, Repr

/-- R216: a flow meter's buckets in units of 1/128,000,000 byte, the moment they were brought up to, and its red
latch. -/
structure Meter where
  tc  : Nat
  te  : Nat
  at_ : Nat
  red : Bool
  deriving DecidableEq, Repr

/-- R221: held dwords of a dual write: its source (as R93 tells readers apart), the entry and the bytes. -/
structure Dual where
  src   : Nat
  entry : Nat
  bytes : List (Nat × Byte)
  deriving DecidableEq, Repr

/-- R224: a resynchronisation under way: the bank being rebuilt and the parts not yet copied. -/
structure Resync where
  old   : BitVec 2
  parts : List TablePart
  deriving DecidableEq, Repr

structure Nrm where
  items   : List Item
  nextFid : Nat
  seqs    : SMap (BitVec 16)
  blocked : SMap Bool
  meters  : SMap Meter
  active  : BitVec 2
  sj      : Bool
  swapAt  : Option Nat
  resync  : Option Resync
  duals   : List Dual
  /-- R202: when each pipeline may start its next lookup. -/
  pipes   : SMap Nat
  /-- R227: the first cell time that BP_CYCLES has not yet judged. -/
  bpTo    : Nat
  /-- The twin-bank tables, byte by byte: bank b of image address x at b * 2^26 + x (R219, R116, R314, R358). -/
  tab     : List Host.Cell
  deriving DecidableEq, Repr

/-! ### Engine array and watch engine (spec/09_engine_array.md, spec/10_engine_instruction_set.md) -/

/-- R294: an entry of a deque, and how many of its runs faulted (R307). -/
structure Entry where
  sid    : Nat
  talker : BitVec 14
  cls    : Nat
  inst   : Nat
  prog   : Nat
  bank   : BitVec 2
  serial : Bool
  dnum   : BitVec 16
  faults : Nat
  deriving DecidableEq, Repr

/-- R320. -/
structure Flags where
  z : Bool
  n : Bool
  c : Bool
  v : Bool
  e : Bool
  x : Bool
  deriving DecidableEq, Repr

/-- R319: what a program sees in registers. `start` and `len` are its directory entry's (R314). -/
structure Core where
  w     : List Word
  a     : List (BitVec 16)
  fl    : Flags
  pc    : Nat
  cycles : Nat
  deriving DecidableEq, Repr

/-- R330: a staged output: its first OUT word, its LEN and its member mask. -/
structure Staged where
  at_  : Nat
  len  : Nat
  mask : BitVec 32
  deriving DecidableEq, Repr

/-- R302: a run. -/
structure Run where
  ent    : Entry
  core   : Core
  start  : Nat
  len    : Nat
  limit  : Nat
  out    : SMap Word
  staged : List Staged
  emask  : BitVec 32
  tsw    : SMap (Option Word)
  sst    : List (Nat × BitVec 64)
  /-- Step 3 is done; the outputs' sentences wait for admission (step 4). -/
  ended  : Bool
  outs   : List Nat
  deriving DecidableEq, Repr

/-- R290. -/
inductive SpeState where
  | idle
  | running
  | quarantine
  | selfTest
  | retired
  deriving DecidableEq, Repr

/-- One engine: why it is under test (R308 to R310) stands in `rotating` and `returning`. -/
structure Spe where
  state     : SpeState
  faults    : Nat
  retired   : Bool
  deque     : List Entry
  run       : Option Run
  rotating  : Bool
  returning : Bool
  retiring  : Bool
  deriving DecidableEq, Repr

/-- R298: the talker's lock (held by a run) and dispatch counters. -/
structure TalkerCtl where
  disp : BitVec 16
  next : BitVec 16
  lock : Bool
  deriving DecidableEq, Repr

structure Eng where
  spes    : SMap Spe
  pending : List Entry
  ctl     : SMap TalkerCtl
  ts      : SMap Word
  dmem    : SMap Word
  credits : SMap Int
  /-- R316: host writes that wait for the lock: the word (talker * 16 + word), its value, and the code of the source (R92). -/
  tsWait  : List (Nat × Word × Nat)
  /-- R316: PCIe reads of a word that return after the waiting write of it has applied. -/
  tsReads : List (Via × Nat)
  deriving DecidableEq, Repr

/-! ### Signal gateway (spec/11_signal_gateway.md) -/

/-- R339: live state of a slot; the moment of its last fresh write gives AGE. -/
structure Slot where
  value : BitVec 64
  valid : Bool
  stale : Bool
  fresh : Option Nat
  /-- R360: its value and validity at the start of the cycle of its last fresh write. -/
  was   : BitVec 64 × Bool
  deriving DecidableEq, Repr

/-- R349 to R355: live state of a pack list. -/
structure PList where
  epoch    : Option Nat
  nextDue  : Option Nat
  lastFire : Option Nat
  sent     : Option (List Byte)
  dirty    : Bool
  /-- R353: when the firings that have not started fell due, in order. -/
  fire     : List Nat
  nseq     : BitVec 8
  /-- The sentence of its item, once its lookup has started (R352). -/
  held     : Option Nat
  msgs     : List (List Byte)
  first    : Nat
  ready    : List (List Byte)
  deriving DecidableEq, Repr

structure Gwy where
  slots : SMap Slot
  lists : SMap PList
  /-- Sentences handed to the cuts and not yet cut: shb, body, port code. -/
  cuts  : List (Shb × List Byte)
  /-- R345: when the cut stage has room for the next sentence, and R353: when the next firing may start. -/
  cutAt  : Nat
  fireAt : Nat
  segs  : SMap (BitVec 4)
  vlo   : SMap (BitVec 32)
  deriving DecidableEq, Repr

/-! ### Time base (spec/12_time_base.md) -/

/-- R367, R369: a domain: its time in units of 2^-44 ns when the working clock stood at `at_`, the RATE in force, when a
written RATE applies and a step under way is added, the last host write that keeps SYNC, and the relays that wait for their
instant. -/
structure Domain where
  time  : Nat
  at_   : Nat
  rate  : BitVec 32
  rateAt : Option Nat
  stepAt : Option Nat
  holdAt : Option Nat
  relay : List DomRelayMsg
  deriving DecidableEq, Repr

/-- R419: a pop window: whole items with their class, the rest of the item a reader is part-way through, the pop sequence
number, the last words popped (newest first) and what a cut still owes (R19: 2 = the marker, 1 = the empty read). -/
structure PopWin where
  items : List (Nat × List Word)
  cur   : List Word
  seq   : BitVec 14
  last  : List (BitVec 32)
  cut   : Nat
  deriving DecidableEq, Repr

/-- R387: a record of the ring and its first slot. -/
structure RingRec where
  words : List Word
  pos   : Nat
  deriving DecidableEq, Repr

/-- R365: one source's snapshot: the working clock and the four domain times. -/
structure Snap where
  clock : Nat
  doms  : List Nat
  deriving DecidableEq, Repr

/-- R382: the number of a periodic output's next rising edge, whether it stands between a rising edge and its falling edge,
the level it drives, whether it runs, the START, PERIOD_NS and CLOCK under which its edges are counted, and the time of its newest
rising edge. -/
structure Tso where
  next   : Nat
  high   : Bool
  level  : Bool
  armed  : Bool
  base   : Nat × Nat × Nat
  risen  : Nat
  deriving DecidableEq, Repr

/-- R363, R364, R392: a stretch of the working clock: the moment it began, the working clock then, how much faster than nominal
it runs in parts of 10^9, and the step in which it is kept (250 ns in Furled and Struck, else 62.5 ps). -/
structure ClockSeg where
  from_ : Nat
  at_   : Nat
  rate  : Int
  step  : Nat
  deriving DecidableEq, Repr

structure Tbu where
  doms    : SMap Domain
  snaps   : SMap Snap
  tsq     : PopWin
  ring    : List RingRec
  ringNext : Nat
  ringPopped : Nat
  ringSeq : BitVec 14
  ringLast : List (BitVec 32)
  lastEdge : SMap (Option Nat)
  tsos    : SMap Tso
  /-- R391 to R395: board time of a worker. -/
  locked  : Bool
  everLocked : Bool
  link    : Nat
  offset  : Int
  lastEx  : Nat
  stepTry : Option Nat
  relaySeq : BitVec 8
  /-- The stretches of the working clock, newest first. -/
  clock   : List ClockSeg
  deriving DecidableEq, Repr

/-! ### Host Bridge (spec/13_host_interfaces.md) -/

/-- What a host posted, ready for the NRM (R409): header words W0 to W7 as posted, and the payload. -/
structure HostItem where
  n      : Nat
  t      : Nat
  win    : Bool
  cookie : BitVec 32
  ts     : Bool
  head   : List (BitVec 16)
  body   : List Byte
  time   : BitVec 64
  deriving DecidableEq, Repr

/-- R429: a push that is held: instance, transmit queue and word, whether the LHP made it, and when its hold ends; or the source
code and the bytes of a push of MST_UPD_DATA (R528). -/
structure HeldPush where
  n    : Nat
  t    : Nat
  word : Word
  lhp  : Bool
  till : Nat
  upd  : Option (Nat × List Byte)
  deriving DecidableEq, Repr

/-- R406 to R422: one queue of an instance. Receive queues: posted buffers or the window store; transmit queues:
descriptors whose buffers are read, the words of the item being pushed, and the completion window. `skip` is the tail of a
producer that is discarded (R425), with the first words of an item that exceeded the store (R421); `outst` counts the
entries outstanding and `reps` the entries that each completion record not yet passed reports (R417). -/
structure HostQ where
  mode    : Nat
  size    : Nat
  units   : Nat
  tail    : BitVec 16
  cqHead  : BitVec 16
  descs   : List Desc
  win     : PopWin
  build   : List Word
  skip    : Option (List Word)
  compl   : PopWin
  owed    : Nat
  /-- Records that wait for Bus Master Enable (R404). -/
  due     : List (List Byte)
  outst   : Nat
  reps    : List Nat
  stopped : Bool
  holdAt  : Option Nat
  /-- R417: CQ_TAIL when the queue was last enabled, from which its passes through the completion ring count. -/
  cqBase  : Nat := 0
  /-- R410: writes to host memory, by address, that are under way while the queue stops. -/
  flying  : List (Nat × List Byte) := []
  deriving DecidableEq, Repr

/-- R93: the snapshot of a 64-bit counter held for a source. -/
structure Snap64 where
  at_ : Nat
  val : BitVec 64
  deriving DecidableEq, Repr

/-- R402, R403: what the configuration space of a function holds and software of the host sets: MSI-X Enable and Function Mask,
the address in BAR0 and BAR1 and, of the physical function, in VF BAR0 and VF BAR1, Max_Payload_Size and Max_Read_Request_Size as
the base specification codes them. No command of the table writes it (notes/assumptions/9.md). -/
structure PcieFn where
  msixEn : Bool
  fmask  : Bool
  bar    : BitVec 64
  vfBar  : BitVec 64
  mps    : BitVec 3
  mrrs   : BitVec 3
  deriving DecidableEq, Repr

structure Hbr where
  queues  : SMap HostQ
  ready   : List HostItem
  /-- R409: where the round-robin stands (instance * 8 + queue of the last taken). -/
  rr      : Nat
  /-- R404: Bus Master Enable and D3hot (R402) of each function. -/
  bme     : SMap Bool
  d3      : SMap Bool
  /-- R402: MSI-X tables and pending bits of the functions: dword i of the table of function n at n * 256 + i, pending
  bits at n * 256 + 128. -/
  msix    : SMap (BitVec 32)
  /-- R91: what the preceding LHP access latched: address and value. -/
  latch   : Option (Nat × BitVec 32)
  /-- The high half a split LHP write still holds, and R93. -/
  snap64  : SMap Snap64
  held    : List HeldPush
  /-- R430: when an LHP cycle that LWAIT_N holds times out. -/
  lwait   : Option Nat
  fns     : SMap PcieFn := []
  deriving DecidableEq, Repr

/-! ### Ethernet ports (spec/04_frame_ports.md) -/

/-- R133. -/
inductive Link where
  | disabled
  | down
  | hold
  | up
  deriving DecidableEq, Repr

/-- R110: a frame being received: its first bytes, its time, the item placed for it, or the counter of R139 that counts
its discard at stages 5 to 9, and the bucket that part B debited (R214: the meter, and whether it was tc). -/
structure RxFrame where
  head : List Byte
  time : BitVec 64
  fid  : Option Nat
  drop : Option Nat
  stripV : Bool
  stripR : Bool
  debit : Option (Nat × Bool)
  /-- It began while the port was not UP, and is ignored whole (R133). -/
  skip : Bool
  deriving DecidableEq, Repr

/-- A frame being sent, or held (preempted: R128; in back-off: R129): its sentence and member, the bytes without FCS,
when it began (while it is preempted, the time that it was sent for), when its present fragment began, its class, whether
it carries a generated R-tag, and its egress time. -/
structure TxFrame where
  sid   : Nat
  mem   : Nat
  bytes : List Byte
  began : Nat
  frag  : Nat
  cls   : Nat
  tagged : Bool
  time  : BitVec 64
  deriving DecidableEq, Repr

structure EthPort where
  link    : Link
  lock    : Bool
  /-- R106: the speed of the in-band control word that came with the good link. -/
  peerSpeed : Option Nat
  holdAt  : Option Nat
  pauses  : List Nat
  /-- When the PFC timer of each class runs out, which an express class obeys (R121). -/
  pfcs    : List Nat
  xoffQ   : List Bool
  xoffAll : Bool
  refreshAt : Nat
  /-- R123: PAUSE (none) and PFC frames, with their time, that wait for the frame being sent to end. -/
  ctl     : List (Option Nat × Nat)
  /-- The frames being received, the innermost first: an express frame lies inside a preempted one (R128). -/
  rx      : List RxFrame
  tx      : Option TxFrame
  held    : Option TxFrame
  verify  : Nat
  tries   : Nat
  /-- When the last verify frame was sent (R153). -/
  verifyAt : Nat
  attempts : Nat
  backoff : Bool
  beacon  : Bool
  csma    : Bool
  /-- R131: when beacons were last seen to return, the earliest moment of the next transmit opportunity, the frames that the
  present one still allows and until when the next of them may follow. -/
  beaconAt : Nat
  opAt    : Nat
  burst   : Nat
  burstTo : Nat
  /-- A sleep request of the link partner waits to be acknowledged (R137). -/
  sleepRx : Bool
  /-- When the port last came UP, and when EN was cleared while it was UP (R133). -/
  since   : Nat
  offAt   : Option Nat
  deriving DecidableEq, Repr

/-- R126: the recovery history of a stream: the newest accepted number, the accepted numbers, the last acceptance. -/
structure CbRec where
  newest : Option (BitVec 16)
  seen   : List (BitVec 16)
  at_    : Nat
  deriving DecidableEq, Repr

/-! ### Field buses (spec/05_fieldbus_talkers.md) -/

/-- R198. -/
inductive CanState where
  | active
  | passive
  | busOff
  | disabled
  deriving DecidableEq, Repr

/-- R166, R170: a transmit slot in use: the sentence and member, its first slot and slot count, when it was taken, whether
an egress time was asked for, and the payload. -/
structure CanTx where
  sid  : Nat
  mem  : Nat
  slot : Nat
  n    : Nat
  at_  : Nat
  ts   : Bool
  body : List Byte
  /-- An attempt to send it ended in an error or a lost arbitration (R171, R242). -/
  tried : Bool := false
  deriving DecidableEq, Repr

/-- R166: receive slots in use: the item, its first slot and slot count. -/
structure CanRx where
  fid  : Nat
  slot : Nat
  n    : Nat
  deriving DecidableEq, Repr

structure CanCh where
  state   : CanState
  tec     : Nat
  rec_    : Nat
  holdAt  : Option Nat
  recover : Bool
  rx      : List CanRx
  rxNext  : Nat
  tx      : List CanTx
  /-- R165: what filter dwords held before their latest writes: the moment, the dword (4k + j), the old value; oldest first. -/
  past    : List (Nat × Nat × Nat)
  /-- R166: the slots whose word 0 holds the VALID bit of a frame, in use or not. -/
  heads   : List Nat := []
  deriving DecidableEq, Repr

/-- R177: a publish buffer: the data, whether ever written, whether written since its last send, and the forwarded
sentence it was written from, which takes an egress time when it is sent (R372, R376). -/
structure LinBuf where
  data  : List Byte
  ever  : Bool
  fresh : Bool
  src   : Option (Nat × Shb)
  deriving DecidableEq, Repr

/-- R174 to R179: `slot` is the entry in force, `next` when its slot ends, `coll` the event-triggered entry whose
collision list runs, `switch` a schedule to be loaded, `range` the schedule in force, `wait` the PID of a header whose
response is awaited. -/
structure LinCh where
  slot    : Option Nat
  next    : Nat
  coll    : Option Nat
  switch  : Option (Nat × Nat)
  range   : Option (Nat × Nat)
  bufs    : SMap LinBuf
  wait    : Option Byte
  deriving DecidableEq, Repr

/-- R180 to R186: the item in progress and its first character's time, whether a CR came, what is being sent: sentence,
member, start, and the moment at which its last stop bit ends. -/
structure Uart where
  open_  : Bool
  chars  : List Byte
  time   : BitVec 64
  cr     : Bool
  tx     : Option (Nat × Nat × BitVec 64 × Nat)
  deriving DecidableEq, Repr

/-- R189, R190: what an SPI or I²C controller drives: a chip select with CPOL and CPHA, and its release; START, STOP, a byte, the
acknowledgement of a byte read (ACK, or none behind the last), bare clocks. -/
inductive BusSym where
  | select (cs mode : Nat)
  | release
  | start
  | byte (b : Byte)
  | ack (on : Bool)
  | clocks (n : Nat)
  | stop
  deriving DecidableEq, Repr

/-- R188 to R192: what a poll controller does on its bus: poll entry `k`, or write a sentence for a member, which met
`tries` NACKs before. -/
inductive BusJob where
  | poll (k : Nat)
  | write (sid mem tries : Nat)
  deriving DecidableEq, Repr

/-- R188, R191: a poll entry: how many times it came due, whether it waits, the data of its last sentence, the polls
since, and the item made of it last. -/
structure PollSt where
  count : Nat
  due   : Bool
  item  : Nat
  last  : Option (List Byte)
  since : Nat
  deriving DecidableEq, Repr

structure PollBus where
  runAt   : Option Nat
  polls   : SMap PollSt
  job     : Option BusJob
  /-- A write that met a NACK and is to be tried again (R192). -/
  again   : Option BusJob
  deriving DecidableEq, Repr

/-- R193: a line whose new level is not accepted yet: samples seen and the first of them. -/
structure Deb where
  n     : Nat
  first : Nat
  deriving DecidableEq, Repr

/-- R195: a queued change. -/
structure GpiChange where
  line  : Nat
  level : Bool
  lost  : Bool
  /-- The item that the NRM has not accepted. -/
  item  : Item
  deriving DecidableEq, Repr

structure Fbus where
  cans  : SMap CanCh
  mram  : SMap Word
  lins  : SMap LinCh
  uarts : SMap Uart
  buses : SMap PollBus
  debs  : SMap Deb
  gpiq  : List GpiChange
  lost  : BitVec 32
  deriving DecidableEq, Repr

/-! ### Virtual instances (spec/14_virtual_instances.md) -/

/-- R445: the command that runs. -/
structure InstCmd where
  op     : Nat
  target : Nat
  src    : Nat
  arg0   : BitVec 32
  arg1   : BitVec 32
  arg2   : BitVec 32
  deriving DecidableEq, Repr

/-- R449 to R453: an instance's reset or freeze under way. -/
structure InstSt where
  resetAt   : Option Nat
  cause     : Nat
  completed : Nat
  freed     : Nat
  list      : List (BitVec 14 × BitVec 16)
  freezeAt  : Option Nat
  /-- How often the class I fields of the instance have returned to their defaults (R449, R506). -/
  era       : Nat := 0
  deriving DecidableEq, Repr

structure Insts where
  cmd    : Option InstCmd
  st     : SMap InstSt
  images : List Host.Cell
  deriving DecidableEq, Repr

/-! ### Stay fabric (spec/15_stay_fabric.md) -/

/-- R493. -/
inductive StayState where
  | disabled
  | train
  | up
  | degraded
  | hold
  | down
  deriving DecidableEq, Repr

/-- R463, R475: a message for a link: its VC and hop class, the sentence copy (sentence and member) it carries, its
words, and how many of its flits are sent. A VC0 message stays until its last flit is acknowledged. -/
structure StayMsg where
  vc    : Nat
  hc    : Nat
  copy  : Option (Nat × Nat)
  words : List (BitVec 16)
  sent  : Nat
  /-- R468: the link whose receive buffer it fills until it is sent on. -/
  inl   : Option Nat := none
  /-- R489: the first moment at which it may be sent again after its link failed. -/
  after : Nat := 0
  deriving DecidableEq, Repr

/-- R463, R465: a flit that is sent and not acknowledged, with the credits it returned. -/
structure StayFlit where
  count : BitVec 8
  vc    : Nat
  kind  : Nat
  last  : Bool
  words : List (BitVec 16)
  copy  : Option (Nat × Nat)
  cvc   : Nat
  crn   : Nat
  deriving DecidableEq, Repr

/-- One link. `step` is how far training has come (R466), `cred` the credits to send for VC v and hop class h at 4v + h,
`cmax` those granted for each class of a VC, `due` the flits received on a VC whose credits are not returned yet (R468), `nak`
that flits are discarded until a replay arrives (R465), `part` the message words received on a VC, `inbox` the VC0 messages
that wait, each with the moment of its arrival (R241), `seqs` the numbers of VC3 messages by TYPE (R471), `timeReq` the
exchange under way, `replays` how often the oldest flit was replayed in a row (R485), `retrain` that a lane is retrained
(R486), `sinceAck` the good flits since the newest ACK (R465), `retryAt` when training of a refused link starts again (R467),
`peerLanes` the lanes that the peer's newest LANE_STAT marks good (R471, R485), `lost` the flits that were not acknowledged
when the link failed at `lostAt` (R489). -/
structure StayLink where
  state   : StayState
  holdAt  : Option Nat
  step    : Nat
  lanes   : BitVec 2
  peerDev : Nat
  peerMgr : Bool
  peerLevel : BitVec 8
  level   : BitVec 8
  refuse  : Nat
  asym    : BitVec 16
  cred    : List Nat
  cmax    : List Nat
  due     : List Nat
  txCount : BitVec 8
  rxCount : BitVec 8
  nak     : Bool
  unacked : List StayFlit
  queue   : List StayMsg
  part    : SMap (List (BitVec 16))
  inbox   : List (Nat × List (BitVec 16))
  seqs    : SMap (BitVec 8)
  timeReq : Option (BitVec 8 × Nat)
  replays : Nat
  retrain : Bool
  sinceAck : Nat
  retryAt : Nat
  peerLanes : BitVec 2 := 3
  lost    : List StayFlit := []
  lostAt  : Nat := 0
  deriving DecidableEq, Repr

/-- R479: a VC1 request that is outstanding, or that waits for a tag: its source, the far device, its offset and byte
enables, what it asks for, the link it left on, when it was issued, and the value of a read that completed while an earlier
write of its source to that device had not (R478). `num` tells requests apart; `high` says that a read is for the high half of
a register (R91). -/
structure StayReq where
  num   : Nat
  tag   : Option Nat
  via   : Via
  dev   : Nat
  off   : Nat
  be    : BitVec 4
  op    : ReqOp
  link  : Nat
  at_   : Nat
  got   : Option (BitVec 64)
  high  : Bool
  deriving DecidableEq, Repr

/-- R92, R482: a command that is the write or read of one named register by a source, without the source. -/
inductive NamedCmd where
  | eventInject (pg : PageRef) (data : BitVec 32)
  | pgEvtClear (pg : PageRef) (data : BitVec 32)
  | take (pg : PageRef) (act : BitVec 5)
  | drop (pg : PageRef)
  | pgLockWrite (pg : PageRef) (data : BitVec 32)
  | slotVloWrite (data : BitVec 32)
  | slotVhiWrite (data : BitVec 32)
  | recover (c : Fin 32)
  | faultAck (page : BitVec 9) (all : Bool)
  | hostSafe (key : Byte)
  | snapshot
  | domainStep (n : Fin 4)
  | portEnable (p : Fin 22)
  | portDisable (p : Fin 22)
  | sleepReq (z : Fin 8)
  | wakeReq (z : Fin 8)
  | diagStart (z : Fin 8)
  | windowFlush (n : Fin 64) (data : BitVec 32)
  | queueOff (n : Fin 64) (q : QId)
  | queueDma (n : Fin 64) (q : QId)
  | queueWindow (n : Fin 64) (q : QId)
  | dbTail (n : Fin 64) (q : QId) (idx : BitVec 16)
  | dbCqHead (n : Fin 64) (q : QId) (idx : BitVec 16)
  | sfUnblock
  | redLatchClear
  | schedSwitch (l : Fin 16) (start stop : BitVec 6)
  | requestFull
  | requestReefed
  | requestFurled
  | requestStruck
  | softReset (key : Byte)
  | kick
  | laneRetrainStart (l : Fin 4)
  | xmRetrainStart
  | engReturn
  | engRetire
  | tsWrite (data : Word)
  | settingsCommit
  | eraseOld (key : Byte)
  | openSession (target : Fin 16)
  | verify
  | write
  | close
  | abort
  | updData (data : BitVec 32)
  | updData16 (data : BitVec 16)
  | downgradePermit (key : Byte) (permit : Bool)
  | gclChange (p : Fin 16)
  | commit
  | create (target : Nat)
  | destroy (target : Nat)
  | setShare (target : Nat)
  | reset (target : Nat)
  | freeze (target : Nat)
  | thaw (target : Nat)
  | save (target : Nat)
  | restore (target : Nat)
  | copy (target : Nat)
  | imgData (write : Bool) (data : BitVec 32)
  deriving DecidableEq, Repr

/-- R51, R482, R483: what waits for the register bus while an AtomicOp holds it, or for a clock: a register access of a source of
this device, a command that is the write or read of one named register by a source, an AtomicOp, or a request that came in on a
link. -/
inductive BusReq where
  | own (a : Access) (write : Bool)
  | named (via : Via) (cmd : NamedCmd)
  | atom (fn : Fin 64) (addr : Nat) (op : AtomOp) (wide : Bool)
  | far (l : Fin 4) (r : RemReq)
  deriving DecidableEq, Repr

structure Sty where
  links  : SMap StayLink
  path   : SMap (Option (Nat × Nat))
  reqs   : List StayReq
  msnTx  : SMap (BitVec 16)
  msnRx  : SMap (Option (BitVec 16))
  /-- R482: the function whose AtomicOp holds the register bus. -/
  busBy  : Option Nat
  /-- R483: what waits for the bus. -/
  busQ   : List BusReq
  /-- R501: relays seen, newest SEQ. -/
  domSeq : Option (BitVec 8)
  deriving DecidableEq, Repr

/-! ### Power, reset and the watch engine (spec/16_power_reset_retention.md) -/

/-- R495, R510: the power state, transitions included. -/
inductive Power where
  | full
  | reefed
  | enterFurled
  | furled
  | enterStruck
  | struck
  | waking
  deriving DecidableEq, Repr

/-- R502: how far the start has come. -/
inductive Boot where
  | waitRails
  | waitPll
  | waitReload
  | waitFast
  | waitFwd
  | running
  deriving DecidableEq, Repr

/-- R504: the resets that run until T0 + 100 µs (R505). -/
inductive SoftKind where
  | soft
  | watchdog
  | stay
  deriving DecidableEq, Repr

/-- R501: a wake event. -/
structure WakeEv where
  src  : Nat
  unit : Nat
  data : WakeData
  /-- R508: when it came. -/
  at_  : Nat
  deriving DecidableEq, Repr

/-- R501: a run of the watch engine. -/
structure WatchRun where
  ev   : WakeEv
  core : Core
  deriving DecidableEq, Repr

/-- R566, R571: the thresholds and the drive of the Local Host Port, in mV: input high and low, hysteresis, output high and low. -/
structure LhpPads where
  vih  : Nat
  vil  : Nat
  hyst : Nat
  voh  : Nat
  vol  : Nat
  deriving DecidableEq, Repr

/-- R566, R571: what the device sets from the level of VDDIO_HOST that it senses. A level outside both ranges counts to the
nearer one (DESIGN CHOICE, notes/assumptions/53.md). -/
def padsFor (mv : Nat) : LhpPads := if mv < 2500 then ⟨mv * 65 / 100, mv * 35 / 100, 100, mv - 450, 450⟩ else ⟨2000, 800, 200, 2400, 400⟩

structure Pwr where
  power   : Power
  /-- Entry accepted: its T0 (R497), and whether the drain of a Struck entry has ended. -/
  entryAt : Nat
  drained : Bool
  /-- How far the start has come, and the moment it runs from: WAKE_OUT's rise, then t1; the wake decision (R502, R510). -/
  boot    : Boot
  bootAt  : Nat
  /-- The state that a wake leads to, or that an entry left: 0 Full, 1 Reefed. -/
  wakeTo  : Nat
  manager : Bool
  devId   : Nat
  coreStopped   : Bool
  engineStopped : Bool
  rst     : Option (SoftKind × Nat)
  /-- R504: the moment at which a reset that the manager wrote starts. -/
  stayAt  : Option Nat
  wdogAt  : Option Nat
  wakeq   : List WakeEv
  run     : Option WatchRun
  timerAt : Option Nat
  /-- Output pins SVC_OK (R552) and WAKE_OUT (R502, R509). -/
  svcOk   : Bool
  wakeOut : Bool
  /-- Ports and other outputs stand at their safe or silent level (R509, R550). -/
  silent  : Bool
  /-- VDD_AON is out of range: nothing runs. -/
  dead    : Bool
  pads    : LhpPads
  deriving DecidableEq, Repr

/-! ### Persistence and update (spec/17_persistence_and_update.md) -/

/-- R516: a journal record: whether its CRC is good, its length in bytes, its register part by field, and its firmware part. -/
structure JRec where
  seq    : BitVec 32
  schema : BitVec 8
  good   : Bool
  len    : Nat
  regs   : SMap (BitVec 32)
  fw     : List Byte
  deriving DecidableEq, Repr

/-- R524, R531: an installed component. -/
structure Comp where
  version : BitVec 32
  digest  : BitVec 256
  prov    : BitVec 32
  valid   : Bool
  /-- R517: the schema range that Masthead firmware declares. -/
  schMin  : BitVec 8
  schMax  : BitVec 8
  /-- R513: what its region of the MRAM holds. -/
  bytes   : List Byte
  deriving DecidableEq, Repr

/-- R519: a copy of the storm-jib table: dword d of entry e at 4e + d. -/
structure SjCopy where
  gen    : BitVec 32
  good   : Bool
  ents   : SMap (BitVec 32)
  /-- R530: the SHA-256 of the component that was written there. -/
  digest : BitVec 256
  deriving DecidableEq, Repr

/-- R526, R503: the rig-image cache. -/
structure RigCache where
  bytes  : List Byte
  digest : BitVec 256
  good   : Bool
  deriving DecidableEq, Repr

/-- R537. -/
inductive SessSt where
  | idle
  | opened
  | verifying
  | verified
  | writing
  | written
  deriving DecidableEq, Repr

structure Session where
  st      : SessSt
  result  : Nat
  holder  : Nat
  target  : Nat
  bytes   : List Byte
  count   : Nat
  digest  : Option (BitVec 256)
  comp    : Nat
  at_     : Nat
  /-- What becomes of component `comp` of a write pass: 0 its bytes have not begun, 1 it is skipped, 2 it is written, 3 its
  rig image waits for a COMMIT, since `rigTry`, 4 its COMMIT was accepted, 5 the cache is being written (R526). -/
  phase   : Nat
  rigTry  : Option Nat
  /-- The bundle that was verified holds firmware. -/
  fw      : Bool
  /-- R534: the manager passes the session to this worker. -/
  relayed : Bool
  deriving DecidableEq, Repr

/-- R44: what waits for the Masthead firmware to return: a command (source code, OP, TARGET) or bundle bytes of an update
session, each with whether a control sentence brought it (R534), a 0x0203 of a worker (RESULT, STATE), and the payload of a
fault report (R547), or the erasure of old records (R518, R533). -/
inductive MhWork where
  | cmd (src op target : Nat) (relayed : Bool)
  | push (src : Nat) (relayed : Bool) (bytes : List Byte)
  | status (result state : Nat)
  | report (payload : List Nat)
  | erase
  deriving DecidableEq, Repr

structure Mst where
  journal : List JRec
  commit  : Option JRec
  /-- R531: the versions that run, by TYPE, and the running levels. -/
  run     : SMap (BitVec 32)
  levels  : BitVec 32
  schMin  : BitVec 8
  schMax  : BitVec 8
  comps   : SMap (Option Comp)
  keys    : SMap (List Byte)
  sjA     : SjCopy
  sjB     : SjCopy
  cache   : Option RigCache
  boots   : BitVec 16
  sess    : Session
  /-- R531, R533: Masthead firmware that starts at CLOSE; since when the firmware tries to apply the rig-image cache. -/
  mhNew   : Bool
  applyAt : Option Nat
  /-- R514: when the MRAM scrub falls due. -/
  scrubAt : Nat
  /-- R44: what waits for the firmware, oldest first. -/
  waits   : List MhWork
  /-- R526, R536: the cell time of the newest write of a storm-jib header, and the copy in use before it. -/
  sjWas   : Option (Nat × Option (Bool × SjCopy))
  /-- R513: the region of the Hoist loader; R515: the Masthead firmware's own settings. -/
  loader  : List Byte
  fwSet   : List Byte
  /-- R531: the ports whose PHYs have not restarted yet, and since when the port before them is down. -/
  phyq    : List Nat
  phyAt   : Nat
  /-- R526: steps 1 and 2 of a rig image that waits for its COMMIT are done. -/
  rigDone : Bool
  deriving DecidableEq, Repr

/-! ### Health (spec/18_health_and_maintenance.md) -/

/-- R541: a fault record. -/
structure FaultRec where
  index  : BitVec 16
  cls    : Nat
  page   : Nat
  cause  : Nat
  unit   : Nat
  detail : BitVec 32
  boot   : BitVec 16
  time   : Nat
  talker : BitVec 14
  seq    : BitVec 16
  rep    : Nat
  frozen : Bool
  deriving DecidableEq, Repr

structure Hlt where
  log     : SMap (Option FaultRec)
  newest  : SMap (Option (BitVec 16))
  freeze  : SMap (Option (List (BitVec 32)))
  frzNext : BitVec 16
  frzWait : List (List (BitVec 32))
  warned  : Bool
  critRun : Nat
  restarts : List Nat
  halted  : Bool
  /-- The Masthead firmware runs (R44, R502). -/
  running : Bool
  /-- The newest sample of the die temperature, in units of 0.25 °C (R553). -/
  tj      : BitVec 11
  badClock : Bool
  badSupply : Bool
  /-- R555: the chunk of the patrol scrub; R540: dwords of the table memory that are bad until they are rewritten. -/
  chunk   : Nat
  badWords : List Nat
  /-- R555: when a refused take of the patrol scrub is tried again. -/
  scrubAt : Nat
  deriving DecidableEq, Repr

/-- R81 to R84: a maintenance token on a page: activity and source, and what the last refusal left. -/
structure Maint where
  held    : Option (Nat × Nat)
  refused : Option (Nat × Nat)
  deriving DecidableEq, Repr

/-! ### What the block drives out -/

/-- What leaves the block, in order. -/
inductive Wire where
  /-- The value a read returned: LD[17:16] (LHP) and the 32 data bits. -/
  | read (via : Via) (tag : BitVec 2) (data : BitVec 32)
  /-- An Ethernet frame without FCS, and whether its FCS is good (R112). -/
  | frame (p : Nat) (bytes : List Byte) (fcs : Bool)
  /-- What was being sent at a port code is cut off (R550). -/
  | cutOff (port : Nat)
  /-- The in-band control word of SGMII and USXGMII: this speed, link up, full duplex (R106). -/
  | inBand (p : Nat) (speed : Nat)
  /-- The verify frame of the handshake of R128, and the beacon of a PLCA coordinator (R131). -/
  | verify (p : Nat)
  | beacon (p : Nat)
  /-- A jam (R132), and a TC10 pulse (R137). -/
  | jam (p : Nat)
  | tc10 (p : Nat) (wake : Bool)
  | can (c : Nat) (fmt : BitVec 16) (id : BitVec 32) (body : List Byte)
  | lin (l : Nat) (pid : Byte) (bytes : List Byte)
  /-- The level of Cn_XLM (R163). -/
  | xlm (c : Nat) (level : Bool)
  /-- Characters of a UART in UAR_CFG.FORMAT, with one or two stop bits (R180, R199). -/
  | uart (u format stops : Nat) (bytes : List Byte)
  | bus (b : Nat) (syms : List BusSym)
  /-- A posted write to host memory of a function (R404). -/
  | dma (fn : Nat) (addr : Nat) (bytes : List Byte)
  /-- A read request toward host memory. -/
  | dmaRead (fn : Nat) (addr : Nat) (len : Nat)
  | msix (fn vec : Nat) (addr : Nat) (data : BitVec 32)
  /-- A flit on a Stay link (R463): the lanes it goes on, its VC, KIND, END and words, and the credits it returns. -/
  | flit (l : Nat) (lanes : BitVec 2) (vc kind : Nat) (last : Bool) (words : List (BitVec 16)) (cvc crn : Nat)
  /-- A PCIe completion of an AtomicOp: its value, or none for a failure (R484, R98). -/
  | atomic (fn : Nat) (val : Option (BitVec 64))
  /-- R98: an AtomicOp that completes with Unsupported Request. -/
  | atomicUr (fn : Nat)
  | tso (o : Nat) (level : Bool)
  /-- R458: COPY sends the bytes of an image to a slot of a device over VC0 of a link. -/
  | image (l dev slot : Nat) (bytes : List Byte)
  deriving DecidableEq, Repr

/-! ### The whole block -/

/-- Everything but the queue of commands. -/
structure Dev where
  regs   : SMap (BitVec 32)
  now    : Nat
  free   : Nat
  maint  : SMap Maint
  swc    : Swc
  xm     : Xm
  nrm    : Nrm
  eng    : Eng
  gwy    : Gwy
  tbu    : Tbu
  hbr    : Hbr
  eth    : SMap EthPort
  cb     : SMap CbRec
  fbus   : Fbus
  insts  : Insts
  sty    : Sty
  pwr    : Pwr
  mst    : Mst
  hlt    : Hlt
  wires  : List Wire
  deriving DecidableEq, Repr

/-- Why the block stops: no rule of the spec stops it, so this type has no member that a meaning raises (safe). -/
inductive Fault where
  /-- Raised by nothing. -/
  | none
  deriving DecidableEq, Repr

/-- Why the model has no answer. -/
inductive Refusal where
  /-- Raised by `exec` alone, for a command whose meaning is not written yet (safe). -/
  | notModelled (mnemonic : String)
  deriving DecidableEq, Repr

/-- The block and the commands that wait, first in, first out. -/
structure State where
  dev     : Dev
  pending : List Instr
  deriving DecidableEq, Repr

/-! ### Reset values -/

/-- R216, R217: a meter that no COMMIT has made VALID. -/
abbrev Meter.reset : Meter := ⟨0, 0, 0, false⟩

abbrev Flags.reset : Flags := ⟨false, false, false, false, false, false⟩

/-- R290, R308. -/
abbrev Spe.reset : Spe := ⟨.idle, 0, false, [], none, false, false, false⟩

/-- R298. -/
abbrev TalkerCtl.reset : TalkerCtl := ⟨0, 0, false⟩

/-- R339. -/
abbrev Slot.reset : Slot := ⟨0, false, false, none, (0, false)⟩

abbrev PList.reset : PList := ⟨none, none, none, none, false, [], 0, none, [], 0, []⟩

/-- R367. -/
abbrev Domain.reset : Domain := ⟨0, 0, 0, none, none, none, []⟩

/-- R419. -/
abbrev PopWin.reset : PopWin := ⟨[], [], 0, [0, 0, 0, 0], 0⟩

/-- R365. -/
abbrev Snap.reset : Snap := ⟨0, [0, 0, 0, 0]⟩

abbrev Tso.reset : Tso := ⟨0, false, false, false, (0, 0, 0), 0⟩

/-- R440. -/
abbrev HostQ.reset : HostQ := ⟨0, 0, 5, 0, 0, [], .reset, [], none, .reset, 0, [], 0, [], false, none, 0, []⟩

/-- R402: MSI-X enabled, 128-byte payloads, 512-byte read requests (PCI Express Base 4.0; notes/assumptions/9.md). -/
abbrev PcieFn.reset : PcieFn := ⟨true, false, 0, 0, 0, 2⟩

abbrev Snap64.reset : Snap64 := ⟨0, 0⟩

/-- R133, R153. -/
abbrev EthPort.reset : EthPort :=
  ⟨.disabled, false, none, none, [0, 0, 0, 0, 0, 0, 0, 0], [0, 0, 0, 0, 0, 0, 0, 0],
   [false, false, false, false, false, false, false, false], false, 0, [], [], none, none, 0, 0, 0, 0, false, false, false,
   0, 0, 0, 0, false, 0, none⟩

abbrev CbRec.reset : CbRec := ⟨none, [], 0⟩

/-- R198. -/
abbrev CanCh.reset : CanCh := ⟨.disabled, 0, 0, none, false, [], 0, [], [], []⟩

abbrev LinBuf.reset : LinBuf := ⟨[], false, false, none⟩

abbrev LinCh.reset : LinCh := ⟨none, 0, none, none, none, [], none⟩

abbrev Uart.reset : Uart := ⟨false, [], 0, false, none⟩

abbrev PollSt.reset : PollSt := ⟨0, false, 0, none, 0⟩

abbrev PollBus.reset : PollBus := ⟨none, [], none, none⟩

abbrev Deb.reset : Deb := ⟨0, 0⟩

abbrev InstSt.reset : InstSt := ⟨none, 0, 0, 0, [], none, 0⟩

/-- R256. -/
abbrev Gcl.reset : Gcl := ⟨[], 0, 0, 0, 0, 0, none, 0, false, [0, 0, 0, 0, 0, 0, 0, 0], 0⟩

/-- R493, R468. -/
abbrev StayLink.reset : StayLink :=
  ⟨.disabled, none, 0, 0, 0, false, 0, 0, 0, 0, [0, 0, 0, 0, 0, 0, 0, 0, 0, 0, 0, 0], [0, 0, 0], [0, 0, 0], 0, 0, false,
   [], [], [], [], [], none, 0, false, 0, 0, 3, [], 0⟩

abbrev Maint.reset : Maint := ⟨none, none⟩

/-- R537. -/
abbrev Session.reset : Session := ⟨.idle, 0, 0, 0, [], 0, none, 0, 0, 0, none, false, false⟩

/-- R402: a vector is masked until software unmasks it (PCI Express Base 4.0; notes/assumptions/9.md). -/
def msixReset (k : Nat) : BitVec 32 := if k % 256 < 128 ∧ k % 4 = 3 then 1 else 0

/-- R231, R243. -/
abbrev Swc.reset : Swc := ⟨[], [], [], [], [], [], [], [], [], [], 1, 1, 0, []⟩

/-- R285, R287. -/
abbrev Xm.reset : Xm := ⟨false, false, false, false, 3, 0, 0, 13, false, 0, 0, false, 0, false, 0⟩

/-- R226. -/
abbrev Nrm.reset : Nrm := ⟨[], 1, [], [], [], 0, false, none, none, [], [], 0, []⟩

abbrev Eng.reset : Eng := ⟨[], [], [], [], [], [], [], []⟩

abbrev Gwy.reset : Gwy := ⟨[], [], [], 0, 0, [], []⟩

/-- R364: from zero, at the nominal rate. -/
abbrev ClockSeg.reset : ClockSeg := ⟨0, 0, 0, 1⟩

abbrev Tbu.reset : Tbu := ⟨[], [], .reset, [], 0, 0, 0, [0, 0, 0, 0], [], [], false, false, 0, 0, 0, none, 0, []⟩

abbrev Hbr.reset : Hbr := ⟨[], [], 0, [], [], [], none, [], [], none, []⟩

abbrev Fbus.reset : Fbus := ⟨[], [], [], [], [], [], [], 0⟩

abbrev Sty.reset : Sty := ⟨[], [], [], [], [], none, [], none⟩

/-- R502, R510: power-on reset released, the rails not yet in range (notes/assumptions/4.md). -/
abbrev Pwr.reset : Pwr :=
  ⟨.full, 0, false, .waitRails, 0, 0, false, 0, false, false, none, none, none, [], none, none, false, true, true, false, padsFor 3300⟩

/-- R519: a copy never written. -/
abbrev SjCopy.reset : SjCopy := ⟨0, false, [], 0⟩

/-- R537: a device as delivered (notes/assumptions/3.md): valid firmware of version 1 and level 1, empty journal,
storm-jib table, cache and key slots. -/
abbrev Mst.reset : Mst :=
  ⟨[], none, [(1, 1), (2, 1), (3, 1), (4, 1)], 0x01010101, 1, 1,
   [(1, some ⟨1, 0, 0x01010101, true, 0, 0, []⟩), (2, some ⟨1, 0, 0, true, 0, 0, []⟩), (3, some ⟨1, 0, 0, true, 0, 0, []⟩),
    (4, some ⟨1, 0, 0x01010101, true, 1, 1, []⟩)], [], .reset, .reset, none, 0, .reset, false, none, 0, [], none, [], [], [], 0, false⟩

abbrev Hlt.reset : Hlt := ⟨[], [], [], 0, [], false, 0, [], false, false, 0, false, false, 0, [], 0⟩

/-- Every register at its reset value, every memory with nothing listed. -/
abbrev Dev.reset : Dev :=
  ⟨[], 0, 0, [], .reset, .reset, .reset, .reset, .reset, .reset, .reset, [], [], .reset, ⟨none, [], []⟩, .reset, .reset,
   .reset, .reset, []⟩

/-- The block right after reset, with no command waiting. -/
def State.reset : State := ⟨Dev.reset, []⟩

end Sys2Proof.Machine
end

