-- ==== Sys2Proof/Machine/Read.lean ====
section
/-! DEFINITION. What can be read off the state: register fields, table dwords, times, rates, and the sums over the
sentences in the block that the registers of spec/07_switch_core.md and spec/08_buffers_and_congestion.md report. -/

namespace Sys2Proof.Machine

open Sys2Proof

/-! ### Fields and tables -/

/-- The value of element `i` of a stored field on page `p`. -/
def Dev.rd (d : Dev) (p : PageId) (f : Fld) (i : Nat := 0) : Nat :=
  (SMap.get (fun _ => BitVec.ofNat 32 (f.rst.value p i)) d.regs (f.key p i)).toNat

/-- Whether a one-bit field is 1. -/
def Dev.on (d : Dev) (p : PageId) (f : Fld) (i : Nat := 0) : Bool := d.rd p f i != 0

/-- The register at `off` of page `p` has a field of which `f` holds. -/
def regHas (p : PageId) (off : Nat) (f : Fld → Bool) : Bool := (fieldsOf p).any fun x => (x.elemAt off).isSome && f x

/-- The zone of mirrors (R67). -/
def inMirrors (off : Nat) : Bool := between 0x400 0x7FF off

/-- R8, R90: the register at `off` of page `p`, or the one it mirrors, holds a word in bits 17:0. -/
def regWord (p : PageId) (off : Nat) : Bool :=
  regHas p (if inMirrors off then off + 0x800 else off) fun f =>
    f.acc == .rp || f.wid == 18 || [Reg.TBU_TSQ_LASTPOP.WORD, Reg.TBU_RING_LASTPOP.WORD, Reg.HBR_RXW_LASTPOP.WORD,
      Reg.HBR_TXCW_LASTPOP.WORD].contains f

/-- The key in the table memory of byte `a` of the image under bank `b`. -/
def tabKey (b : BitVec 2) (a : Nat) : Nat := b.toNat * 0x4000000 + a

/-- A byte of the table memory. Tables are empty until they are written (R503). -/
def Dev.tabByte (d : Dev) (b : BitVec 2) (a : Nat) : Byte := SMap.get (fun _ => 0) d.nrm.tab (tabKey b a)

/-- R5: the dword at image address `a` of bank `b`. -/
def Dev.tab32 (d : Dev) (b : BitVec 2) (a : Nat) : BitVec 32 :=
  d.tabByte b (a + 3) ++ d.tabByte b (a + 2) ++ d.tabByte b (a + 1) ++ d.tabByte b a

/-- The numbers of the entries of which a table holds bytes that are not zero. -/
def Dev.usedIn (d : Dev) (lo size n : Nat) : List Nat :=
  d.nrm.tab.foldl (fun acc x =>
    let a := x.1 % 0x4000000
    if lo ≤ a ∧ a < lo + size * n then
      (let k := (a - lo) / size; if acc.contains k then acc else acc ++ [k])
    else acc) []

/-- Put a number into an ascending list. -/
def insertNat (x : Nat) : List Nat → List Nat
  | [] => [x]
  | y :: ys => if x ≤ y then x :: y :: ys else y :: insertNat x ys

/-- R540: the key of a bad word of talker state (talker × 16 + word), and of the live word of a slot. -/
def stateKey (k : Nat) : Nat := 0x10000000 + k
def slotKey (s : Nat) : Nat := 0x20000000 + s

/-- R540: the dword at image address `a` of bank `b` holds an uncorrectable error. -/
def Dev.badAt (d : Dev) (b : BitVec 2) (a : Nat) : Bool := d.hlt.badWords.contains (tabKey b (a / 4 * 4))

/-- Bits hi:lo of a register or table dword, as a number. -/
def bitsOf {w : Nat} (x : BitVec w) (lo wid : Nat) : Nat := x.toNat / 2 ^ lo % 2 ^ wid

/-- Bit `k` of a number. -/
def bitAt (x k : Nat) : Bool := x / 2 ^ k % 2 == 1

def b2n (b : Bool) : Nat := if b then 1 else 0

/-- A number read as two's complement of `w` bits. -/
def signed (w x : Nat) : Int := if x % 2 ^ w < 2 ^ (w - 1) then (x % 2 ^ w : Nat) else ((x % 2 ^ w : Nat) : Int) - (2 ^ w : Nat)

/-- An integer as two's complement of `w` bits. -/
def unsigned (w : Nat) (x : Int) : Nat := (x % ((2 ^ w : Nat) : Int)).toNat

def listGet {α : Type} (dflt : α) : List α → Nat → α
  | [], _ => dflt
  | x :: _, 0 => x
  | _ :: xs, n + 1 => listGet dflt xs n

def listSet {α : Type} : List α → Nat → α → List α
  | [], _, _ => []
  | _ :: xs, 0, v => v :: xs
  | x :: xs, n + 1, v => x :: listSet xs n v

/-- Find by key in a list of pairs. -/
def assoc {α : Type} (k : Nat) : List (Nat × α) → Option α
  | [] => none
  | (j, v) :: m => if j = k then some v else assoc k m

def assocSet {α : Type} (k : Nat) (v : α) : List (Nat × α) → List (Nat × α)
  | [] => [(k, v)]
  | (j, w) :: m => if j = k then (k, v) :: m else (j, w) :: assocSet k v m

def assocDel {α : Type} (k : Nat) (m : List (Nat × α)) : List (Nat × α) := m.filter fun e => e.1 != k

/-- R251, R280: the value of a field at the start of this cell time. -/
def Dev.rdStart (d : Dev) (p : PageId) (f : Fld) (i : Nat := 0) : Nat :=
  if d.swc.oldCell = d.now / Config.cellTime then (assoc (f.key p i) d.swc.olds).getD (d.rd p f i) else d.rd p f i

/-! ### Time (R363, R367) -/

/-- R28: the time in the form of W7 to W4 (TNS and TFRAC). -/
def stampOf (t : Nat) : BitVec 64 := BitVec.ofNat 64 (t * 4096)

/-- Nanoseconds of a moment. -/
def nsOf (t : Nat) : Nat := t / 16

/-- R367: domain `n`'s time now, in units of 2^-44 ns. -/
def Domain.timeAt (dom : Domain) (now : Nat) : Nat :=
  (((dom.time : Int) + ((now : Int) - (dom.at_ : Int)) * ((2 ^ 40 : Nat) + signed 32 dom.rate.toNat)) %
    ((2 ^ 48 * 10 ^ 9 * 2 ^ 44 : Nat) : Int)).toNat

def Dev.dom (d : Dev) (n : Nat) : Domain := SMap.get (fun _ => .reset) d.tbu.doms n

/-- The stretch of the working clock that a moment lies in. -/
def segAt (t : Nat) : List ClockSeg → ClockSeg
  | [] => .reset
  | s :: ss => if s.from_ ≤ t then s else segAt t ss

/-- R363, R364, R392: the working clock of a stretch at a moment of it. -/
def ClockSeg.wall (s : ClockSeg) (t : Nat) : Nat :=
  s.at_ + ((((t - s.from_ : Nat) : Int) * (10 ^ 9 + s.rate)) / 10 ^ 9).toNat / s.step * s.step

/-- R363: the working clock at a moment, and now. Deadlines are kept in elapsed time, which never steps. -/
def Dev.wall (d : Dev) (t : Nat) : Nat := (segAt t d.tbu.clock).wall t
def Dev.wclk (d : Dev) : Nat := d.wall d.now

/-- The moment at which the working clock, as it runs now, has reached `w`; now when it has passed it. -/
def Dev.whenWall (d : Dev) (w : Nat) : Nat :=
  let s := segAt d.now d.tbu.clock
  if w ≤ d.wclk then d.now
  else
    let need := (w - s.at_ + s.step - 1) / s.step * s.step
    let r := (10 ^ 9 + s.rate).toNat
    max d.now (s.from_ + (need * 10 ^ 9 + r - 1) / r)

def Dev.domTime (d : Dev) (n : Nat) : Nat := (d.dom n).timeAt d.wclk

/-- A clock that a CLOCK field selects (R256, R401), in units of 2^-44 ns: 0 the working clock, 4 to 7 the domains. The reserved
values 1 to 3 select the working clock (DESIGN CHOICE, notes/assumptions/55.md). -/
def Dev.clockTime (d : Dev) (c : Nat) : Nat := if 4 ≤ c then d.domTime (c - 4) else d.wclk * 2 ^ 40

/-- R384: the instant that seconds and nanoseconds name, in units of 2^-44 ns. -/
def instantOf (sHi sLo ns : Nat) : Nat := ((sHi * 2 ^ 32 + sLo) * 10 ^ 9 + ns) * 2 ^ 44

/-! ### Ports (R35, R104) -/

def ethPage (p : Nat) : PageId := 0x070 + p
def canPage (c : Nat) : PageId := 0x090 + c
def linPage (l : Nat) : PageId := 0x0B0 + l
def uarPage (u : Nat) : PageId := 0x0C0 + u
def pollPage (b : Nat) : PageId := 0x0C8 + b
def linkPage (l : Nat) : PageId := 0x061 + l
def instPage (n : Nat) : PageId := 0x100 + n
def winPage (n : Nat) : PageId := 0x500 + n
def dbPage (n : Nat) : PageId := 0x900 + n
/-- R256: the scheduler page of an Ethernet port with gates, and which of its two ports it is. -/
def schedPage (p : Nat) : PageId := 0x038 + p / 2

/-- B0 to B3. -/
def isB (p : Nat) : Bool := Nat.ble p 3
/-- M0 to M5. -/
def isM (p : Nat) : Bool := Nat.ble 16 p && Nat.ble p 21
/-- Z0 to Z7. -/
def isT1 (p : Nat) : Bool := Nat.ble 4 p && Nat.ble p 11

def Dev.eport (d : Dev) (p : Nat) : EthPort := SMap.get (fun _ => .reset) d.eth p
def Dev.can (d : Dev) (c : Nat) : CanCh := SMap.get (fun _ => .reset) d.fbus.cans c
def Dev.lin (d : Dev) (l : Nat) : LinCh := SMap.get (fun _ => .reset) d.fbus.lins l
def Dev.uart (d : Dev) (u : Nat) : Uart := SMap.get (fun _ => .reset) d.fbus.uarts u
def Dev.bus (d : Dev) (b : Nat) : PollBus := SMap.get (fun _ => .reset) d.fbus.buses b
def Dev.spe (d : Dev) (k : Nat) : Spe := SMap.get (fun _ => .reset) d.eng.spes k
def Dev.tctl (d : Dev) (t : Nat) : TalkerCtl := SMap.get (fun _ => .reset) d.eng.ctl t
def Dev.slot (d : Dev) (s : Nat) : Slot := SMap.get (fun _ => .reset) d.gwy.slots s
def Dev.plist (d : Dev) (l : Nat) : PList := SMap.get (fun _ => .reset) d.gwy.lists l
/-- The queue of instance `n`: `q` for a receive queue, 16 + t for a transmit queue. -/
def Dev.hq (d : Dev) (n q : Nat) : HostQ := SMap.get (fun _ => .reset) d.hbr.queues (n * 32 + q)
def Dev.link (d : Dev) (l : Nat) : StayLink := SMap.get (fun _ => .reset) d.sty.links l
def Dev.gclOf (d : Dev) (p : Nat) : Gcl := SMap.get (fun _ => .reset) d.swc.gcl p
def Dev.inst (d : Dev) (n : Nat) : InstSt := SMap.get (fun _ => .reset) d.insts.st n
def Dev.meter (d : Dev) (m : Nat) : Meter := SMap.get (fun _ => .reset) d.nrm.meters m
def Dev.cell16 (d : Dev) (t : Nat) : BitVec 16 := SMap.get (fun _ => 0) d.nrm.seqs t

/-- R104, R141: the line rate of a port in Mbit/s. -/
def Dev.rate (d : Dev) (p : Nat) : Nat :=
  if isB p then
    (match d.rd (ethPage p) Reg.ETH_MODE.SPEED with | 0 => 1000 | 1 => 2500 | 2 => 5000 | _ => 10000)
  else if isT1 p then 100 else if isM p then 10 else 1000

/-- The time of `n` bits at a port, in units of 62.5 ps, rounded up. -/
def Dev.bitTime (d : Dev) (p n : Nat) : Nat := (n * 16000 + d.rate p - 1) / d.rate p

/-- R104: whether a combination of LANE and SPEED is listed. -/
def Dev.modeBad (d : Dev) (p : Nat) : Bool :=
  isB p && !(match d.rd (ethPage p) Reg.ETH_MODE.LANE, d.rd (ethPage p) Reg.ETH_MODE.SPEED with
    | 0, _ => true | 1, 3 => true | 2, 2 => true | 3, 1 => true | 4, 0 => true | _, _ => false)

/-- R128: preemption is active. -/
def Dev.preempting (d : Dev) (p : Nat) : Bool :=
  isB p && d.on (ethPage p) Reg.ETH_PREEMPT.EN &&
    (d.on (ethPage p) Reg.ETH_PREEMPT.VERIFY_DIS || (d.eport p).verify == 1)

/-- R160 to R162: the channel is kept off the bus by its settings. -/
def Dev.canBad (d : Dev) (c : Nat) : Bool :=
  let p := canPage c
  let mode := d.rd p Reg.CAN_CTRL.MODE
  let per := fun (seg1 seg2 brp : Nat) => (1 + (seg1 + 1) + (seg2 + 1)) * (brp + 1)
  let nb := per (d.rd p Reg.CAN_NBT.TSEG1) (d.rd p Reg.CAN_NBT.TSEG2) (d.rd p Reg.CAN_NBT.BRP)
  let db := per (d.rd p Reg.CAN_DBT.TSEG1) (d.rd p Reg.CAN_DBT.TSEG2) (d.rd p Reg.CAN_DBT.BRP)
  let xb := per (d.rd p Reg.CAN_XBT.TSEG1) (d.rd p Reg.CAN_XBT.TSEG2) (d.rd p Reg.CAN_XBT.BRP)
  let nOk := d.rd p Reg.CAN_NBT.TSEG1 ≥ 1 && d.rd p Reg.CAN_NBT.SJW ≤ d.rd p Reg.CAN_NBT.TSEG2 &&
    Nat.ble 80 nb && Nat.ble nb 640
  let dOk := d.rd p Reg.CAN_DBT.SJW ≤ d.rd p Reg.CAN_DBT.TSEG2 && Nat.ble 10 db && Nat.ble db nb &&
    (Nat.ble 80 db || d.on p Reg.CAN_DBT.TDC_EN)
  let xOk := d.rd p Reg.CAN_XBT.SJW ≤ d.rd p Reg.CAN_XBT.TSEG2 && Nat.ble 4 xb && Nat.ble xb 40 &&
    d.on p Reg.CAN_XBT.TDC_EN
  mode == 3 || (mode == 2 && Nat.ble 8 c) || !nOk || ((mode == 0 || mode == 2) && !dOk) || (mode == 2 && !xOk)

/-! ### Sentences and cells -/

def Dev.sen (d : Dev) (sid : Nat) : Option Sen := assoc sid d.swc.sens
def Dev.acct (d : Dev) (a : Nat) : Option Acct := assoc a d.swc.accts

/-- R20: payload words of a length. -/
def payWords (len : Nat) : Nat := max 1 ((len + 1) / 2)

/-- R47: cells of a sentence of payload length `len`. -/
def cellsFor (len : Nat) : Nat := (8 + payWords len + 31) / 32

def CellAt.onChip : CellAt → Nat
  | .chip _ => 1 | .spilling _ _ => 1 | .ext _ => 0 | .fetching _ _ => 1

def CellAt.outside : CellAt → Nat
  | .chip _ => 0 | .spilling _ _ => 1 | .ext _ => 1 | .fetching _ _ => 1

def sumOf {α : Type} (f : α → Nat) : List α → Nat
  | [] => 0
  | x :: xs => f x + sumOf f xs

def Sen.admitted (s : Sen) : Bool := s.waits.isNone

/-- R255, R279: loss records and mirror copies are charged to no instance and are no sentences of one. -/
def Sen.ofInst (s : Sen) (n : Nat) : Bool :=
  (match s.what with | .sentence => true | .ended => true | _ => false) && s.shb.inst.toNat == n

/-- R260: free on-chip cells, the reserve of R279 excluded. -/
def Dev.chipFree (d : Dev) : Nat :=
  (Config.onChipCells - Config.reserveCells) -
    sumOf (fun e => if e.2.admitted && !e.2.reserve then sumOf CellAt.onChip e.2.cells else 0) d.swc.sens

/-- R283: external cells are in use. -/
def Dev.xmOn (d : Dev) : Bool := d.xm.ready && d.on 0x040 Reg.BUF_XM_CFG.EN

/-- R284: free external cells. -/
def Dev.extFree (d : Dev) : Nat :=
  if d.xmOn then d.xm.cellsMi * 2 ^ 20 -
    sumOf (fun e => if e.2.admitted then sumOf CellAt.outside e.2.cells else 0) d.swc.sens else 0

/-- R260: the free count of the pool. -/
def Dev.poolFree (d : Dev) : Nat := d.chipFree + d.extFree

/-- R279: free cells of the reserve. -/
def Dev.reserveFree (d : Dev) : Nat :=
  Config.reserveCells - sumOf (fun e => if e.2.admitted && e.2.reserve then e.2.cells.length else 0) d.swc.sens

/-- R267: the cells a sentence is charged in set `e`: once, however many of its copies the set holds. -/
def Dev.chargeIn (d : Dev) (e : Nat) (x : Nat × Sen) : Nat :=
  if !x.2.reserve && d.swc.copies.any fun c => c.sid == x.1 && c.set == e then x.2.cells.length else 0

/-- R266: cells charged to set `e`. -/
def Dev.setDepth (d : Dev) (e : Nat) : Nat := sumOf (d.chargeIn e) d.swc.sens

/-- R266: cells of class `k` charged to set `e`. -/
def Dev.classDepth (d : Dev) (e k : Nat) : Nat :=
  sumOf (fun x => if x.2.shb.cls.toNat == k then d.chargeIn e x else 0) d.swc.sens

/-- R267: cells charged to instance `n`. -/
def Dev.instUse (d : Dev) (n : Nat) : Nat :=
  sumOf (fun e => if e.2.admitted && e.2.ofInst n && !e.2.reserve then e.2.cells.length else 0) d.swc.sens

/-- R269, R447: instance `n` uses more than its quota. -/
def Dev.overQuota (d : Dev) (n : Nat) : Bool :=
  let q := d.rd (instPage n) Reg.INST_QUOTA.QUOTA
  q != 0 && decide (q < d.instUse n)

/-- R449, R451: host-posted sentences of `n` handed on and not settled (INFLIGHT), since the field last returned to its
default. -/
def Dev.inflight (d : Dev) (n : Nat) : Nat :=
  let isHost := fun (o : Origin) => match o with | .host m _ _ _ _ era => m == n && era == (d.inst n).era | _ => false
  sumOf (fun e => b2n (isHost e.2.org)) d.swc.accts + sumOf (fun i => b2n (isHost i.org)) d.nrm.items

/-- Words of a sentence of payload length `len` (R20). -/
def sentenceSize (len : Nat) : Nat := 8 + payWords len

/-- R418: words of the store of a queue. -/
def HostQ.cap (h : HostQ) : Nat := 256 * h.units

/-- Words in a pop window. -/
def PopWin.words (w : PopWin) : Nat := w.cur.length + sumOf (fun x => x.2.length) w.items

/-- A descriptor's buffer address, and D2 bits 15:0 (R412, R415). -/
def descAddr (x : Desc) : Nat := x.d0.toNat + 2 ^ 32 * x.d1.toNat
def descSize (x : Desc) : Nat := bitsOf x.d2 0 16

/-- R416: how many buffers `k` bytes fill, if there are enough. -/
def buffersFor : List Desc → Nat → Option Nat
  | _, 0 => some 0
  | [], _ + 1 => none
  | x :: xs, k + 1 => (buffersFor xs (k + 1 - descSize x)).map (· + 1)

/-- The set of receive queue `q` of instance `n` (R407). -/
def rxSet (n q : Nat) : Nat := 0x100 + 16 * n + q

/-- The copies that are being moved into receive queue `q`, with their sentences. -/
def Dev.rxMoving (d : Dev) (n q : Nat) : List (Copy × Sen) :=
  d.swc.copies.filterMap fun c =>
    if c.set = rxSet n q ∧ c.place = .medium then (d.sen c.sid).map fun s => (c, s) else none

/-- R418: words of the store of receive window `q` that are taken. -/
def Dev.rxUsed (d : Dev) (n q : Nat) : Nat :=
  (d.hq n q).win.words + sumOf (fun x => sentenceSize x.2.body.length) (d.rxMoving n q)

/-- R417, R440: receive queue `q` has no buffers, or no store room, for a sentence of `k` payload bytes. -/
def Dev.rxStarved (d : Dev) (n q k : Nat) : Bool :=
  let h := d.hq n q
  match h.mode with
  | 1 => (buffersFor h.descs (16 + k)).isNone
  | 2 => decide (h.cap < d.rxUsed n q + sentenceSize k)
  | _ => false

/-- R418: window units that enabled queues of `n` take. -/
def Dev.winUse (d : Dev) (n : Nat) : Nat :=
  sumOf (fun q => let h := d.hq n q; if h.mode == 2 && !h.stopped then h.units else 0) (List.range 24)

/-- R443, R462: the instances that exist. -/
def Dev.instCount (d : Dev) : Nat := sumOf (fun n => b2n (d.on (instPage n) Reg.INST_STAT.EXISTS)) (List.range 64)

/-- R447: window units that instance `n` holds: its reservation, or what its queues took before it was lowered. -/
def Dev.winHeld (d : Dev) (n : Nat) : Nat := max (d.rd (instPage n) Reg.INST_LIMITS.WIN_MAX) (d.winUse n)

/-- R462: window units that no instance reserves. -/
def Dev.winFree (d : Dev) : Nat := 1024 - sumOf d.winHeld (List.range 64)

/-- R248: tickets in use at an output. -/
def Dev.ticketsAt (d : Dev) (o : Nat) : Nat :=
  sumOf (fun x => if x.out == o then x.tickets.length else 0) d.swc.ctxs

def maxOf : List Nat → Nat
  | [] => 0
  | x :: xs => max x (maxOf xs)

/-- R290: engines in service. -/
def Dev.inService (d : Dev) : Nat :=
  sumOf (fun k => match (d.spe k).state with | .idle => 1 | .running => 1 | _ => 0) (List.range 72)

/-- R352: a list's item has started its lookup and is not admitted. -/
def Dev.listWaits (d : Dev) (l : Nat) : Bool :=
  match (d.plist l).held with
  | some sid => (match d.sen sid with | some s => !s.admitted | none => false)
  | none => false

/-- R352: a fired item of list `l` has not started its lookup. -/
def Dev.listHeld (d : Dev) (l : Nat) : Bool :=
  d.nrm.items.any fun i => match i.org with | .gateway k _ => k == l | _ => false

/-- R316: what a read of talker-state word `k` returns: the committed word. -/
def Dev.tsRead (d : Dev) (k : Nat) : Word := SMap.get (fun _ => 0) d.eng.ts k

/-- R338: the entry of slot `s` under bank `b` is VALID. -/
def Dev.slotInUse (d : Dev) (b : BitVec 2) (s : Nat) : Bool := bitsOf (d.tab32 b (0x2000000 + 8 * s)) 31 1 == 1

/-- R339: the validity flag of a slot reads clear while its entry is not VALID. -/
def Dev.slotValid (d : Dev) (s : Nat) : Bool := (d.slot s).valid && d.slotInUse d.nrm.active s

/-- R360: the value and the validity flag of a slot at the start of this cycle. -/
def Dev.slotSeen (d : Dev) (s : Nat) : BitVec 64 × Bool :=
  let x := d.slot s
  match x.fresh with
  | some t => if t / Config.coreCycle = d.now / Config.coreCycle then x.was else (x.value, x.valid)
  | none => (x.value, x.valid)

/-- R339: AGE of a slot. -/
def Dev.slotAge (d : Dev) (s : Nat) : Nat :=
  match (d.slot s).fresh with
  | none => 0xFFFFFF
  | some t => min 0xFFFFFF ((d.now - t) / (10 * Config.perUs))

/-- R158, R276: the item of serial number `fid` has not been accepted: it waits for its lookup, or its sentence for
admission. -/
def Dev.heldItem (d : Dev) (fid : Nat) : Bool :=
  d.nrm.items.any (fun i => i.fid == fid) || d.swc.sens.any (fun e => e.2.fid == fid &&
    (match e.2.waits with | none => false | some (.engine _) => false | some _ => true))

/-- R166: the receive slots in use. -/
def Dev.canHeld (d : Dev) (c : Nat) : List CanRx := (d.can c).rx.filter fun r => d.heldItem r.fid

/-- R166: word `w` of slot `s` of the message RAM of channel `c`; VALID of a first slot that its frame no longer uses reads 0. -/
def Dev.mramWord (d : Dev) (c s w : Nat) : Nat :=
  let x := (SMap.get (fun _ => (0 : Word)) d.fbus.mram (c * 8192 + s * 64 + w)).toNat
  let used := (d.canHeld c).any (fun r => r.slot == s) || (d.can c).tx.any (fun t => t.slot == s)
  if w = 0 ∧ (d.can c).heads.contains s = true ∧ used = false ∧ x / 2 ^ 15 % 2 = 1 then x - 2 ^ 15 else x

/-- R387: slots of a ring record. -/
def slotsOf (r : RingRec) : Nat := (r.words.length + 15) / 16

def Dev.ringSlots (d : Dev) : Nat := sumOf slotsOf d.tbu.ring

/-- R389: the capacity of the ring in force. -/
def Dev.ringCap (d : Dev) : Nat := if d.xm.extRing && d.xmOn then d.xm.extLog2 else 13

/-- R237: the present gate states of a port. -/
def Dev.gates (d : Dev) (p : Nat) : Nat :=
  let g := d.gclOf p
  if d.on (schedPage p) Reg.SWC_GCL_CTRL.GATE_EN (p % 2) && g.oper.length != 0 then
    bitsOf (listGet 0 g.oper g.index) 0 8
  else 0xFF

/-! ### Registers computed from the state -/

def Power.code : Power → Nat
  | .full => 0 | .reefed => 1 | .enterFurled => 2 | .furled => 2 | .enterStruck => 4 | .struck => 4 | .waking => 6

def Link.code : Link → Nat
  | .disabled => 0 | .down => 1 | .hold => 2 | .up => 3

def CanState.code : CanState → Nat
  | .active => 0 | .passive => 1 | .busOff => 2 | .disabled => 3

def SpeState.code : SpeState → Nat
  | .idle => 0 | .running => 1 | .quarantine => 2 | .selfTest => 3 | .retired => 4

def StayState.code : StayState → Nat
  | .disabled => 0 | .train => 1 | .up => 2 | .degraded => 3 | .hold => 4 | .down => 5

def SessSt.code : SessSt → Nat
  | .idle => 0 | .opened => 1 | .verifying => 2 | .verified => 3 | .writing => 4 | .written => 5

def boolsNat : List Bool → Nat
  | [] => 0
  | b :: bs => b2n b + 2 * boolsNat bs

/-- R123: TX_MODE of the port. -/
def Dev.txMode (d : Dev) (p : Nat) : Nat := d.rd (ethPage p) Reg.ETH_FC_CFG.TX_MODE

/-- R123: the priorities for which PFC back-pressure is raised. -/
def pfcMask (en : Nat) (all : Bool) (qs : List Bool) : Nat := Nat.land en (if all then 255 else boolsNat qs)

/-- R148: the queues for which port `p` raises back-pressure. In the modes without queues, PAUSE and collision back-pressure among
them, none is shown (DESIGN CHOICE, notes/assumptions/51.md). -/
def Dev.xoffMask (d : Dev) (p : Nat) : Nat :=
  if d.txMode p = 2 then pfcMask (d.rd (ethPage p) Reg.ETH_FC_CFG.PFC_EN) (d.eport p).xoffAll (d.eport p).xoffQ else 0

/-- R65: the block code of a page. -/
def blockCode (p : PageId) : Nat :=
  if 0x100 ≤ p then 0x13
  else if p ≤ 0x007 then 0x01 else if p ≤ 0x00F then 0x02 else if p ≤ 0x01F then 0x03 else if p ≤ 0x027 then 0x04
  else if p ≤ 0x02F then 0x05 else if p ≤ 0x03F then 0x06 else if p ≤ 0x047 then 0x07 else if p ≤ 0x04F then 0x08
  else if p ≤ 0x05F then 0x09 else if p ≤ 0x067 then 0x0A else if p ≤ 0x08F then 0x0B else if p ≤ 0x0AF then 0x0C
  else if p ≤ 0x0BF then 0x0D else if p ≤ 0x0C7 then 0x0E else if p ≤ 0x0CB then 0x0F else if p ≤ 0x0CF then 0x10
  else if p ≤ 0x0D0 then 0x11 else 0x12

/-- R65: the pages that carry faults, in ascending index. -/
def blockPages : List PageId := (List.range 0x140).filter pagePresent

/-- R546: PCH_HEALTH.WORST. -/
def Dev.worst (d : Dev) : Nat := maxOf (blockPages.map fun p => d.rd p Reg.PG_FAULT.WORST)

/-- R519: the copy of the storm-jib table in use, if one is good: (is it B, the copy). -/
def Dev.sjBest (d : Dev) : Option (Bool × SjCopy) :=
  let a := d.mst.sjA
  let b := d.mst.sjB
  if a.good && b.good then (if a.gen.toNat < b.gen.toNat then some (true, b) else some (false, a))
  else if a.good then some (false, a) else if b.good then some (true, b) else none

/-- R526, R536: the storm-jib copy in use: one whose header was written in this cell time applies from the next. -/
def Dev.sjCopy (d : Dev) : Option (Bool × SjCopy) :=
  match d.mst.sjWas with
  | some (cell, old) => if cell = d.now / Config.cellTime then old else d.sjBest
  | none => d.sjBest

/-- R524: the installed component of a TYPE. -/
def Mst.comp (m : Mst) (type : Nat) : Option Comp := SMap.get (fun _ => none) m.comps type

/-- R531, R537: the running version of a TYPE; 0 when it is absent or invalid. -/
def Mst.runVersion (m : Mst) (type : Nat) : Nat :=
  match m.comp type with
  | some c => if c.valid then (SMap.get (fun _ => (0 : BitVec 32)) m.run type).toNat else 0
  | none => 0

/-- R513, R514: the journal is a ring of 2 MiB: its oldest records give way to a new one. -/
def trimJournal : List JRec → List JRec
  | [] => []
  | r :: rs => if 2 ^ 21 < sumOf (fun (x : JRec) => x.len) (r :: rs) then trimJournal rs else r :: rs

/-- R516: a settings commit that a reset or a power loss ends leaves a record that is cut short. -/
def Mst.commitCut (m : Mst) : Mst :=
  match m.commit with
  | some r => { m with journal := trimJournal (m.journal ++ [{ r with good := false }]), commit := none }
  | none => m

/-- What a reset leaves of the Masthead controller's own state: what stands in MRAM (R516, R532). -/
def Mst.restarted (m : Mst) : Mst :=
  { m.commitCut with sess := .reset, applyAt := none, waits := [], sjWas := none, phyq := [], phyAt := 0, rigDone := false }

/-- The newest good journal record (R516). -/
def newestRec : List JRec → Option JRec
  | [] => none
  | r :: rs =>
    match newestRec rs with
    | none => if r.good then some r else none
    | some s => if r.good && decide (s.seq.toNat < r.seq.toNat) then some r else some s

/-- R541: dword `i` of a record. -/
def FaultRec.dword (r : FaultRec) (i : Nat) : Nat :=
  match i with
  | 0 => r.index.toNat + r.cls * 2 ^ 16 + blockCode r.page * 2 ^ 24
  | 1 => r.page + r.cause * 2 ^ 16 + r.unit * 2 ^ 24
  | 2 => r.detail.toNat
  | 3 => r.boot.toNat
  | 4 => nsOf r.time % 2 ^ 32
  | 5 => nsOf r.time / 2 ^ 32 % 2 ^ 16 + nsOf r.time / 2 ^ 48 % 2 ^ 16 * 2 ^ 16
  | 6 => r.talker.toNat + r.seq.toNat * 2 ^ 16
  | 7 => r.rep + b2n r.frozen * 2 ^ 8
  | _ => 0

/-- R542, R544: what PCH_FLT_DATA shows. -/
def Dev.fltData (d : Dev) : Nat :=
  let i := d.rd 0x001 Reg.PCH_FLT_SEL.INDEX
  let dw := d.rd 0x001 Reg.PCH_FLT_SEL.DWORD
  if d.on 0x001 Reg.PCH_FLT_SEL.FRZ then
    match SMap.get (fun _ => none) d.hlt.freeze (i % 4096) with
    | some ws => (listGet 0 ws (dw + 8 * d.rd 0x001 Reg.PCH_FLT_SEL.PART)).toNat
    | none => 0
  else
    match SMap.get (fun _ => none) d.hlt.log (i % 1024) with
    | some r => r.dword dw
    | none => 0

/-- R473: the path of device number `n` in use: (link, which path). -/
def Dev.pathOf (d : Dev) (n : Nat) : Option (Nat × Nat) := SMap.get (fun _ => none) d.sty.path n

/-- R466: the link carries traffic. -/
def StayLink.isUp (x : StayLink) : Bool := x.state == .up || x.state == .degraded

/-- R473: the path of the entry of device `n` whose fields are `rd`: its link, and which of the three it is. -/
def Dev.pathBy (d : Dev) (rd : Fld → Nat) (n : Nat) : Option (Nat × Nat) :=
  let up := fun (l : Nat) => (d.link l).isUp
  if n = d.pwr.devId ∨ rd Reg.STY_TOPO.VALID = 0 then none
  else if up (rd Reg.STY_TOPO.PRI) then some (rd Reg.STY_TOPO.PRI, 0)
  else if rd Reg.STY_TOPO.ALT1_EN != 0 && up (rd Reg.STY_TOPO.ALT1) then some (rd Reg.STY_TOPO.ALT1, 1)
  else if rd Reg.STY_TOPO.ALT2_EN != 0 && up (rd Reg.STY_TOPO.ALT2) then some (rd Reg.STY_TOPO.ALT2, 2)
  else none

/-- R489: the link that a sentence toward device `n` chooses: an entry written in this cell time still stands as it was. -/
def Dev.linkToward (d : Dev) (n : Nat) : Option Nat :=
  let old := d.pathBy (fun f => d.rdStart 0x060 f n) n
  if old = d.pathBy (fun f => d.rd 0x060 f n) n then (d.pathOf n).map (·.1) else old.map (·.1)

/-- R578: the level events of a page that hold now. -/
def Dev.levels (d : Dev) (p : PageId) : Nat :=
  let ev := fun (b : Nat) (c : Bool) => if c then 2 ^ b else 0
  if between 0x070 0x085 p then
    let e := d.eport (p - 0x070)
    ev 21 (e.xoffAll || d.xoffMask (p - 0x070) != 0) + ev 24 (isM (p - 0x070) && e.csma)
  else if between 0x090 0x0AF p then
    let c := d.can (p - 0x090)
    ev 16 (c.state == .busOff) + ev 17 (c.state == .passive)
  else if p == 0x028 then ev 21 (d.nrm.blocked.any fun e => e.2) + ev 22 (d.nrm.meters.any fun e => e.2.red)
  else if p == 0x040 then
    ev 18 (decide (d.poolFree < d.rd 0x040 Reg.BUF_FLOOR.FLOOR 0)) + ev 19 d.xm.ready + ev 20 d.xm.fail
  else if p == 0x050 then ev 19 (decide (d.inService < 64))
  else if p == 0x020 then ev 16 (d.tbu.tsq.items.length != 0 || d.tbu.tsq.cur.length != 0) + ev 18 (d.tbu.ring.length != 0)
  else if p == 0x010 then ev 17 (!d.on 0x010 Reg.HBR_PCIE_STAT.DL_UP)
  else if p == 0x060 then
    ev 17 ((List.range 16).any fun n => d.on 0x060 Reg.STY_TOPO.VALID n && n != d.pwr.devId && (d.pathOf n).isNone)
  else if between 0x061 0x064 p then ev 18 ((d.link (p - 0x061)).state == .degraded)
  else if between 0x100 0x13F p then
    ev 17 (d.on p Reg.INST_STAT.FROZEN) + ev 19 (d.overQuota (p - 0x100))
  else if p == 0x000 then ev 21 (d.on 0x001 Reg.PCH_SAFE.ACTIVE)
  else if p == 0x008 then ev 19 (d.on 0x008 Reg.MST_FW_STAT.FALLBACK) + ev 20 (d.on 0x008 Reg.MST_FW_STAT.LOADER)
  else 0

def Dev.maintOf (d : Dev) (p : PageId) : Maint := SMap.get (fun _ => .reset) d.maint p
def Dev.snapOf (d : Dev) (src : Nat) : Snap := SMap.get (fun _ => .reset) d.tbu.snaps src

/-- R382: a periodic output's settings are refused. -/
def Dev.tsoBad (d : Dev) (o : Nat) : Bool :=
  let p := 0x022
  let per := if o = 4 then 1000000000 else d.rd p Reg.TSO_PERIOD_NS.PERIOD o
  let st := if o = 4 then 0 else d.rd p Reg.TSO_START_NS.NS o
  let hi := d.rd p Reg.TSO_HIGH_NS.HIGH o
  decide (per < 100) || hi == 0 || decide (per ≤ hi) || decide (10 ^ 9 ≤ st)

/-- R106: a port that takes its link status from an in-band control word. -/
def Dev.inBand (d : Dev) (p : Nat) : Bool :=
  let l := d.rd (ethPage p) Reg.ETH_MODE.LANE
  l == 0 || l == 4

/-- R106, R150: the link of port `p` is good, and the speed of its control word is not ETH_MODE.SPEED. -/
def Dev.speedDiffers (d : Dev) (p : Nat) : Bool :=
  d.inBand p && (d.eport p).lock && (d.eport p).peerSpeed.any fun v => v != d.rd (ethPage p) Reg.ETH_MODE.SPEED

/-- R391, R401: hops to the manager are those of a path of the topology table, none without one; the block sees only its own link
(notes/assumptions/10.md). -/
def Dev.hops (d : Dev) : Nat :=
  if d.pwr.manager || (d.pathOf 0).isNone then 0 else
  let l := d.link d.tbu.link
  if l.peerMgr then 1 else (Config.freeValue 0).toNat % 3 + 2

/-! ### Shapers (R239) -/

def Dev.slope (d : Dev) (p c : Nat) : Nat :=
  if p % 2 = 0 then d.rd (schedPage p) Reg.SWC_CBS_SLOPE_A.IDLE_SLOPE c else d.rd (schedPage p) Reg.SWC_CBS_SLOPE_B.IDLE_SLOPE c
def Dev.shaped (d : Dev) (p c : Nat) : Bool :=
  if p % 2 = 0 then d.on (schedPage p) Reg.SWC_CBS_SLOPE_A.EN c else d.on (schedPage p) Reg.SWC_CBS_SLOPE_B.EN c
def Dev.hiCredit (d : Dev) (p c : Nat) : Nat :=
  if p % 2 = 0 then d.rd (schedPage p) Reg.SWC_CBS_LIM_A.HI_CREDIT c else d.rd (schedPage p) Reg.SWC_CBS_LIM_B.HI_CREDIT c
def Dev.loCredit (d : Dev) (p c : Nat) : Nat :=
  if p % 2 = 0 then d.rd (schedPage p) Reg.SWC_CBS_LIM_A.LO_CREDIT c else d.rd (schedPage p) Reg.SWC_CBS_LIM_B.LO_CREDIT c

/-- R239: a sentence of class `c` waits in the egress queue of port `p`. The held remainder of a preempted frame is none (DESIGN
CHOICE, notes/assumptions/55.md). -/
def Dev.waitsAt (d : Dev) (p c : Nat) : Bool :=
  d.swc.copies.any fun x => x.set == p && x.place == .egress &&
    (match d.sen x.sid with | some s => s.shb.cls.toNat == c | none => false)

/-- A frame of class `c` is being sent on port `p`. -/
def Dev.sendsAt (d : Dev) (p c : Nat) : Bool := match (d.eport p).tx with | some f => f.cls == c | none => false

/-- R239: the credit of class `c` after `dt` units of 62.5 ps under the conditions that hold now, in units of
1/16,000,000 bit: a slope in kbit/s is that many units in each unit of time. -/
def Dev.creditAfter (d : Dev) (p c : Nat) (old : Int) (dt : Nat) : Int :=
  let up : Int := d.slope p c * dt
  let v : Int :=
    if !d.shaped p c then 0
    else if !bitAt (d.gates p) c then old
    else if d.sendsAt p c then old + up - ((d.rate p * 1000 * dt : Nat) : Int)
    else if d.waitsAt p c then old + up
    else if old < 0 then min 0 (old + up) else 0
  max (-((8 * d.loCredit p c * 16000000 : Nat) : Int)) (min ((8 * d.hiCredit p c * 16000000 : Nat) : Int) v)

/-- R239, R256: the present credit of class `c` of port `p`, in bits. -/
def Dev.creditNow (d : Dev) (p c : Nat) : Int :=
  d.creditAfter p c (listGet 0 (d.gclOf p).credits c) (d.now - (d.gclOf p).at_) / 16000000

/-! ### Meters (R215, R216) -/

/-- R216: a bucket level in units of 1/128,000,000 byte, of so many bytes. -/
def bucket (bytes : Nat) : Nat := bytes * 128000000

/-- R215: CBS and EBS of meter `m` under bank `b`. -/
def Dev.cbsOf (d : Dev) (b : BitVec 2) (m : Nat) : Nat := bitsOf (d.tab32 b (0x13C008 + 16 * m)) 0 20
def Dev.ebsOf (d : Dev) (b : BitVec 2) (m : Nat) : Nat := bitsOf (d.tab32 b (0x13C00C + 16 * m)) 0 20

/-- R216, R217: meter `m` with its buckets brought up to now at the rates of the active bank. What tc held above a CBS that
was lowered is cut, and goes nowhere. -/
def Dev.meterNow (d : Dev) (m : Nat) : Meter :=
  let x := d.meter m
  let b := d.nrm.active
  let d0 := d.tab32 b (0x13C000 + 16 * m)
  let dt := d.now - x.at_
  let fill := bitsOf d0 0 24 * dt
  let cap := bucket (d.cbsOf b m)
  let gain := if bitsOf d0 24 1 = 1 then fill - (cap - x.tc) else 0
  let te := x.te + bitsOf (d.tab32 b (0x13C004 + 16 * m)) 0 24 * dt + gain
  ⟨min cap (x.tc + fill), min (bucket (d.ebsOf b m)) te, d.now, x.red⟩

/-- The value of a computed field on page `p`, element `i` (modulo its width: CAN_STAT.TEC of a count above 255; DESIGN CHOICE,
notes/assumptions/55.md), for a reader of source code `src` (R92). HOLD_LEFT is rounded down to
whole microseconds (R150; DESIGN CHOICE, notes/assumptions/51.md). -/
def Dev.view (d : Dev) (v : View) (p : PageId) (i src : Nat) : Nat :=
  match v with
  | .PG_ID_BLOCK => blockCode p
  | .PG_ID_PAGE => if 0x100 ≤ p then p % 0x400 else p
  | .PG_ID_LAYOUT => 1
  | .PG_ID_SUB => p / 0x400
  | .PG_REV_STEP => 0xB1
  | .PG_REV_BLKREV => 0
  | .PG_STAT_ENABLED => b2n (d.on p Reg.PG_CTRL.EN && d.on 0x000 Reg.PCH_BOOT_STAT.FWD)
  | .PG_STAT_LOCKED => d.rd p Reg.PG_LOCK.LOCK
  | .PG_STAT_STICKY => d.rd p Reg.PG_LOCK.STICKY
  | .PG_STAT_MAINT => b2n (d.maintOf p).held.isSome
  | .PG_STAT_FAULT => b2n (d.rd p Reg.PG_FAULT.WORST != 0)
  | .PG_EVT_RAW_RAW => d.levels p
  | .PG_EVT_EN_CLR_EN => d.rd p Reg.PG_EVT_EN_SET.EN
  | .PG_MAINT_HELD => b2n (d.maintOf p).held.isSome
  | .PG_MAINT_REFUSED => b2n (d.maintOf p).refused.isSome
  | .PG_MAINT_HOLDER =>
    (match (d.maintOf p).refused, (d.maintOf p).held with | some h, _ => h.1 | none, some h => h.1 | none, none => 0)
  | .PG_MAINT_SRC =>
    (match (d.maintOf p).refused, (d.maintOf p).held with | some h, _ => h.2 | none, some h => h.2 | none, none => 0)
  | .PCH_PWR_STAT_STATE => d.pwr.power.code
  | .PCH_HEALTH_WORST => d.worst
  | .PCH_HEALTH_SAFE => d.rd 0x001 Reg.PCH_SAFE.ACTIVE
  | .PCH_HEALTH_SVC => b2n d.pwr.svcOk
  | .PCH_HEALTH_SJ => b2n d.nrm.sj
  | .PCH_FLT_BLOCKS_BLOCKS =>
    sumOf (fun b => if blockPages.any fun q => blockCode q == b + 1 && d.rd q Reg.PG_FAULT.WORST != 0 then 2 ^ b else 0)
      (List.range 19)
  | .PCH_FLT_DATA_DATA => d.fltData
  | .PCH_FLT_NEXT_FRZ_NEXT => d.hlt.frzNext.toNat
  | .MST_LEVELS_MGMT => bitsOf d.mst.levels 0 8
  | .MST_LEVELS_STAY => bitsOf d.mst.levels 8 8
  | .MST_LEVELS_SCHEMA => bitsOf d.mst.levels 16 8
  | .MST_LEVELS_PROG => bitsOf d.mst.levels 24 8
  | .MST_FW_STAT_SCHEMA_MIN => d.mst.schMin.toNat
  | .MST_FW_STAT_SCHEMA_MAX => d.mst.schMax.toNat
  | .MST_UPD_STAT_STATE => d.mst.sess.st.code
  | .MST_UPD_STAT_RESULT => d.mst.sess.result
  | .MST_UPD_STAT_HOLDER => d.mst.sess.holder
  | .MST_UPD_STAT_COMP => d.mst.sess.comp
  | .MST_UPD_BYTES_BYTES => d.mst.sess.count
  | .MST_SEC_CFG_KEYS => sumOf (fun k => if (SMap.get (fun _ => []) d.mst.keys k).length != 0 then 2 ^ k else 0) (List.range 4)
  | .MST_SET_STAT_SCHEMA => (match newestRec d.mst.journal with | some r => r.schema.toNat | none => 0)
  | .MST_SET_STAT_SEQ => (match newestRec d.mst.journal with | some r => r.seq.toNat % 65536 | none => 0)
  | .MST_COMP_VER_VERSION => d.mst.runVersion (d.rd 0x008 Reg.MST_COMP_SEL.TYPE)
  | .MST_SJ_DATA_DATA =>
    (match d.sjCopy with
      | some (_, c) => (SMap.get (fun _ => 0) c.ents
          (4 * d.rd 0x008 Reg.MST_SJ_SEL.ENTRY + d.rd 0x008 Reg.MST_SJ_SEL.DWORD)).toNat
      | none => 0)
  | .MST_SJ_STAT_COPY => (match d.sjCopy with | some (b, _) => b2n b | none => 0)
  | .MST_SJ_STAT_VALID => b2n d.sjCopy.isSome
  | .MST_SJ_STAT_GEN => (match d.sjCopy with | some (_, c) => c.gen.toNat % 65536 | none => 0)
  | .TBU_SNAP_WFRAC_FRAC => (d.snapOf src).clock % 16 * 4096
  | .TBU_SNAP_WFRAC_EPOCH => nsOf (d.snapOf src).clock / 2 ^ 48
  | .TBU_SNAP_WNS_LO_NS => nsOf (d.snapOf src).clock
  | .TBU_SNAP_WNS_HI_NS => nsOf (d.snapOf src).clock / 2 ^ 32
  | .TBU_TSQ_STAT_DEPTH => d.tbu.tsq.items.length + b2n (d.tbu.tsq.cur.length != 0)
  | .TBU_RING_STAT_SLOTS => d.ringSlots
  | .TBU_RING_STAT_CAP_LOG2 => d.ringCap
  | .TBU_TSQ_LASTPOP_WORD => (listGet 0 d.tbu.tsq.last i).toNat
  | .TBU_RING_LASTPOP_WORD => (listGet 0 d.tbu.ringLast i).toNat
  | .TBU_DOM_SNAP_S_LO_S => listGet 0 (d.snapOf src).doms i / 2 ^ 44 / 10 ^ 9
  | .TBU_DOM_SNAP_S_HI_S => listGet 0 (d.snapOf src).doms i / 2 ^ 44 / 10 ^ 9 / 2 ^ 32
  | .TBU_DOM_SNAP_NS_NS => listGet 0 (d.snapOf src).doms i / 2 ^ 44 % 10 ^ 9
  | .TBU_DOM_SNAP_FRAC_FRAC => listGet 0 (d.snapOf src).doms i / 2 ^ 28 % 65536
  | .TSO_CTRL_CFG_ERR => b2n (d.on 0x022 Reg.TSO_CTRL.EN i && d.tsoBad i)
  | .TBU_BRD_STAT_LOCKED => b2n (d.pwr.manager || d.tbu.locked)
  | .TBU_BRD_STAT_HOPS => d.hops
  | .TBU_BRD_STAT_LINK => d.tbu.link
  | .TBU_BRD_STAT_OFFSET => unsigned 16 (max (-32768) (min 32767 d.tbu.offset))
  | .NRM_COMMIT_STAT_ACTIVE => d.nrm.active.toNat
  | .NRM_COMMIT_STAT_RESYNC => b2n d.nrm.resync.isSome
  | .NRM_COMMIT_STAT_SJ_MODE => b2n d.nrm.sj
  | .NRM_SEQ_NEXT => (d.cell16 (d.rd 0x028 Reg.NRM_SEQ_SEL.TALKER)).toNat
  | .NRM_SF_STAT_BLOCKED => b2n (SMap.get (fun _ => false) d.nrm.blocked (d.rd 0x028 Reg.NRM_SF_SEL.FILTER))
  | .NRM_FM_STAT_RED_LATCH => b2n (d.meter (d.rd 0x028 Reg.NRM_FM_SEL.METER)).red
  | .NRM_FM_TC_TC => (d.meterNow (d.rd 0x028 Reg.NRM_FM_SEL.METER)).tc / 128000000
  | .NRM_FM_TE_TE => (d.meterNow (d.rd 0x028 Reg.NRM_FM_SEL.METER)).te / 128000000
  | .SWC_RESEQ_STAT_TICKETS => maxOf ((List.range 20).map d.ticketsAt)
  | .SWC_GCL_CTRL_CHANGE => b2n (d.gclOf (2 * (p - 0x038) + i)).pending.isSome
  | .SWC_GCL_STAT_PENDING => b2n (d.gclOf (2 * (p - 0x038) + i)).pending.isSome
  | .SWC_GCL_STAT_ERR => b2n (d.gclOf (2 * (p - 0x038) + i)).err
  | .SWC_GCL_STAT_INDEX => (d.gclOf (2 * (p - 0x038) + i)).index
  | .SWC_GCL_STAT_OPER_LEN => (d.gclOf (2 * (p - 0x038) + i)).oper.length
  | .SWC_GCL_STAT_GATES => d.gates (2 * (p - 0x038) + i)
  | .SWC_CBS_CREDIT_A_CREDIT => unsigned 32 (d.creditNow (2 * (p - 0x038)) i)
  | .SWC_CBS_CREDIT_B_CREDIT => unsigned 32 (d.creditNow (2 * (p - 0x038) + 1) i)
  | .SWC_GCL_OPER_A_ENTRY => (listGet 0 (d.gclOf (2 * (p - 0x038))).oper i).toNat
  | .SWC_GCL_OPER_B_ENTRY => (listGet 0 (d.gclOf (2 * (p - 0x038) + 1)).oper i).toNat
  | .BUF_POOL_STAT_FREE => d.chipFree
  | .BUF_XM_FREE_FREE => d.extFree
  | .BUF_XM_STAT_READY => b2n d.xm.ready
  | .BUF_XM_STAT_TRAINING => b2n d.xm.training
  | .BUF_XM_TRAIN_START => b2n d.xm.retrain
  | .BUF_XM_STAT_FAIL => b2n d.xm.fail
  | .BUF_EQ_DEPTH_DEPTH => d.setDepth (d.rd 0x040 Reg.BUF_EQ_SEL.SET)
  | .BUF_EQ_CLASS_DEPTH => d.classDepth (d.rd 0x040 Reg.BUF_EQ_SEL.SET) i
  | .GWY_WIN_SEG => (SMap.get (fun _ => 0) d.gwy.segs src).toNat
  | .GWY_SLOT_VLO_VALUE => (d.slot (d.rd 0x048 Reg.GWY_SLOT_SEL.SLOT)).value.toNat % 2 ^ 32
  | .GWY_SLOT_VHI_VALUE => (d.slot (d.rd 0x048 Reg.GWY_SLOT_SEL.SLOT)).value.toNat / 2 ^ 32
  | .GWY_SLOT_META_VALID => b2n (d.slotValid (d.rd 0x048 Reg.GWY_SLOT_SEL.SLOT))
  | .GWY_SLOT_META_STALE => b2n (d.slot (d.rd 0x048 Reg.GWY_SLOT_SEL.SLOT)).stale
  | .GWY_SLOT_META_AGE => d.slotAge (d.rd 0x048 Reg.GWY_SLOT_SEL.SLOT)
  | .GWY_PL_STAT_NSEQ => (d.plist (d.rd 0x048 Reg.GWY_PL_SEL.LIST)).nseq.toNat
  | .GWY_PL_STAT_HELD => b2n (d.listHeld (d.rd 0x048 Reg.GWY_PL_SEL.LIST))
  | .GWY_PL_STAT_WAITING =>
    b2n (d.listWaits (d.rd 0x048 Reg.GWY_PL_SEL.LIST))
  | .GWY_PL_STAT_DIRTY => b2n (d.plist (d.rd 0x048 Reg.GWY_PL_SEL.LIST)).dirty
  | .GWY_PL_STAT_MSGS => (d.plist (d.rd 0x048 Reg.GWY_PL_SEL.LIST)).msgs.length
  | .ENG_STAT_INSERVICE => d.inService
  | .ENG_STAT_DEGRADED => b2n (decide (d.inService < 64))
  | .ENG_SVC_RETURN => b2n ((List.range 72).any fun k => (d.spe k).returning)
  | .ENG_SVC_RETIRE => b2n ((List.range 72).any fun k => (d.spe k).retiring)
  | .ENG_STAT_RETIRED => sumOf (fun k => b2n (d.spe k).retired) (List.range 72)
  | .ENG_TS_DATA_DATA =>
    (d.tsRead (d.rd 0x050 Reg.ENG_TS_SEL.TALKER * 16 + d.rd 0x050 Reg.ENG_TS_SEL.WORD)).toNat
  | .ENG_TS_STAT_BUSY => b2n (d.eng.tsWait.length != 0)
  | .ENG_TS_STAT_LOCKED => b2n (d.tctl (d.rd 0x050 Reg.ENG_TS_SEL.TALKER)).lock
  | .ENG_CREDIT_CREDIT => unsigned 32 (SMap.get (fun _ => 0) d.eng.credits i)
  | .ENG_SPE_STAT_STATE => (d.spe i).state.code
  | .ENG_SPE_STAT_RETIRED => b2n (d.spe i).retired
  | .ENG_SPE_STAT_DEPTH => (d.spe i).deque.length
  | .ENG_SPE_STAT_FAULTS => min 3 (d.spe i).faults
  | .ENG_SPE_STAT_TALKER => (match (d.spe i).run with | some r => r.ent.talker.toNat | none => 0)
  | .STY_ID_DEV_ID => d.pwr.devId
  | .STY_ID_ROLE => b2n d.pwr.manager
  | .STY_ID_LEVEL => bitsOf d.mst.levels 8 8
  | .STY_TOPO_INUSE => (match d.pathOf i with | some (l, _) => l | none => 0)
  | .STY_TOPO_PATH => (match d.pathOf i with | some (_, k) => k | none => 0)
  | .STY_TOPO_REACH => b2n (d.pathOf i).isSome
  | .STY_LINK_STAT_STATE => (d.link (p - 0x061)).state.code
  | .STY_LINK_STAT_PEER_DEV => (d.link (p - 0x061)).peerDev
  | .STY_LINK_STAT_PEER_ROLE => b2n (d.link (p - 0x061)).peerMgr
  | .STY_LINK_STAT_LANES => (d.link (p - 0x061)).lanes.toNat
  | .STY_LINK_STAT_REFUSE => (d.link (p - 0x061)).refuse
  | .STY_LINK_STAT_PEER_LEVEL => (d.link (p - 0x061)).peerLevel.toNat
  | .STY_LINK_ASYM_ASYM => (d.link (p - 0x061)).asym.toNat
  | .ETH_FC_STAT_RX_PAUSED =>
    boolsNat ((List.range 8).map fun c => decide (d.now < listGet 0 (d.eport (p - 0x070)).pauses c))
  | .ETH_FC_STAT_TX_XOFF => d.xoffMask (p - 0x070)
  | .ETH_FC_STAT_TX_XOFF_ALL => b2n (d.eport (p - 0x070)).xoffAll
  | .ETH_LINK_STAT_STATE => (d.eport (p - 0x070)).link.code
  | .ETH_LINK_STAT_PCS_LOCK => b2n ((d.eport (p - 0x070)).lock && d.on p Reg.PG_CTRL.EN)
  | .ETH_LINK_STAT_CFG_ERR => b2n (d.modeBad (p - 0x070))
  | .ETH_LINK_STAT_SPD_MISMATCH => b2n (d.speedDiffers (p - 0x070))
  | .ETH_LINK_STAT_PREEMPT_ACTIVE => b2n (d.preempting (p - 0x070))
  | .ETH_LINK_STAT_HOLD_LEFT =>
    (match (d.eport (p - 0x070)).holdAt with | some t => (t - d.now) / Config.perUs | none => 0)
  | .ETH_PREEMPT_VERIFY_STAT =>
    if d.on p Reg.ETH_PREEMPT.EN && !d.on p Reg.ETH_PREEMPT.VERIFY_DIS then (d.eport (p - 0x070)).verify else 3
  | .ETH_MD_BURST_BEACON_SEEN => b2n (d.eport (p - 0x070)).beacon
  | .CAN_STAT_TEC => (d.can (p - 0x090)).tec
  | .CAN_STAT_REC => min 255 (d.can (p - 0x090)).rec_
  | .CAN_STAT_STATE => (d.can (p - 0x090)).state.code
  | .CAN_STAT_HOLDING => b2n (d.can (p - 0x090)).holdAt.isSome
  | .CAN_STAT_CFG_ERR => b2n (d.canBad (p - 0x090))
  | .CAN_STAT_RECOVER => b2n (d.can (p - 0x090)).recover
  | .CAN_STAT_TX_USED => sumOf (fun t => t.n) (d.can (p - 0x090)).tx
  | .CAN_MRAM_DATA_WORD => d.mramWord (p - 0x090) (d.rd p Reg.CAN_MRAM_SEL.SLOT) (d.rd p Reg.CAN_MRAM_SEL.WORD)
  | .LIN_SCHED_SWITCH => b2n (d.lin (p - 0x0B0)).switch.isSome
  | .LIN_SCHED_CUR => ((d.lin (p - 0x0B0)).slot.getD 0)
  | .INST_STAT_OVERQUOTA => b2n (d.overQuota (p - 0x100))
  | .INST_STAT_INFLIGHT => d.inflight (p - 0x100)
  | .INST_LIMITS_WEIGHT => d.rd 0x051 Reg.ENG_SHARE.WEIGHT (p - 0x100)
  | .INST_USE_CELLS => d.instUse (p - 0x100)
  | .INST_WIN_USE_UNITS => d.winUse (p - 0x100)
  | .INST_POOL_STAT_COUNT => d.instCount
  | .INST_POOL_STAT_WIN_FREE => d.winFree
  | .INST_IMG_DATA_DATA =>
    let a := d.rd 0x100 Reg.INST_IMG_SEL.SLOT * 0x400000 + d.rd 0x100 Reg.INST_IMG_SEL.DWORD * 4
    let b := fun k => (SMap.get (fun _ => (0 : Byte)) d.insts.images (a + k)).toNat
    b 0 + 256 * (b 1 + 256 * (b 2 + 256 * b 3))
  | .HBR_WIN_FLUSH_RX => 0
  | .HBR_WIN_FLUSH_TX => 0
  | .HBR_WIN_FLUSH_TXC => 0
  | .HBR_RXW_ITEMS_ITEMS => (d.hq (p - 0x500) i).win.items.length + b2n ((d.hq (p - 0x500) i).win.cur.length != 0)
  | .HBR_TXW_ITEMS_ITEMS =>
    sumOf (fun h => b2n (h.win && h.n == p - 0x500 && h.t == i)) d.hbr.ready
  | .HBR_RXW_LASTPOP_WORD => (listGet 0 (d.hq (p - 0x500) (i / 4)).win.last (i % 4)).toNat
  | .HBR_TXCW_LASTPOP_WORD => (listGet 0 (d.hq (p - 0x500) (16 + i / 4)).compl.last (i % 4)).toNat
  | .HBR_Q_STAT_WAITING =>
    let n := p - 0x900
    b2n (if i < 16 then d.swc.copies.any fun c => c.set == rxSet n i && c.place == .egress &&
        (match d.sen c.sid with | some s => d.rxStarved n i s.body.length | none => false)
      else d.swc.sens.any fun e => !e.2.admitted &&
        (match e.2.org with | .host m t _ _ _ _ => m == n && t == i - 16 | _ => false))

/-- The value of element `i` of a field on page `p`. -/
def Dev.field (d : Dev) (p : PageId) (f : Fld) (i src : Nat) : Nat :=
  match f.home with
  | .stored => d.rd p f i
  | .view v => d.view v p i src % 2 ^ f.wid
  | .acts => 0

/-- R6, R66: what a plain read of offset `off` of a present page returns; `none` where no table defines the offset. -/
def Dev.readAt (d : Dev) (p : PageId) (off src : Nat) : Option Nat :=
  (fieldsOf p).foldl (fun acc f =>
    match f.elemAt off with
    | some i => some (acc.getD 0 + d.field p f i src * 2 ^ f.lo)
    | none => acc) none

end Sys2Proof.Machine
end

