-- ==== Sys2Proof/Machine/Ops.lean ====
section
/-! DEFINITION. The operations that every meaning is written with: writing a field, counting, latching an event and
raising its interrupt request (R77 to R79, R435), maintenance tokens (R81 to R84), the write lock (R86), fault records
and the safe state (R539 to R552), free values, and the outcome of a command. -/

namespace Sys2Proof.Machine

open Sys2Proof

/-! ### Fields and counters -/

/-- Write element `i` of a stored field of page `p`, cut to the field's width. -/
def Dev.wr (d : Dev) (p : PageId) (f : Fld) (v : Nat) (i : Nat := 0) : Dev :=
  let x := BitVec.ofNat 32 (v % 2 ^ f.wid)
  { d with regs := SMap.put (fun _ => BitVec.ofNat 32 (f.rst.value p i)) d.regs (f.key p i) x }

def Dev.wrB (d : Dev) (p : PageId) (f : Fld) (b : Bool) (i : Nat := 0) : Dev := d.wr p f (b2n b) i

/-- Add to a counter that rolls over. -/
def Dev.bump (d : Dev) (p : PageId) (f : Fld) (n : Nat := 1) (i : Nat := 0) : Dev := d.wr p f (d.rd p f i + n) i

/-- R460: add to a counter that saturates. -/
def Dev.bumpSat (d : Dev) (p : PageId) (f : Fld) (n : Nat := 1) : Dev :=
  d.wr p f (min (2 ^ f.wid - 1) (d.rd p f + n))

/-- R93: add to a 64-bit counter of two fields. -/
def Dev.bump64 (d : Dev) (p : PageId) (lo hi : Fld) (n : Nat) (i : Nat := 0) : Dev :=
  let v := (d.rd p lo i + 2 ^ 32 * d.rd p hi i + n) % 2 ^ 64
  (d.wr p lo v i).wr p hi (v / 2 ^ 32) i

/-- R460: add to a 64-bit counter that saturates. -/
def Dev.bumpSat64 (d : Dev) (p : PageId) (lo hi : Fld) (n : Nat) : Dev :=
  let v := min (2 ^ 64 - 1) (d.rd p lo + 2 ^ 32 * d.rd p hi + n)
  (d.wr p lo v).wr p hi (v / 2 ^ 32)

/-- R255: cells that cross from input `a` to output `b`. -/
def Dev.countCells (d : Dev) (a b n : Nat) : Dev :=
  (d.bump64 0x030 Reg.SWC_XIN_CELLS_LO.N Reg.SWC_XIN_CELLS_HI.N n a).bump64
    0x030 Reg.SWC_XOUT_CELLS_LO.N Reg.SWC_XOUT_CELLS_HI.N n b

/-! ### Free values -/

/-- The free value that comes next (notes/assumptions/1.md). -/
def Dev.freeBits (d : Dev) : BitVec 64 := Config.freeValue (d.free + 1)

/-- Use up the free value. -/
def Dev.drawn (d : Dev) : Dev := { d with free := d.free + 1 }

/-! ### CRC-32 (R456, R519, R523) -/

/-- One bit of CRC-32 with the IEEE 802.3 polynomial, least significant bit first. -/
def crcBit (x : BitVec 32) : BitVec 32 := if x.getLsbD 0 then (x >>> 1) ^^^ 0xEDB88320 else x >>> 1

/-- One byte of it. -/
def crcByte (x : BitVec 32) (b : Byte) : BitVec 32 := (List.range 8).foldl (fun x _ => crcBit x) (x ^^^ b.setWidth 32)

/-- R456: CRC-32 as IEEE 802.3 computes it: from all ones, and inverted at the end (notes/assumptions/2.md). -/
def crc32 (bs : List Byte) : BitVec 32 := ~~~(bs.foldl crcByte 0xFFFFFFFF)

/-! ### Sources (R92) -/

/-- R92: the source code. -/
def viaCode : Via → Nat
  | .mh => 0 | .pcie _ => 1 | .lhp => 2 | .stay _ => 3

/-- R93: which reader: the Masthead controller, each PCIe function, the LHP, each requesting device. -/
def viaReader : Via → Nat
  | .mh => 0 | .pcie fn => 1 + fn.val | .lhp => 65 | .stay dev => 66 + dev.val

/-- The page that a `PageRef` names. -/
def PageRef.id (r : PageRef) : PageId := r.page.val + (if 0x100 ≤ r.page.val then 0x400 * r.sub.val else 0)

/-! ### Interrupts (R79, R402, R404, R435) -/

def Dev.emitWire (d : Dev) (w : Wire) : Dev := { d with wires := d.wires ++ [w] }

def Dev.msixWord (d : Dev) (k : Nat) : BitVec 32 := SMap.get msixReset d.hbr.msix k

def Dev.setMsix (d : Dev) (k : Nat) (v : BitVec 32) : Dev :=
  { d with hbr := { d.hbr with msix := SMap.put msixReset d.hbr.msix k v } }

/-- R404: Bus Master Enable of function `n`. -/
def Dev.bme (d : Dev) (n : Nat) : Bool := SMap.get (fun _ => false) d.hbr.bme n

/-- R77, R78: the defined event bits of a page. -/
def eventBits (p : PageId) : Nat :=
  let upTo := fun (n : Nat) => 2 ^ (n + 1) - 2 ^ 16
  31 + (
    if p = 0x000 then upTo 24 else if p = 0x001 then 0 else if p = 0x002 then upTo 16 else if p = 0x008 then upTo 21
    else if p = 0x010 then upTo 17 else if p = 0x01F then upTo 16 else if p = 0x020 then upTo 22 else if p = 0x028 then upTo 23
    else if p = 0x030 then upTo 20 else if between 0x038 0x03F p then upTo 19 else if p = 0x040 then upTo 22
    else if p = 0x048 then upTo 18 else if p = 0x050 then upTo 22 else if p = 0x060 then upTo 18
    else if between 0x061 0x064 p then upTo 20 else if between 0x070 0x085 p then upTo 24 else if between 0x090 0x0AF p then upTo 19
    else if between 0x0B0 0x0BF p then upTo 18 else if between 0x0C0 0x0CF p then upTo 17 else if p = 0x0D0 then upTo 17
    else if p = 0x100 then upTo 23 else if between 0x101 0x13F p then upTo 20 else if between 0x500 0x53F p then upTo 16
    else if between 0x900 0x93F p then upTo 17 else 0)

/-- R402: what the configuration space of function `n` holds. -/
def Dev.fn (d : Dev) (n : Nat) : PcieFn := SMap.get (fun _ => PcieFn.reset) d.hbr.fns n

/-- R402, R404, R436: the MSI-X message of vector `v` of function `n` may be sent: Bus Master Enable and MSI-X Enable are 1, and
neither the function nor the vector is masked. -/
def Dev.vecOpen (d : Dev) (n v : Nat) : Bool :=
  d.bme n && (d.fn n).msixEn && !(d.fn n).fmask && (d.msixWord (n * 256 + 4 * v + 3)).toNat % 2 == 0

/-- R402, R404: send the MSI-X message of vector `v` of function `n`, or set its pending bit. -/
def Dev.signal (d : Dev) (n v : Nat) : Dev :=
  let e := n * 256 + 4 * v
  if d.vecOpen n v then
    d.emitWire (.msix n v ((d.msixWord e).toNat + 2 ^ 32 * (d.msixWord (e + 1)).toNat) (d.msixWord (e + 2)))
  else d.setMsix (n * 256 + 128) (d.msixWord (n * 256 + 128) ||| BitVec.ofNat 32 (2 ^ v))

/-- R404: send what the pending-bit array of function `n` holds and may be sent now. -/
def Dev.flushPba (d : Dev) (n : Nat) : Dev :=
  (List.range 32).foldl (fun d v =>
    if bitAt (d.msixWord (n * 256 + 128)).toNat v && d.vecOpen n v then
      (d.setMsix (n * 256 + 128) (d.msixWord (n * 256 + 128) &&& ~~~(BitVec.ofNat 32 (2 ^ v)))).signal n v
    else d) d

/-- R435: set a bit of HBR_LHP_IRQ. -/
def Dev.lhpIrq (d : Dev) (v : Nat) : Dev :=
  d.wr 0x01F Reg.HBR_LHP_IRQ.PENDING (Nat.lor (d.rd 0x01F Reg.HBR_LHP_IRQ.PENDING) (2 ^ v))

/-- R435: a request for vector `v` of instance `n`. -/
def Dev.requestInst (d : Dev) (n v : Nat) : Dev :=
  let d := d.signal n v
  if d.rd 0x01F Reg.HBR_LHP_CFG.INST == n then d.lhpIrq v else d

/-- R435: the request of page `p`. -/
def Dev.requestPage (d : Dev) (p : PageId) : Dev :=
  if 0x100 ≤ p then d.requestInst (p % 0x400 - 0x100) 31
  else
    let b := blockCode p - 1
    let v := d.rd 0x010 Reg.HBR_IRQ_ROUTE.VECTOR b
    let d := if d.on 0x010 Reg.HBR_IRQ_ROUTE.PCIE b then d.signal 0 v else d
    if d.on 0x010 Reg.HBR_IRQ_ROUTE.LHP b then d.lhpIrq v else d

/-- R79: page `p` has a set, enabled event, and its interrupt contribution is on. -/
def Dev.wants (d : Dev) (p : PageId) : Bool :=
  Nat.land (d.rd p Reg.PG_EVT.EVT) (d.rd p Reg.PG_EVT_EN_SET.EN) != 0 && d.on p Reg.PG_CTRL.IRQ_EN

/-- Apply `f`, and raise the request of page `p` when its condition starts to hold (notes/assumptions/12.md). -/
def Dev.watching (d : Dev) (p : PageId) (f : Dev → Dev) : Dev :=
  let e := f d
  if !d.wants p && e.wants p then e.requestPage p else e

/-- R78: latch the events of `mask` in PG_EVT. -/
def Dev.latch (d : Dev) (p : PageId) (mask : Nat) : Dev :=
  if mask = 0 then d
  else d.watching p fun d => d.wr p Reg.PG_EVT.EVT (Nat.lor (d.rd p Reg.PG_EVT.EVT) mask)

/-- R78: an event occurs on page `p`. -/
def Dev.raise (d : Dev) (p : PageId) (bit : Nat) : Dev := d.latch p (2 ^ bit)

/-! ### Maintenance tokens (R81 to R84, R557) -/

/-- R557, the marks of the matrix at or above the diagonal. -/
def conflictMarks : List (Nat × Nat) :=
  [(1, 4), (2, 7), (2, 8), (3, 11), (4, 6), (4, 8), (5, 10), (6, 8), (6, 11), (7, 8), (8, 9), (10, 10), (11, 11)]

def conflicts (a b : Nat) : Bool := conflictMarks.contains (a, b) || conflictMarks.contains (b, a)

def Dev.setMaint (d : Dev) (p : PageId) (m : Maint) : Dev :=
  { d with maint := SMap.put (fun _ => Maint.reset) d.maint p m }

/-- The holder that stands in the way of activity `act` on page `p`: the page's own, else the first in page order. -/
def Dev.maintBlock (d : Dev) (p : PageId) (act : Nat) : Option (Nat × Nat) :=
  match (d.maintOf p).held with
  | some h => some h
  | none => d.maint.findSome? fun e =>
      match e.2.held with | some h => if conflicts h.1 act then some h else none | none => none

/-- R82, R83: refuse a take: name the holder, set REFUSED and MAINT_REFUSED. -/
def Dev.maintRefuse (d : Dev) (p : PageId) (h : Nat × Nat) : Dev :=
  (d.setMaint p { d.maintOf p with refused := some h }).raise p 1

/-- R83: whether the take succeeds, and the state after it. -/
def Dev.maintTake (d : Dev) (p : PageId) (act src : Nat) : Bool × Dev :=
  if act = 0 ∨ 11 < act then (false, d.maintRefuse p ((d.maintOf p).held.getD (0, 0)))
  else match d.maintBlock p act with
    | some h => (false, d.maintRefuse p h)
    | none => (true, d.setMaint p ⟨some (act, src), none⟩)

/-- R84: release the token of activity `act` on page `p`, if held. -/
def Dev.maintEnd (d : Dev) (p : PageId) (act : Nat) : Dev :=
  match (d.maintOf p).held with
  | some h => if h.1 = act then d.setMaint p { d.maintOf p with held := none } else d
  | none => d

/-- R84: whether activity `act` holds the token of page `p`. -/
def Dev.holds (d : Dev) (p : PageId) (act : Nat) : Bool :=
  match (d.maintOf p).held with | some h => h.1 == act | none => false

/-! ### The write lock (R86) -/

def Dev.locked (d : Dev) (p : PageId) : Bool := d.on p Reg.PG_LOCK.LOCK

/-- A write to page `p` that the lock discards sets LOCK_WR; otherwise `f` applies. -/
def Dev.unlocked (d : Dev) (p : PageId) (f : Dev → Dev) : Dev := if d.locked p then d.raise p 0 else f d

/-! ### Time -/

/-- A moment that a deadline names is reached. -/
def Dev.reach (d : Dev) (t : Nat) : Dev := { d with now := max d.now t }

/-- Time passes. -/
def Dev.pass (d : Dev) (units : Nat) : Dev := { d with now := d.now + units }

/-- R363, R364, R392: from now on the working clock runs from `at_` with another rate, or in another step. -/
def Dev.clockFrom (d : Dev) (at_ : Nat) (rate : Int) (step : Nat) : Dev :=
  { d with tbu := { d.tbu with clock := ⟨d.now, at_, rate, step⟩ :: d.tbu.clock } }

/-- R394: the last rate that the time domain ran at. -/
def Dev.clockRate (d : Dev) : Int :=
  match d.tbu.clock.find? fun s => s.step == 1 with | some s => s.rate | none => 0

/-- R364: the always-on domain keeps the working clock, in steps of 250 ns, with an error of up to 2 % that is not stated
(notes/assumptions/1.md). -/
def Dev.clockKept (d : Dev) : Dev :=
  d.drawn.clockFrom d.wclk (((d.freeBits.toNat % 40000001 : Nat) : Int) - 20000000) 4000

/-- R364: the time domain restarts: the working clock goes on from the value that was kept. -/
def Dev.clockRuns (d : Dev) : Dev :=
  if (segAt d.now d.tbu.clock).step = 1 then d else d.clockFrom d.wclk d.clockRate 1

/-! ### Typed parts of the state -/

def Dev.setEport (d : Dev) (p : Nat) (e : EthPort) : Dev := { d with eth := SMap.put (fun _ => .reset) d.eth p e }
def Dev.setCan (d : Dev) (c : Nat) (x : CanCh) : Dev :=
  { d with fbus := { d.fbus with cans := SMap.put (fun _ => .reset) d.fbus.cans c x } }
def Dev.setLin (d : Dev) (l : Nat) (x : LinCh) : Dev :=
  { d with fbus := { d.fbus with lins := SMap.put (fun _ => .reset) d.fbus.lins l x } }
def Dev.setUart (d : Dev) (u : Nat) (x : Uart) : Dev :=
  { d with fbus := { d.fbus with uarts := SMap.put (fun _ => .reset) d.fbus.uarts u x } }
def Dev.setBus (d : Dev) (b : Nat) (x : PollBus) : Dev :=
  { d with fbus := { d.fbus with buses := SMap.put (fun _ => .reset) d.fbus.buses b x } }
def Dev.setSpe (d : Dev) (k : Nat) (x : Spe) : Dev :=
  { d with eng := { d.eng with spes := SMap.put (fun _ => .reset) d.eng.spes k x } }
def Dev.setTctl (d : Dev) (t : Nat) (x : TalkerCtl) : Dev :=
  { d with eng := { d.eng with ctl := SMap.put (fun _ => .reset) d.eng.ctl t x } }
def Dev.setSlot (d : Dev) (s : Nat) (x : Slot) : Dev :=
  { d with gwy := { d.gwy with slots := SMap.put (fun _ => .reset) d.gwy.slots s x } }
def Dev.setPlist (d : Dev) (l : Nat) (x : PList) : Dev :=
  { d with gwy := { d.gwy with lists := SMap.put (fun _ => .reset) d.gwy.lists l x } }
def Dev.setDom (d : Dev) (n : Nat) (x : Domain) : Dev :=
  { d with tbu := { d.tbu with doms := SMap.put (fun _ => .reset) d.tbu.doms n x } }
def Dev.setHq (d : Dev) (n q : Nat) (x : HostQ) : Dev :=
  { d with hbr := { d.hbr with queues := SMap.put (fun _ => .reset) d.hbr.queues (n * 32 + q) x } }
def Dev.setLink (d : Dev) (l : Nat) (x : StayLink) : Dev :=
  { d with sty := { d.sty with links := SMap.put (fun _ => .reset) d.sty.links l x } }
def Dev.setGcl (d : Dev) (p : Nat) (x : Gcl) : Dev :=
  { d with swc := { d.swc with gcl := SMap.put (fun _ => .reset) d.swc.gcl p x } }
def Dev.setInst (d : Dev) (n : Nat) (x : InstSt) : Dev :=
  { d with insts := { d.insts with st := SMap.put (fun _ => .reset) d.insts.st n x } }
def Dev.setMeter (d : Dev) (m : Nat) (x : Meter) : Dev :=
  { d with nrm := { d.nrm with meters := SMap.put (fun _ => .reset) d.nrm.meters m x } }
def Dev.setSen (d : Dev) (sid : Nat) (x : Sen) : Dev :=
  { d with swc := { d.swc with sens := assocSet sid x d.swc.sens } }
def Dev.setAcct (d : Dev) (a : Nat) (x : Acct) : Dev :=
  { d with swc := { d.swc with accts := assocSet a x d.swc.accts } }

/-- R39: `a` is earlier than `b`. -/
def seqEarlier (a b : BitVec 16) : Bool := decide (1 ≤ (b - a).toNat) && decide ((b - a).toNat ≤ 32767)

/-! ### Device control sentences (R29, R30) -/

/-- Bytes of 16-bit words, most significant byte first (R22). -/
def wordBytes (ws : List Nat) : List Byte := ws.flatMap fun w => [BitVec.ofNat 8 (w / 256), BitVec.ofNat 8 w]

/-- R26: the bank that a sentence of the device's own carries. -/
def Dev.ownBank (d : Dev) : BitVec 2 := if d.nrm.sj then 2 else d.nrm.active

/-- R62, R452, R547: where a device control sentence of this device goes: queue INST_RPT_CFG.QUEUE of instance 0 on the
manager, or the manager, which is device 0. -/
def Dev.controlDest (d : Dev) : Dest :=
  if d.pwr.manager then .host 0 (d.rd 0x100 Reg.INST_RPT_CFG.QUEUE) else .stay 0 false 0

/-- R29: originate a device control sentence of class `cls` for `dest`. It waits to be handed on. -/
def Dev.control (d : Dev) (cls : BitVec 3) (dest : Dest) (payload : List Nat) : Dev :=
  let a : PartA := ⟨1, 0, [⟨0, dest, 0, none, none⟩], false, false, [], false⟩
  let it : Item :=
    ⟨.device, 2, 0x3FFF, cls, false, false, some d.ownBank, wordBytes payload, stampOf d.wclk, 2 * payload.length, 0, true,
     some a, d.nrm.nextFid, none⟩
  { d with nrm := { d.nrm with items := d.nrm.items ++ [it], nextFid := d.nrm.nextFid + 1 } }

/-! ### SVC_OK (R552) -/

/-- R552: every condition holds. -/
def Dev.svcHolds (d : Dev) : Bool :=
  d.on 0x000 Reg.PCH_BOOT_STAT.FWD && !d.on 0x001 Reg.PCH_SAFE.ACTIVE && !d.nrm.sj &&
  !d.on 0x008 Reg.MST_FW_STAT.FALLBACK && (d.pwr.power == .full || d.pwr.power == .reefed) &&
  !d.on 0x001 Reg.PCH_SVC.FORCE_LOW &&
  (d.rd 0x001 Reg.PCH_SVC.LEVEL == 0 || decide (d.worst < d.rd 0x001 Reg.PCH_SVC.LEVEL))

/-- R552: SVC_OK follows its conditions, and a fall sets SVC_DROP. -/
def Dev.svcFollow (d : Dev) : Dev :=
  let v := d.svcHolds
  let e := { d with pwr := { d.pwr with svcOk := v } }
  if d.pwr.svcOk && !v then e.raise 0x000 23 else e

/-! ### The outcome of a command -/

/-- R578: the pages with level events. -/
def levelPages : List PageId := blockPages.filter fun p =>
  between 0x060 0x064 p || between 0x070 0x085 p || between 0x090 0x0AF p || between 0x100 0x13F p ||
  [0x000, 0x008, 0x010, 0x020, 0x028, 0x040, 0x050].contains p

/-- Bits of `b` that are not in `a`. -/
def newBits (a b : Nat) : Nat := Nat.xor b (Nat.land a b)

/-- R578: levels whose condition starts to hold between `d` and `e` are latched. -/
def Dev.followLevels (d e : Dev) : Dev :=
  levelPages.foldl (fun e' p => e'.latch p (newBits (d.levels p) (e.levels p))) e

/-- R497, R502, R509: the clocks of the fast domains run: VDD_AON and the rails are in range and the PLLs are locked. -/
def Dev.clocked (d : Dev) : Bool :=
  !d.pwr.dead &&
  (match d.pwr.boot with | .waitRails => false | .waitPll => false | _ => true) &&
  (match d.pwr.power with | .furled => false | .struck => false | .waking => d.pwr.boot != .running | _ => true)

/-- R497: an entry to Furled or Struck is under way. -/
def Dev.entering (d : Dev) : Bool := match d.pwr.power with | .enterFurled => true | .enterStruck => true | _ => false

/-- R497, R505, R550: nothing new is taken: an entry is under way, a reset runs, or the device does not forward, as in the safe
state. -/
def Dev.shut (d : Dev) : Bool := d.entering || d.pwr.rst.isSome || d.pwr.silent

/-! ### Clocks that stop in Reefed (R49 to R51) -/

/-- R49: a Stay link holds a message, or a flit that is not acknowledged. -/
def StayLink.busy (x : StayLink) : Bool := !x.queue.isEmpty || !x.inbox.isEmpty || !x.part.isEmpty || !x.unacked.isEmpty

/-- R49: a queue of the Host Bridge holds part of an item, a record that waits, or a descriptor whose buffer is being read. -/
def HostQ.busy (q : Nat) (h : HostQ) : Bool := !h.build.isEmpty || !h.due.isEmpty || (Nat.ble 16 (q % 32) && !h.descs.isEmpty)

/-- R49: a pack list holds a firing that has not started, or an item that has not gone. -/
def PList.busy (x : PList) : Bool := !x.fire.isEmpty || !x.ready.isEmpty || x.held.isSome

/-- R49: the domain holds no sentence, cell or queued request. -/
def Dev.domEmpty (d : Dev) : ClockDom → Bool
  | .core =>
    d.swc.sens.isEmpty && d.nrm.items.isEmpty && d.eng.pending.isEmpty && d.eng.tsWait.isEmpty && d.gwy.cuts.isEmpty &&
    !(d.gwy.lists.any fun x => x.2.busy) && d.hbr.ready.isEmpty && d.hbr.held.isEmpty &&
    !(d.hbr.queues.any fun x => x.2.busy x.1) && d.sty.busBy.isNone && d.sty.reqs.isEmpty && !(d.sty.links.any fun x => x.2.busy)
  | .engine => !(d.eng.spes.any fun x => x.2.run.isSome || !x.2.deque.isEmpty)

/-- R49: it holds no register access either. -/
def Dev.domIdle (d : Dev) (dom : ClockDom) : Bool := d.domEmpty dom && d.hbr.lwait.isNone && d.sty.busQ.isEmpty

/-- R48, R49: the command that made `e` of `d` reached the logic of a clock domain: what that logic holds has changed. -/
def Dev.reached (d e : Dev) : ClockDom → Bool
  | .core => !decide (d.nrm = e.nrm) || !decide (d.swc = e.swc) || !decide (d.sty = e.sty) || !decide (d.hbr = e.hbr) ||
      !decide (d.gwy = e.gwy)
  | .engine => !decide (d.eng = e.eng)

/-- R49: an arrival for a domain whose clock is stopped restarts it. A register access waits for the restart that it causes
(DOMAIN_RESTART). -/
def Dev.restarted (d e : Dev) : Dev :=
  { e with pwr := { e.pwr with
      coreStopped := e.pwr.coreStopped && e.domEmpty .core && !(d.pwr.coreStopped && d.reached e .core)
      engineStopped := e.pwr.engineStopped && e.domEmpty .engine && !(d.pwr.engineStopped && d.reached e .engine) } }

/-- R51, R91: an access of a source enters the register bus, whose logic is of the core domain: it restarts that domain's clock
when it is stopped, and on the LHP a low half latched before is no longer that of the preceding access. -/
def Dev.entered (d : Dev) (via : Via) : Dev :=
  { d with hbr := { d.hbr with latch := if via == .lhp then none else d.hbr.latch }
           pwr := { d.pwr with coreStopped := false } }

/-- R51: an access to the engine array restarts the engine domain's clock when it is stopped. -/
def Dev.toEngines (d : Dev) : Dev := { d with pwr := { d.pwr with engineStopped := false } }

/-- R261, R283: spilling begins when the free on-chip count falls below ON, and ends when it reaches OFF. -/
def Dev.spillFollow (d : Dev) : Dev :=
  let on := d.xmOn && (decide (d.chipFree < d.rd 0x040 Reg.BUF_SPILL.ON) ||
    (d.xm.spill && decide (d.chipFree < d.rd 0x040 Reg.BUF_SPILL.OFF)))
  { d with xm := { d.xm with spill := on } }

/-- What follows the effect that made `e` of `d`: the clocks that it wakes run again, and SVC_OK, the spilling of cells and
the level events follow their conditions. -/
def Dev.closing (d e : Dev) : Dev := d.followLevels (d.restarted e).svcFollow.spillFollow

/-- The effect of a command of the always-on domain: nothing runs while VDD_AON is out of range (R509). -/
def onAon (f : Dev → Dev) (s : State) : Host.Outcome State Fault Refusal :=
  .next { s with dev := if s.dev.pwr.dead then s.dev else s.dev.closing (f s.dev) }

/-- The effect of a command of the fast domains. -/
def onDevL (f : Dev → Dev) (s : State) : Host.Outcome State Fault Refusal :=
  .next { s with dev := if s.dev.clocked then s.dev.closing (f s.dev) else s.dev }

/-! ### The register bus (R97, R99, R429, R430, R479, R482) -/

/-- R430: an LHP cycle is held. -/
def Dev.lhpHold (d : Dev) : Dev :=
  { d with hbr := { d.hbr with lwait := some (d.now + d.rd 0x01F Reg.HBR_LHP_BUS.TMO_US * Config.perUs) } }

/-- R479: a PCIe write that waits for a tag. -/
def StayReq.tagless (q : StayReq) : Bool :=
  q.tag.isNone && (match q.via with | .pcie _ => true | _ => false) && (match q.op with | .write _ => true | _ => false)

/-- R429, R430, R479: no earlier access of the source holds the PCIe posted writes, or the LHP. -/
def Dev.reaches (d : Dev) (via : Via) (write : Bool) : Bool :=
  match via with
  | .pcie _ => !write || !((d.hbr.held.any fun x => !x.lhp) || d.sty.reqs.any fun q => q.tagless)
  | .lhp => d.hbr.lwait.isNone && !(d.hbr.held.any fun x => x.lhp)
  | _ => true

/-- An access waits for the register bus, or for a clock; on the LHP it holds the cycle. -/
def Dev.awaitBus (d : Dev) (via : Via) (q : BusReq) : Dev :=
  let e := { d with sty := { d.sty with busQ := d.sty.busQ ++ [q] } }
  if via == .lhp then e.lhpHold else e

/-- R97, R99, R445: page `p` lies in the map of a source: a virtual function reaches the pages of its own instance area, a far
device the block pages and, of page 0x100, the registers of INST_CMD. -/
def viaMaps (via : Via) (p : PageId) : Bool :=
  match via with
  | .pcie fn => fn.val == 0 || p % 0x400 == 0x100 + fn.val
  | .stay _ => Nat.ble p 0x100
  | _ => true

/-- R49, R51: the clock that an access to page `p` needs is stopped. -/
def Dev.pageStopped (d : Dev) (p : PageId) : Bool := d.pwr.coreStopped || d.pwr.engineStopped && blockCode p == 9

/-- Command `i` is the write (or read) of a named register of page `p` by a source: as any access, it reaches a page of its
source's map alone, no earlier access of its source stands before it, and it waits for the register bus and for the clocks. -/
def onBusFor (write : Bool) (i : NamedCmd) (via : Via) (p : PageId) (f : Dev → Dev) : State → Host.Outcome State Fault Refusal :=
  onDevL fun d =>
    if !viaMaps via p || !d.reaches via write then d
    else if d.sty.busBy.isSome || d.pageStopped p then d.awaitBus via (.named via i)
    else f (d.entered via)

/-- The effect of the write of one named register by a source. -/
def onBus (i : NamedCmd) (via : Via) (p : PageId) (f : Dev → Dev) : State → Host.Outcome State Fault Refusal := onBusFor true i via p f

end Sys2Proof.Machine
end

