-- ==== Sys2Proof/Machine/Faults.lean ====
section
/-! DEFINITION. Fault records, their merging, the freeze ring and the page summaries (R539 to R547), what discards every
sentence in the device, and the safe state (R549, R550). -/

namespace Sys2Proof.Machine

open Sys2Proof

/-- R540: the class of a cause; 0 for a reserved code. -/
def causeClass (c : Nat) : Nat :=
  listGet 0 [0, 1, 3, 3, 2, 2, 4, 3, 1, 3, 4, 1, 4, 1, 2, 2, 4, 2, 4, 4, 4, 4, 4, 1, 5, 5, 5, 5, 5] c

/-! ### Discarding every sentence -/

/-- R195: the changes of the side-band lines wait in the always-on domain. -/
def Item.alwaysOn (i : Item) : Bool := match i.org with | .bus 0x60 => true | _ => false

/-- Every sentence of the switch core is gone; gate lists, credits and pointers stay. -/
def Swc.emptied (x : Swc) : Swc :=
  { x with sens := [], accts := [], copies := [], voq := [], prev := [], carry := [], ctxs := [] }

/-- R312: an engine that holds no sentence. -/
def Spe.emptied (x : Spe) : Spe :=
  { x with deque := [], run := none, state := if x.state == .running then .idle else x.state }

/-- R352: a list with no item held. -/
def PList.emptied (x : PList) : PList := { x with held := none, msgs := [], ready := [], fire := [] }

/-- Nothing is being received or sent. -/
def EthPort.emptied (x : EthPort) : EthPort := { x with rx := [], tx := none, held := none, backoff := false, ctl := [] }
def CanCh.emptied (x : CanCh) : CanCh := { x with rx := [], tx := [] }
def LinCh.emptied (x : LinCh) : LinCh := { x with wait := none }
def Uart.emptied (x : Uart) : Uart := { x with open_ := false, chars := [], cr := false, tx := none }
def PollBus.emptied (x : PollBus) : PollBus := { x with job := none, again := none }
def StayLink.emptied (x : StayLink) : StayLink :=
  { x with queue := x.queue.filter (fun m => m.copy.isNone), part := [], inbox := [] }

/-- The port codes at which a frame or an item is being sent. -/
def Dev.sending (d : Dev) : List Nat :=
  (List.range 22).filter (fun p => (d.eport p).tx.isSome || (d.eport p).held.isSome) ++
  ((List.range 8).filter fun u => (d.uart u).tx.isSome).map (0x50 + ·) ++
  ((List.range 8).filter fun b => (d.bus b).job.isSome).map (0x58 + ·)

/-- Every sentence in the device is discarded, with what is being received or sent, which is cut off (R505, R550). The changes
of the side-band lines wait on in the always-on queue (R195). The locks of the talkers are released, and the waiting
talker-state accesses end (R316). -/
def Dev.dropAll (d : Dev) : Dev :=
  let d := d.sending.foldl (fun (d : Dev) p => d.emitWire (.cutOff p)) d
  let ts := d.eng.tsWait.foldl (fun m x => SMap.put (fun _ => 0) m x.1 x.2.1) d.eng.ts
  let d := d.eng.tsReads.foldl (fun (d : Dev) x => d.emitWire (.read x.1 0 ((SMap.get (fun _ => (0 : Word)) ts x.2).setWidth 32))) d
  { d with
    swc := d.swc.emptied
    nrm := { d.nrm with items := d.fbus.gpiq.map fun g => g.item }
    eng := { d.eng with spes := d.eng.spes.mapVals .reset Spe.emptied, pending := [], ctl := [], tsWait := [], tsReads := [], ts := ts }
    gwy := { d.gwy with cuts := [], lists := d.gwy.lists.mapVals .reset PList.emptied }
    hbr := { d.hbr with ready := [], lwait := if d.eng.tsWait.any fun x => x.2.2 == 2 then none else d.hbr.lwait }
    eth := d.eth.mapVals .reset EthPort.emptied
    fbus := { d.fbus with cans := d.fbus.cans.mapVals .reset CanCh.emptied, lins := d.fbus.lins.mapVals .reset LinCh.emptied,
                          uarts := d.fbus.uarts.mapVals .reset Uart.emptied, buses := d.fbus.buses.mapVals .reset PollBus.emptied }
    sty := { d.sty with links := d.sty.links.mapVals .reset StayLink.emptied } }

/-- Sentences in the device: those that took a sequence number and have not ended (R548), with those that came whole over a
Stay link and wait there. -/
def Dev.sentences (d : Dev) : Nat := d.swc.accts.length + sumOf (fun x => x.2.inbox.length) d.sty.links

/-- Items in the device that are no sentences so far: those that wait for their lookup, and what is being received or waits in a
transmit window. The changes of the side-band lines stay in the always-on domain (R195). -/
def Dev.looseItems (d : Dev) : Nat :=
  (d.nrm.items.filter fun i => !i.alwaysOn && i.org != .device).length + d.hbr.ready.length +
  sumOf (fun x => (x.2.rx.filter fun f => !f.skip && f.fid.isNone).length) d.eth +
  sumOf (fun x => b2n x.2.open_) d.fbus.uarts + sumOf (fun x => b2n (!x.2.build.isEmpty)) d.hbr.queues

/-! ### The safe state -/

/-- R550: activities 0x07 and 0x08 keep their tokens. -/
def Maint.endedBySafe (m : Maint) : Maint :=
  match m.held with
  | some h => if h.1 = 7 ∨ h.1 = 8 then m else { m with held := none }
  | none => m

/-- R508, R558: an entry to Furled or Struck that is under way ends; the device stays in the state that it had. -/
def Dev.entryAborted (d : Dev) : Dev :=
  if d.entering then
    let p : Power := if d.pwr.wakeTo = 1 then .reefed else .full
    let d := { d with pwr := { d.pwr with power := p, drained := false, wakeq := [] } }
    (d.wr 0x000 Reg.PCH_PWR_STAT.RESULT 4).wr 0x000 Reg.PCH_PWR_CTRL.GO 0
  else d

/-- R550: what a link is about when its retraining ends. -/
def StayLink.calm (x : StayLink) : StayLink := { x with retrain := false }

/-- R550: an engine that the rotation or a command holds goes back into service. -/
def Spe.calm (x : Spe) : Spe :=
  { x with state := if x.rotating && x.state == .selfTest then .idle else x.state, rotating := false }

/-- R370: a step that was to apply does not. -/
def Domain.calm (x : Domain) : Domain := { x with stepAt := none }

/-- R550: an image command ends. -/
def Dev.imageCut (d : Dev) : Dev :=
  match d.insts.cmd with
  | some c =>
    if c.op = 7 ∨ c.op = 8 then
      let d := { d with insts := { d.insts with cmd := none } }.wr (instPage c.target) Reg.INST_STAT.IMG_BUSY 0
      ((d.wr 0x100 Reg.INST_CMD.GO 0).wr 0x100 Reg.INST_CMD.RESULT 7).raise 0x100 21
    else d
  | none => d

/-- R550: every maintenance activity ends, but for a settings commit and an update session. -/
def Dev.activitiesEnd (d : Dev) : Dev :=
  let xm := if d.xm.retrain then { d.xm with training := false, retrain := false } else d.xm
  let d := { d with
    maint := d.maint.mapVals .reset Maint.endedBySafe
    xm := xm
    nrm := { d.nrm with swapAt := none, resync := none }
    eng := { d.eng with spes := d.eng.spes.mapVals .reset Spe.calm }
    tbu := { d.tbu with doms := d.tbu.doms.mapVals .reset Domain.calm, stepTry := none }
    sty := { d.sty with links := d.sty.links.mapVals .reset StayLink.calm } }
  let d := (d.wr 0x028 Reg.NRM_COMMIT.GO 0).imageCut
  let d := (List.range 4).foldl (fun (d : Dev) l =>
    (d.wr (linkPage l) Reg.STY_LINK_RETRAIN.START 0).wr 0x021 Reg.TBU_DOM_STEP_CTRL.GO 0 l) d
  (List.range 8).foldl (fun (d : Dev) z => d.wr (ethPage (4 + z)) Reg.ETH_T1_CFG.DIAG_START 0) d

/-- R549, R550, R558: enter the safe state. -/
def Dev.safeState (d : Dev) (cause : Nat) : Dev :=
  let lost := d.sentences
  let d := (d.dropAll.activitiesEnd).entryAborted
  let d := { d with pwr := { d.pwr with silent := true } }
  let d := d.wr 0x001 Reg.PCH_SAFE.ACTIVE 1
  let d := d.wr 0x001 Reg.PCH_SAFE.CAUSE cause
  let d := d.wr 0x001 Reg.PCH_SAFE_LOST.COUNT lost
  d.bump 0x001 Reg.PCH.SAFE_ENTRIES

/-! ### Records -/

def Dev.logAt (d : Dev) (i : Nat) : Option FaultRec := SMap.get (fun _ => none) d.hlt.log (i % 1024)

def Dev.setLog (d : Dev) (i : Nat) (r : FaultRec) : Dev :=
  { d with hlt := { d.hlt with log := SMap.put (fun _ => none) d.hlt.log (i % 1024) (some r) } }

/-- R543: the newest record of a page, while the log still holds it. -/
def Dev.newestOf (d : Dev) (p : PageId) : Option FaultRec :=
  match SMap.get (fun _ => none) d.hlt.newest p with
  | none => none
  | some i => match d.logAt i.toNat with
    | some r => if r.index = i ∧ r.page = p then some r else none
    | none => none

/-- R544: the 64 dwords of a freeze entry: the record, the page's header, its dwords 0x040 to 0x0DC. -/
def Dev.freezeEntry (d : Dev) (r : FaultRec) : List (BitVec 32) :=
  (List.range 8).map (fun i => BitVec.ofNat 32 (r.dword i)) ++
  (List.range 56).map (fun k => BitVec.ofNat 32 ((d.readAt r.page (4 * k) 0).getD 0))

/-- R544: also write record `i` to the freeze ring, within 100 µs (FREEZE_WRITE). -/
def Dev.freezeRec (d : Dev) (i : Nat) : Dev :=
  match d.logAt i with
  | some r =>
    if r.frozen || r.index.toNat != i % 65536 then d
    else
      let r := { r with frozen := true }
      let d := d.setLog i r
      { d with hlt := { d.hlt with frzWait := d.hlt.frzWait ++ [d.freezeEntry r] } }
  | none => d

/-- R547: send the report of a record to the manager, but not in the safe state. The class of the sentence is not stated
(notes/assumptions/1.md). -/
def Dev.sendFault (d : Dev) (payload : List Nat) : Dev :=
  if d.on 0x001 Reg.PCH_SAFE.ACTIVE then d else d.drawn.control (d.freeBits.setWidth 3) (.stay 0 false 0) payload

def Dev.setWaits (d : Dev) (ws : List MhWork) : Dev := { d with mst := { d.mst with waits := ws } }

/-- R44, R547: a worker reports a record of class 0x3 or 0x4 to the manager, once its firmware runs. -/
def Dev.reportFault (d : Dev) (r : FaultRec) : Dev :=
  if !d.pwr.manager && (r.cls = 3 || r.cls = 4) then
    let payload := [0x0301, d.pwr.devId] ++ (List.range 8).flatMap fun i => [r.dword i % 65536, r.dword i / 65536 % 65536]
    if d.hlt.running then d.sendFault payload else d.setWaits (d.mst.waits ++ [.report payload])
  else d

/-- R541, R542, R545: make a record. -/
def Dev.newRecord (d : Dev) (p : PageId) (cause unit : Nat) (detail : Nat) (talker : BitVec 14) (seq : BitVec 16) : Dev :=
  let cls := causeClass cause
  let i := d.rd 0x001 Reg.PCH_FLT_NEXT.NEXT
  let r : FaultRec :=
    ⟨BitVec.ofNat 16 i, cls, p, cause, unit, BitVec.ofNat 32 detail, d.mst.boots, d.wclk, talker, seq, 0, false⟩
  let d := d.setLog i r
  let d := { d with hlt := { d.hlt with newest := SMap.put (fun _ => none) d.hlt.newest p (some (BitVec.ofNat 16 i)) } }
  let d := d.wr 0x001 Reg.PCH_FLT_NEXT.NEXT (i + 1)
  let d := d.bump 0x001 Reg.PCH.FLT_RECORDS
  let d := d.wr p Reg.PG_FAULT.WORST (max cls (d.rd p Reg.PG_FAULT.WORST))
  let d := d.wr p Reg.PG_FAULT.COUNT (min 255 (d.rd p Reg.PG_FAULT.COUNT + 1))
  let d := d.wr p Reg.PG_FAULT.LASTREC i
  let d := (d.raise p 2).raise 0x000 20
  let d := if cls = 5 then (List.range 15).foldl (fun d k => d.freezeRec (i + 65536 - 15 + k)) d else d
  let d := if 4 ≤ cls then d.freezeRec i else d
  d.reportFault ((d.logAt i).getD r)

/-- R541 to R543: a fault of cause `cause` on page `p`, unit `unit`. -/
def Dev.fault (d : Dev) (p : PageId) (cause unit : Nat) (detail : Nat := 0) (talker : BitVec 14 := 0)
    (seq : BitVec 16 := 0) : Dev :=
  let cls := causeClass cause
  let made :=
    match d.newestOf p with
    | some r =>
      if cls ≠ 5 ∧ r.cause = cause ∧ r.unit = unit ∧ d.wclk < r.time + Config.perMs ∧ r.time < d.wclk + Config.perMs then
        (d.setLog r.index.toNat { r with rep := min 255 (r.rep + 1) }).bump 0x001 Reg.PCH.FLT_MERGED
      else d.newRecord p cause unit detail talker seq
    | none => d.newRecord p cause unit detail talker seq
  if cls = 5 then made.safeState cause else made

end Sys2Proof.Machine
end

