-- ==== Sys2Proof/Machine/Sched.lean ====
section
/-! DEFINITION. Egress scheduling of the ports B0 to B3 and Z0 to Z11: gate lists (R237, R238), credit-based shapers
(R239) and their commands. Clock times are in units of 2^-44 ns. -/

namespace Sys2Proof.Machine

open Sys2Proof

/-! ### Shapers (R239) -/

/-- R239: bring the credits of port `p` up to now, before what they depend on changes. -/
def Dev.shape (d : Dev) (p : Nat) : Dev :=
  if 15 < p then d
  else
    let g := d.gclOf p
    if g.at_ = d.now then d
    else d.setGcl p { g with at_ := d.now,
                             credits := (List.range 8).map fun c => d.creditAfter p c (listGet 0 g.credits c) (d.now - g.at_) }

/-- R239: class `c` may send. -/
def Dev.creditOk (d : Dev) (p c : Nat) : Bool := !d.shaped p c || decide (0 ≤ listGet 0 (d.gclOf p).credits c)

/-! ### Gates (R237, R238) -/

/-- 2^-44 ns in a nanosecond. -/
abbrev perNs : Nat := 2 ^ 44

/-- INTERVAL and GATES of a list entry. -/
def entryNs (e : BitVec 32) : Nat := bitsOf e 8 24
def entryGates (e : BitVec 32) : Nat := bitsOf e 0 8

/-- One cycle of a list as (length in ns, gates), from `used` ns on: the last entry continues to the cycle's end, and
the end cuts off the entry in force. -/
def cycleSegs : List (BitVec 32) → Nat → List (Nat × Nat)
  | [], _ => []
  | [e], left => [(left, entryGates e)]
  | e :: es, left => if left ≤ entryNs e then [(left, entryGates e)] else (entryNs e, entryGates e) :: cycleSegs es (left - entryNs e)

/-- Drop the first `t` units of a sequence of segments (their lengths in units). -/
def dropTime : Nat → List (Nat × Nat) → List (Nat × Nat)
  | _, [] => []
  | t, (l, g) :: r => if t < l then (l - t, g) :: r else dropTime (t - l) r

/-- How long gate `c` stays open from the start of the segments; `none` when they end with it open. -/
def openFor (c : Nat) : List (Nat × Nat) → Option Nat
  | [] => none
  | (l, g) :: r => if bitAt g c then (openFor c r).map (l + ·) else some 0

def scaled (xs : List (Nat × Nat)) : List (Nat × Nat) := xs.map fun x => (x.1 * perNs, x.2)

/-- The moment, in units of elapsed time, at which a clock reaches the time `t`; now when it has passed. -/
def Dev.momentAt (d : Dev) (clk t : Nat) : Nat :=
  let u := d.clockTime clk
  if t ≤ u then d.now
  else if 4 ≤ clk then
    let r := ((2 ^ 40 : Nat) + signed 32 (d.dom (clk - 4)).rate.toNat).toNat
    d.whenWall (d.wclk + (t - u + r - 1) / r)
  else d.whenWall ((t + 2 ^ 40 - 1) / 2 ^ 40)

/-- The time of a clock at a moment to come, as it runs now. -/
def Dev.clockAt (d : Dev) (clk m : Nat) : Nat :=
  if 4 ≤ clk then (d.dom (clk - 4)).timeAt (d.wall m) else d.wall m * 2 ^ 40

/-- R237: the change time of the pending change on the clock of the operating list. -/
def Dev.changeAt (d : Dev) (g : Gcl) (at_ : Nat) : Nat :=
  if g.clock = g.clockP then at_ else d.clockAt g.clock (d.momentAt g.clockP at_)

/-- R237: how much of the time up to a change at `at_` stretches the last cycle of the operating list. -/
def Gcl.stretchTo (g : Gcl) (at_ ext : Nat) : Nat :=
  let r := (at_ - g.start) % (g.cycle * perNs)
  if decide (g.start + g.cycle * perNs ≤ at_) && decide (r < ext * perNs) then r else 0

/-- R237, R238: the moment at which gate `c` of port `p`, open now, closes: through the cycles of the operating list, if one
operates, and from a pending change on through those of the list that it brings. `none` when no end is in sight. -/
def Dev.closesAt (d : Dev) (p c : Nat) : Option Nat :=
  let g := d.gclOf p
  let u := d.clockTime g.clock
  let one := scaled (cycleSegs g.oper g.cycle)
  let old := if g.oper.isEmpty then none else (openFor c (dropTime (u - g.start) one ++ one)).map (u + ·)
  match g.pending with
  | none => old.map (d.momentAt g.clock)
  | some (at_, es, cyc, ext) =>
    let change := d.changeAt g at_
    let r := if g.oper.isEmpty then 0 else min (change - u) (g.stretchTo change ext)
    let new := scaled (cycleSegs es cyc)
    let after :=
      if r ≠ 0 ∧ bitAt (entryGates (g.oper.getLastD 0)) c = false then some (d.momentAt g.clock (change - r))
      else (openFor c (new ++ new)).map fun x => d.momentAt g.clockP (at_ + x)
    match old with
    | none => after
    | some x => if x < change - r then some (d.momentAt g.clock x) else after

/-- R238: how long gate `c` of port `p` stays open, in units of 62.5 ps; `none` without an end, 0 when it is closed. -/
def Dev.gateLeft (d : Dev) (p c : Nat) : Option Nat :=
  if !d.on (schedPage p) Reg.SWC_GCL_CTRL.GATE_EN (p % 2) then none
  else if !bitAt (d.gates p) c then some 0
  else (d.closesAt p c).map (· - d.now)

/-- R238: a frame of `n` bytes, FCS included, ends before gate `c` closes. -/
def Dev.gateFits (d : Dev) (p c n : Nat) : Bool :=
  match d.gateLeft p c with
  | none => true
  | some t => decide (0 < t) && decide (d.bitTime p (8 * (n + 8)) ≤ t)

/-! ### Gate list commands (R237) -/

def Dev.adminEntry (d : Dev) (p k : Nat) : BitVec 32 :=
  if p % 2 = 0 then
    BitVec.ofNat 32 (d.rd (schedPage p) Reg.SWC_GCL_ADMIN_A.GATES k + 256 * d.rd (schedPage p) Reg.SWC_GCL_ADMIN_A.INTERVAL k)
  else
    BitVec.ofNat 32 (d.rd (schedPage p) Reg.SWC_GCL_ADMIN_B.GATES k + 256 * d.rd (schedPage p) Reg.SWC_GCL_ADMIN_B.INTERVAL k)

/-- R237: the smallest instant base + N × cycle that is later than `t`, or the base itself. -/
def changeTime (base cyc t : Nat) : Nat := if t < base then base else base + ((t - base) / cyc + 1) * cyc

/-- R237: a write of 1 to CHANGE of port `p`. -/
def Dev.gclChange (d : Dev) (p : Nat) : Dev :=
  let pg := schedPage p
  let i := p % 2
  let n := d.rd pg Reg.SWC_GCL_CTRL.ADMIN_LEN i
  let es := (List.range n).map (d.adminEntry p)
  let cyc := d.rd pg Reg.SWC_GCL_CYCLE.CYCLE i
  let ns := d.rd pg Reg.SWC_GCL_BASE_NS.NS i
  let clk := d.rd pg Reg.SWC_GCL_CTRL.CLOCK i
  let g := d.gclOf p
  if es.any (fun e => entryNs e == 0) || n == 0 || decide (64 < n) || cyc == 0 || decide (10 ^ 9 ≤ ns) then
    (d.setGcl p { g with err := true, pending := none }).raise pg (17 + 2 * i)
  else
    let base := instantOf (d.rd pg Reg.SWC_GCL_BASE_S_HI.S i) (d.rd pg Reg.SWC_GCL_BASE_S.S i) ns
    let at_ := changeTime base (cyc * perNs) (d.clockTime clk)
    d.setGcl p { g with err := false, clockP := clk,
                        pending := some (at_, es, cyc, d.rd pg Reg.SWC_GCL_EXT.EXT i) }

/-- GCL_CHANGE (R237, R86). -/
def execGclChange (via : Via) (p : Fin 16) : State → Host.Outcome State Fault Refusal :=
  onBus (.gclChange p) via (schedPage p.val) fun d =>
  d.unlocked (schedPage p.val) fun d => d.gclChange p.val

/-- R237: the pending list of port `p` becomes the operating list. -/
def Dev.gclTime (d : Dev) (p : Nat) : Dev :=
  let g := d.gclOf p
  match g.pending with
  | none => d
  | some (at_, es, cyc, _) =>
    let d := (d.reach (d.momentAt g.clockP at_)).shape p
    let g := d.gclOf p
    (d.setGcl p { g with oper := es, cycle := cyc, clock := g.clockP, index := 0, began := at_, start := at_,
                         pending := none }).raise (schedPage p) (16 + 2 * (p % 2))

/-- R237: the end of the cycle in force: a pending change less than EXT ns after it stretches it. -/
def Dev.cycleEnd (d : Dev) (g : Gcl) : Nat :=
  let e := g.start + g.cycle * perNs
  match g.pending with
  | some (at_, _, _, ext) => if e ≤ d.changeAt g at_ ∧ d.changeAt g at_ < e + ext * perNs then d.changeAt g at_ else e
  | none => e

/-- R237: the instant at which the entry in force ends, and whether the cycle ends with it. -/
def Dev.entryEnd (d : Dev) (g : Gcl) : Nat × Bool :=
  let e := g.began + entryNs (listGet 0 g.oper g.index) * perNs
  if g.index + 1 < g.oper.length ∧ e < d.cycleEnd g then (e, false) else (d.cycleEnd g, true)

/-- R237: the next entry of the cycle, or the first of the next cycle, is in force. -/
def Dev.gclNext (d : Dev) (p : Nat) : Dev :=
  let g := d.gclOf p
  if g.oper.isEmpty then d
  else
    let e := d.entryEnd g
    let d := (d.reach (d.momentAt g.clock e.1)).shape p
    let g := d.gclOf p
    if e.2 then d.setGcl p { g with index := 0, began := e.1, start := e.1 }
    else d.setGcl p { g with index := g.index + 1, began := e.1 }

end Sys2Proof.Machine
end

