-- ==== Sys2Proof/Machine/Plane.lean ====
section
/-! DEFINITION. The life of a sentence in the switch core: its words (R20 to R25), the crow's-nest ring (R386 to R388),
loss and completion records (R32, R246, R414, R422), how copies and members settle (R243 to R246), and order restoration
(R247 to R252). -/

namespace Sys2Proof.Machine

open Sys2Proof

/-! ### Words (R20 to R25) -/

/-- R22: 16-bit words of payload bytes, the pad byte zero; R21: an empty payload is one zero word. -/
def pairWords : List Byte → List Nat
  | [] => []
  | [b] => [b.toNat * 256]
  | a :: b :: bs => (a.toNat * 256 + b.toNat) :: pairWords bs

def bodyWords (b : List Byte) : List Nat := if b.isEmpty then [0] else pairWords b

/-- R23: W0 to W7. -/
def shbWords (h : Shb) : List Nat :=
  [h.talker.toNat + 16384 * h.kind.toNat,
   h.cls.toNat + 8 * b2n h.de + 16 * h.inst.toNat + 1024 * h.flags.toNat,
   h.seq.toNat,
   h.len.toNat + 16384 * h.bank.toNat] ++
  (List.range 4).map fun i => bitsOf h.time (16 * i) 16

/-- R20: the last word of a list is the end mark, the others carry tag `t`. -/
def endTagged (t : Tag) : List Nat → List Word
  | [] => []
  | [x] => [Word.mk 3 (BitVec.ofNat 16 x)]
  | x :: xs => Word.mk t (BitVec.ofNat 16 x) :: endTagged t xs

/-- R20: a sentence as words. -/
def sentenceWords (h : Shb) (body : List Byte) : List Word :=
  (shbWords h).map (fun x => Word.mk 2 (BitVec.ofNat 16 x)) ++ endTagged 1 (bodyWords body)

/-- R24: the flags TS_LOST, MIRROR, CUT, REPL, TRUNC and RESEQ_GAP in FLAGS. -/
def flagTsLost : BitVec 6 := 1
def flagMirror : BitVec 6 := 2
def flagCut : BitVec 6 := 4
def flagRepl : BitVec 6 := 8
def flagTrunc : BitVec 6 := 16
def flagGap : BitVec 6 := 32

/-- R24: the sentence flags alone. -/
def sentenceFlags (f : BitVec 6) : BitVec 6 := f &&& (flagTsLost ||| flagRepl)

/-- R28: the moment that W4 to W7 name, for a sentence that came in since TNS last wrapped. -/
def Dev.momentOf (d : Dev) (t : BitVec 64) : Nat :=
  let u := t.toNat / 4096
  let back := (d.wclk % 2 ^ 52 + 2 ^ 52 - u) % 2 ^ 52
  d.now - back

/-! ### The crow's-nest ring (R385 to R388) -/

/-- R388: slots that are free. -/
def Dev.ringFree (d : Dev) : Nat := 2 ^ d.ringCap - d.ringSlots

/-- R388: overwrite the oldest whole record; one that is being read is kept. -/
def Dev.ringEvict (d : Dev) : Dev :=
  let ring := match d.tbu.ring with
    | [] => []
    | r :: rs => if d.tbu.ringPopped = 0 then rs else r :: rs.drop 1
  { d with tbu := { d.tbu with ring := ring } }.bump 0x020 Reg.TBU.RING_OVERWRITTEN

/-- R388: overwrite until `need` slots are free. -/
def Dev.ringRoom (d : Dev) (need : Nat) : Nat → Dev
  | 0 => d
  | n + 1 => if need ≤ d.ringFree then d else d.ringEvict.ringRoom need n

/-- R388: a record that the ring does not take. -/
def Dev.ringLost (d : Dev) (loss : Bool) : Dev :=
  if loss then (d.bump 0x020 Reg.TBU.RING_LOST).raise 0x020 19 else d.bump 0x020 Reg.TBU.MIRROR_SKIPPED

/-- R387: store a record. -/
def Dev.ringStore (d : Dev) (ws : List Word) : Dev :=
  let r : RingRec := ⟨ws, d.tbu.ringNext⟩
  { d with tbu := { d.tbu with ring := d.tbu.ring ++ [r],
                               ringNext := (d.tbu.ringNext + slotsOf r) % 2 ^ d.ringCap } }.bump
    0x020 Reg.TBU.RING_RECORDS

/-- R388: write a loss record or a mirror record to the ring. -/
def Dev.ringWrite (d : Dev) (ws : List Word) (loss : Bool) : Dev :=
  let need := (ws.length + 15) / 16
  if d.on 0x020 Reg.TBU_RING_CFG.FREEZE then d.ringLost loss
  else match d.rd 0x020 Reg.TBU_RING_CFG.MODE with
    | 1 => (d.ringRoom need d.tbu.ring.length).ringStore ws
    | 2 => if need ≤ d.ringFree then d.ringStore ws else d.ringLost loss
    | _ => d.ringLost loss

/-! ### Loss records (R32) -/

def maskOf (ms : List Nat) : Nat := ms.foldl (fun acc m => Nat.lor acc (2 ^ m)) 0

/-- R32: the header and the payload of a loss record on the sentence `h`: reason, port code, masks and one (member, status)
per failure. -/
def lossOf (h : Shb) (bank : BitVec 2) (reason port delivered failed : Nat) (each : List (Nat × Nat)) : Shb × List Byte :=
  let n := each.length
  ({ h with kind := 3, flags := sentenceFlags h.flags, len := BitVec.ofNat 14 (12 + 2 * n), bank := bank },
   wordBytes ([reason + 256 * n, port, delivered % 65536, delivered / 65536, failed % 65536, failed / 65536] ++
    each.map fun e => e.1 * 256 + e.2))

/-- R228, R266: the number under which the copies for the ring stand; no egress queue set has it. -/
abbrev recordSet : Nat := 0x1000

/-- R228, R276, R279: what becomes a loss record once it is admitted from the reserve and has crossed to output 17. -/
def lossSen (h : Shb) (body : List Byte) (id fid now : Nat) : Sen :=
  { shb := h, acct := id, body := body, org := .device, inp := 17, life := now, cells := [], whole := true,
    waits := some .source, waited := false, targets := [⟨.record, recordSet, 17, false, .none⟩], adm := 0, tickets := [],
    reserve := false, fid := fid, bytes := 0, prog := 0, serial := false, rtag := [], fwd := [], what := .loss }

/-- R29, R279: loss records and device control sentences are admitted from the reserve. -/
def Sen.fromReserve (s : Sen) : Bool := s.what == .loss || (s.shb.kind == 2 && s.shb.talker == 0x3FFF)

/-- R276, R279: what waits for the reserve takes more cells than it has. -/
def Dev.reserveShort (d : Dev) : Bool :=
  decide (d.reserveFree <
    sumOf (fun e => if e.2.waits.isSome && e.2.fromReserve then cellsFor e.2.shb.len.toNat else 0) d.swc.sens)

/-- R276, R279: the stage of port code `code` waits: its handshake for a loss record is not completed. The stage is the one
whose port code the record holds (DESIGN CHOICE, notes/assumptions/13.md). -/
def Dev.stageWaits (d : Dev) (code : Nat) : Bool :=
  (d.swc.sens.any fun e => e.2.what == .loss && e.2.waits.isSome &&
    (listGet 0 e.2.body 2).toNat * 256 + (listGet 0 e.2.body 3).toNat == code) && d.reserveShort

/-- R246, R255: make a loss record; it waits at the stage that made it for its admission (R276). -/
def Dev.lossRecord (d : Dev) (h : Shb) (reason port delivered failed : Nat) (each : List (Nat × Nat)) : Dev :=
  let r := lossOf h d.ownBank reason port delivered failed each
  let d := (d.bump 0x030 Reg.SWC.LOSS_RECORDS).raise 0x030 17
  let id := d.swc.nextSid
  ({ d with swc := { d.swc with nextSid := id + 1 }, nrm := { d.nrm with nextFid := d.nrm.nextFid + 1 } }).setSen id
    (lossSen r.1 r.2 id d.nrm.nextFid d.now)

/-- R213: a sentence that fails with no members. -/
def Dev.lossWhole (d : Dev) (h : Shb) (reason port : Nat) : Dev := d.lossRecord h reason port 0 0 []

/-! ### Completion records (R414, R422) -/

/-- The bytes of dwords as they lie in host memory. -/
def dwordBytes (ws : List Nat) : List Byte :=
  ws.flatMap fun w => (List.range 4).map fun i => BitVec.ofNat 8 (w / 256 ^ i)

/-- R411: entries of the rings of queue `q` of instance `n`. -/
def Dev.ringEntries (d : Dev) (n q : Nat) : Nat := 2 ^ ((d.hq n q).size + 6)

/-- R435, R436: queue `q` of instance `n` raises a request. -/
def Dev.queueRequest (d : Dev) (n q : Nat) : Dev :=
  let p := dbPage n
  if !d.on p Reg.HBR_Q_CFG.IRQ_EN q then d
  else
    let h := d.rd p Reg.HBR_Q_CFG.HOLDOFF_US q
    if h = 0 then d.requestInst n (d.rd p Reg.HBR_Q_CFG.VECTOR q)
    else match (d.hq n q).holdAt with
      | some _ => d
      | none => d.setHq n q { d.hq n q with holdAt := some (d.now + h * Config.perUs) }

/-- R404, R417: write a record to the completion ring of queue `q`. PHASE is bit 31 of dword `ph`, 1 on the first pass since the
queue was enabled. The record reports NBUF
descriptors (R416), or one. -/
def Dev.writeRecord (d : Dev) (n q ph : Nat) (rec : List Byte) : Dev :=
  let p := dbPage n
  let tail := d.rd p Reg.HBR_Q_IDX.CQ_TAIL q
  let ents := d.ringEntries n q
  let base := 64 * d.rd p Reg.HBR_Q_CQ_LO.ADDR q + 2 ^ 32 * d.rd p Reg.HBR_Q_CQ_HI.ADDR q
  let bytes := if (tail + 65536 - (d.hq n q).cqBase) % 65536 / ents % 2 = 0 then
    listSet rec (4 * ph + 3) (listGet 0 rec (4 * ph + 3) ||| 0x80) else rec
  let d := d.emitWire (.dma n (base + rec.length * (tail % ents)) bytes)
  let nbuf := if q < 16 then (listGet 0 rec 2).toNat else 1
  let d := d.setHq n q { d.hq n q with reps := (d.hq n q).reps ++ [nbuf] }
  (d.wr p Reg.HBR_Q_IDX.CQ_TAIL (tail + 1) q).queueRequest n q

/-- R402, R404: DMA for function `n` is possible. -/
def Dev.dmaOk (d : Dev) (n : Nat) : Bool := d.bme n && !(SMap.get (fun _ => false) d.hbr.d3 n)

/-- R404: a record is written, or waits for Bus Master Enable. -/
def Dev.postRecord (d : Dev) (n q ph : Nat) (rec : List Byte) : Dev :=
  if d.dmaOk n && (d.hq n q).due.isEmpty then d.writeRecord n q ph rec
  else d.setHq n q { d.hq n q with due := (d.hq n q).due ++ [rec] }

/-- R414: the dwords of a transmit completion record; PHASE is added when it is written. -/
def completionDwords (cookie : BitVec 32) (talker : BitVec 14) (seq : BitVec 16) (status : Nat) (ms : List Member)
    (time : Option (BitVec 64)) : List Nat :=
  let bad := ms.filter fun m => m.fail.isSome
  let good := ms.filter fun m => m.fail.isNone
  let t := (time.getD 0).toNat
  let mstat := fun (i : Nat) => match ms.find? fun m => m.idx == i with
    | none => 0xFF
    | some m => match m.fail with | none => 0 | some f => f.1
  [cookie.toNat, seq.toNat + 65536 * talker.toNat, status + 256 * bad.length + 65536 * b2n time.isSome,
   maskOf (good.map (·.idx)), maskOf (bad.map (·.idx)), t / 65536 % 2 ^ 32, t / 2 ^ 48 + 65536 * (t % 65536), 0] ++
  (List.range 8).map fun i => mstat (4 * i) + 256 * mstat (4 * i + 1) + 65536 * mstat (4 * i + 2) +
    16777216 * mstat (4 * i + 3)

/-- R422: the words K0 onward of a window completion record. -/
def completionWords (cookie : BitVec 32) (talker : BitVec 14) (seq : BitVec 16) (status : Nat) (ms : List Member)
    (time : Option (BitVec 64)) : List Word :=
  let bad := ms.filter fun m => m.fail.isSome
  let good := ms.filter fun m => m.fail.isNone
  let gm := maskOf (good.map (·.idx))
  let bm := maskOf (bad.map (·.idx))
  endTagged 2 ([cookie.toNat % 65536, seq.toNat, status + 256 * bad.length, gm % 65536, gm / 65536, bm % 65536, bm / 65536,
    talker.toNat + 32768 * b2n time.isSome] ++ (List.range 4).map (fun i => bitsOf (time.getD 0) (16 * i) 16) ++
    bad.map fun m => m.idx * 256 + (m.fail.getD (0, 0)).1)

/-- R414, R422: the record on a host-posted sentence; `org` is its origin. -/
def Dev.report (d : Dev) (org : Origin) (talker : BitVec 14) (seq : BitVec 16) (status : Nat) (ms : List Member) : Dev :=
  match org with
  | .host n t win cookie ts era =>
    let time := if ts then (ms.find? fun m => m.fail.isNone && m.time.isSome).bind (·.time) else none
    let d := d.bumpSat (instPage n) (if status = 0 then Reg.INST.TX_DELIVERED else Reg.INST.TX_FAILED)
    let h := d.hq n (16 + t)
    if win then
      let item := completionWords cookie talker seq status ms time
      (d.setHq n (16 + t) { h with compl := { h.compl with items := h.compl.items ++ [(0, item)] },
                                   owed := if era = (d.inst n).era then h.owed - 1 else h.owed }).queueRequest n (16 + t)
    else d.postRecord n (16 + t) 1 (dwordBytes (completionDwords cookie talker seq status ms time))
  | _ => d

/-! ### Transmit windows (R421, R422, R429) -/

/-- Whether an origin is transmit queue `t` of instance `n`. -/
def Origin.ofQueue (o : Origin) (n t : Nat) : Bool := match o with | .host m u _ _ _ _ => m == n && u == t | _ => false

/-- R276, R418: words in the store of transmit window `t`: what is being pushed, whole items, and those handed on and not
yet admitted. -/
def Dev.txWords (d : Dev) (n t : Nat) : Nat :=
  (d.hq n (16 + t)).build.length +
  sumOf (fun h => if h.win && h.n == n && h.t == t then sentenceSize h.body.length else 0) d.hbr.ready +
  sumOf (fun i => if i.org.ofQueue n t then sentenceSize i.body.length else 0) d.nrm.items +
  sumOf (fun e => if e.2.waits.isSome && e.2.org.ofQueue n t then sentenceSize e.2.body.length else 0) d.swc.sens

/-- R406: the queue is on in window mode. -/
def HostQ.window (h : HostQ) : Bool := h.mode == 2 && !h.stopped

/-- R428: the free words of transmit window `t`. -/
def Dev.txFree (d : Dev) (n t : Nat) : Nat :=
  let h := d.hq n (16 + t)
  if h.window then h.cap - d.txWords n t else 0

/-- R422: room for one more record of 44 words. -/
def HostQ.recordRoom (h : HostQ) : Bool := decide (h.compl.words + 44 * (h.owed + 1) ≤ 1024)

/-- R20, R31: the words of an item form a sentence. -/
def itemOk (ws : List Word) : Bool :=
  let body := ws.drop 8
  (ws.take 8).all (fun w => w.tag == 2) && ws.length == sentenceSize ((listGet 0 ws 3).data.toNat % 16384) &&
  body.dropLast.all (fun w => w.tag == 1) && body.all (fun w => w.tag != 2)

/-- The payload of a sentence, from its words. -/
def bodyOf (ws : List Word) : List Byte :=
  ((ws.drop 8).flatMap fun w => [BitVec.ofNat 8 (w.data.toNat / 256), BitVec.ofNat 8 w.data.toNat]).take
    ((listGet 0 ws 3).data.toNat % 16384)

/-- R31, R421: an item, of which these are the first words, is reported with MALFORMED. The cookie of an item with no W2 is
not stated (notes/assumptions/1.md). -/
def Dev.badItem (d : Dev) (n t : Nat) (ws : List Word) : Dev :=
  let c : BitVec 32 := if ws.length < 3 then (d.freeBits.setWidth 16).setWidth 32 else ((listGet 0 ws 2).data).setWidth 32
  let d := if ws.length < 3 then d.drawn else d
  let h := d.hq n (16 + t)
  (d.setHq n (16 + t) { h with owed := h.owed + 1 }).report (.host n t true c false (d.inst n).era)
    ((listGet 0 ws 0).data.setWidth 14) 0 0x11 []

/-- R421, R372: the end mark of an item is accepted: the item is checked, and is ready for the NRM. -/
def Dev.itemDone (d : Dev) (n t : Nat) (ws : List Word) : Dev :=
  if itemOk ws then
    let h := d.hq n (16 + t)
    let it : HostItem := ⟨n, t, true, (listGet 0 ws 2).data.setWidth 32, d.on (dbPage n) Reg.HBR_Q_CFG.TS_REQ (16 + t),
      (ws.take 8).map fun w => w.data, bodyOf ws, stampOf d.wclk⟩
    let d := d.setHq n (16 + t) { h with owed := h.owed + 1 }
    { d with hbr := { d.hbr with ready := d.hbr.ready ++ [it] } }
  else d.badItem n t ws

/-- R421, R425: what a producer's tail discards: the first words of an item that exceeds the store, or none after a flush. -/
def HostQ.tail? (h : HostQ) : Option (List Word) :=
  match h.skip with
  | some ws => some ws
  | none => if h.cap ≤ h.build.length then some (h.build.take 8) else none

/-- R16, R421, R422: push a word into transmit window `t`, or answer `none` where it must be held (R429). The end mark of a
producer's tail that comes while the window is off ends the tail (R410, R425). -/
def Dev.pushOne (d : Dev) (n t : Nat) (w : Word) : Option Dev :=
  let h := d.hq n (16 + t)
  if !h.window then
    some ((if w.tag = 3 then d.setHq n (16 + t) { h with skip := none } else d).raise (winPage n) 4)
  else if w.tag = 0 then some d
  else match h.tail? with
    | some first =>
      if w.tag = 3 ∧ first.isEmpty = false ∧ h.recordRoom = false then none
      else
        let d := d.setHq n (16 + t) { h with build := [], skip := if w.tag = 3 then none else some first }
        let d := d.bump (winPage n) Reg.FLUSH_TAIL_WORDS.COUNT
        some (if w.tag = 3 ∧ first.isEmpty = false then d.badItem n t first else d)
    | none =>
      if h.cap ≤ d.txWords n t ∨ (w.tag = 3 ∧ h.recordRoom = false) then none
      else if w.tag = 3 then some ((d.setHq n (16 + t) { h with build := [] }).itemDone n t (h.build ++ [w]))
      else some (d.setHq n (16 + t) { h with build := h.build ++ [w] })

/-- R528: the bytes that wait in the queue of MST_UPD_DATA and MST_UPD_DATA16. -/
def Dev.updBytes (d : Dev) : Nat :=
  sumOf (fun (w : MhWork) => match w with | .push _ _ b => b.length | _ => 0) d.mst.waits

/-- R528: the dwords of that queue of 1,024 that are not wholly free. -/
def Dev.updWords (d : Dev) : Nat := (d.updBytes + 3) / 4

/-- R429, R528: a push lands, or answer `none` where it must be held. -/
def Dev.heldLands (d : Dev) (x : HeldPush) : Option Dev :=
  match x.upd with
  | none => d.pushOne x.n x.t x.word
  | some (src, b) => if d.updBytes + b.length ≤ 4096 then some (d.setWaits (d.mst.waits ++ [.push src false b])) else none

/-- R429: try a held push again; those that stay held stay in order. -/
def Dev.retryOne (acc : Dev × List HeldPush) (x : HeldPush) : Dev × List HeldPush :=
  if acc.2.any fun y => y.lhp == x.lhp then (acc.1, acc.2 ++ [x])
  else match acc.1.heldLands x with
    | some d => (d, acc.2)
    | none => (acc.1, acc.2 ++ [x])

/-- R429: a push is held from now on. -/
def Dev.holdPush (d : Dev) (x : HeldPush) : Dev :=
  let us := if x.lhp then d.rd 0x01F Reg.HBR_LHP_BUS.TMO_US else d.rd 0x010 Reg.HBR_HOLD.PCIE_US
  { d with hbr := { d.hbr with held := d.hbr.held ++ [{ x with till := d.now + us * Config.perUs }] } }.bump
    0x010 Reg.HBR.HOLDS

/-- R429: held pushes complete when there is room. -/
def Dev.retryHeld (d : Dev) : Dev :=
  if d.hbr.held.isEmpty then d
  else
    let r := d.hbr.held.foldl Dev.retryOne (d, [])
    { r.1 with hbr := { r.1.hbr with held := r.2 } }

/-- R414, R422: report on a host-posted sentence. -/
def Dev.complete (d : Dev) (org : Origin) (talker : BitVec 14) (seq : BitVec 16) (status : Nat) (ms : List Member) : Dev :=
  (d.report org talker seq status ms).retryHeld

/-- R245, R212: a host-posted sentence that ends with no record gives its reservation back (R422). -/
def Dev.noRecord (d : Dev) (org : Origin) : Dev :=
  match org with
  | .host n t true _ _ era =>
    if era = (d.inst n).era then
      (d.setHq n (16 + t) { d.hq n (16 + t) with owed := (d.hq n (16 + t)).owed - 1 }).retryHeld
    else d
  | _ => d

/-- R450, R460: a host-posted sentence that a reset of its instance lists settles with INST_RESET, and makes no record. -/
def Dev.resetSettles (d : Dev) (org : Origin) : Dev :=
  match org with
  | .host n _ _ _ _ _ => (d.bumpSat (instPage n) Reg.INST.TX_FAILED).noRecord org
  | _ => d

/-- R213, R31: a sentence that fails as a whole, wherever it came from. -/
def Dev.failWhole (d : Dev) (org : Origin) (h : Shb) (reason port : Nat) : Dev :=
  match org with
  | .host _ _ _ _ _ _ => d.complete org h.talker h.seq reason []
  | _ => d.lossWhole h reason port

/-! ### Members settle (R245, R246) -/

/-- R450, R451: the reset of its instance lists a sentence. -/
def Dev.listReset (d : Dev) (h : Shb) : Dev :=
  let x := d.inst h.inst.toNat
  d.setInst h.inst.toNat { x with list := x.list ++ [(h.talker, h.seq)] }

/-- R450: list the sentence of account `a`, once. -/
def Dev.listAcct (d : Dev) (a : Nat) : Dev :=
  match d.acct a with
  | none => d
  | some x => if x.listed then d else (d.setAcct a { x with listed := true }).listReset x.shb

/-- R450: this end of a member of account `x` is a failure with INST_RESET while its instance is being reset. -/
def Dev.resetHit (d : Dev) (x : Acct) (fail : Option (Nat × Nat)) : Bool :=
  d.on (instPage x.shb.inst.toNat) Reg.INST_STAT.RESETTING && fail.any fun f => f.1 == 7

/-- R450: list the sentence of account `a` where an end with `fail` is one that its instance's reset lists. -/
def Dev.listHit (d : Dev) (a : Nat) (fail : Option (Nat × Nat)) : Dev :=
  match d.acct a with
  | none => d
  | some x => if d.resetHit x fail then d.listAcct a else d

/-- R246: the record of an account whose members have all settled. -/
def Dev.acctRecord (d : Dev) (x : Acct) : Dev :=
  let bad := x.members.filter fun m => m.fail.isSome
  match x.org with
  | .host _ _ _ _ _ _ =>
    if x.members.isEmpty then d.noRecord x.org
    else d.complete x.org x.shb.talker x.shb.seq
      (match bad with | [] => 0 | m :: _ => (m.fail.getD (0, 0)).1) x.members
  | _ => match bad with
    | [] => d
    | m :: _ =>
      d.lossRecord x.shb (m.fail.getD (0, 0)).1 (m.fail.getD (0, 0)).2
        (maskOf ((x.members.filter fun m => m.fail.isNone).map (·.idx))) (maskOf (bad.map (·.idx)))
        (bad.map fun m => (m.idx, (m.fail.getD (0, 0)).1))

/-- R246, R450: an account whose members have all settled makes its one record, or is listed, and is forgotten. -/
def Dev.settle (d : Dev) (a : Nat) : Dev :=
  match d.acct a with
  | none => d
  | some x =>
    if !x.sealed || x.members.any (fun m => m.open_ != 0) then d
    else
      let d := { d with swc := { d.swc with accts := assocDel a d.swc.accts } }
      if x.listed then d.resetSettles x.org else d.acctRecord x

/-- Change member `m` of an account. -/
def Acct.upd (x : Acct) (m : Nat) (f : Member → Member) : Acct :=
  { x with members := x.members.map fun y => if y.idx = m then f y else y }

/-- R245: one of the sentences sent to member `m` settles; the first failure gives the status. R450: a failure with INST_RESET
lists the sentence now. -/
def Dev.memberSettles (d : Dev) (a m : Nat) (fail : Option (Nat × Nat)) : Dev :=
  match d.acct a with
  | none => d
  | some x =>
    ((d.setAcct a (x.upd m fun y => { y with open_ := y.open_ - 1, fail := y.fail.or fail })).listHit a fail).settle a

/-- R375: the egress time of member `m`; the first one taken stays. -/
def Dev.memberTime (d : Dev) (a m : Nat) (t : BitVec 64) : Dev :=
  match d.acct a with
  | none => d
  | some x => d.setAcct a (x.upd m fun y => { y with time := y.time.or (some t) })

/-! ### Order restoration (R247 to R252) -/

def Dev.ctxOf (d : Dev) (out : Nat) (t : BitVec 14) : Option Ctx :=
  d.swc.ctxs.find? fun x => x.out == out && x.talker == t

/-- Store a context; one with no tickets closes (R248). -/
def Dev.setCtx (d : Dev) (x : Ctx) : Dev :=
  let rest := d.swc.ctxs.filter fun y => !(y.out == x.out && y.talker == x.talker)
  { d with swc := { d.swc with ctxs := if x.tickets.isEmpty then rest else rest ++ [x] } }

/-- R250: the timer runs while the head is WAITING and a later ticket is ARRIVED. -/
def Ctx.stuck (x : Ctx) : Bool :=
  match x.tickets with
  | [] => false
  | h :: ts => h.state == .waiting && ts.any fun t => t.state == .arrived

/-- R241: the lifetime of a sentence has expired at moment `t`. -/
def Dev.expiredAt (d : Dev) (s : Sen) (t : Nat) : Bool :=
  let l := d.rd 0x030 Reg.SWC_LIFE.LIFE_US s.shb.cls.toNat
  s.what == .sentence && l != 0 && decide (s.life + l * Config.perUs ≤ t)

/-- R241: the lifetime of a sentence has expired. -/
def Dev.expired (d : Dev) (s : Sen) : Bool := d.expiredAt s d.now

/-- R242: the end of the cell time of moment `t`. -/
def cellEndOf (t : Nat) : Nat := t / Config.cellTime * Config.cellTime + (Config.cellTime - 1)

/-- R242: it expires in this cell time, or has expired: a copy selected now fails. -/
def Dev.expires (d : Dev) (s : Sen) : Bool := d.expiredAt s (cellEndOf d.now)

/-- R246, R35: the port code of the place a set belongs to. -/
def Dev.placeOf (d : Dev) (set : Nat) : Nat :=
  if set < 0x100 then set
  else if (set - 0x100) / 16 = d.rd 0x01F Reg.HBR_LHP_CFG.INST then 0x71 else 0x70

/-- R243: a mirror copy still holds the cells of sentence `sid`. -/
def Dev.mirrored (d : Dev) (sid : Nat) : Bool := d.swc.sens.any fun e => e.2.what == .mirror (some sid)

/-- R228, R243: the cells that hold a sentence; a mirror copy of an admitted sentence shares the first of them. -/
def Dev.cellsOf (d : Dev) (s : Sen) : List CellAt :=
  match s.what with
  | .mirror (some o) =>
    if s.cells.isEmpty then (match d.sen o with | some y => y.cells.take 1 | none => []) else s.cells
  | _ => s.cells

/-- R243: sentence `sid` was admitted, and its cells are stored. -/
def Dev.stored (d : Dev) (sid : Nat) : Bool := match d.sen sid with | some s => !s.cells.isEmpty | none => false

/-- R243, R265: no copy of sentence `sid` is left: its cells are freed, once its mirror copy has gone too. -/
def Dev.dropSen (d : Dev) (sid : Nat) : Dev :=
  let kept := if d.mirrored sid && d.stored sid then
      (d.swc.sens.map fun e => if e.1 = sid then (e.1, { e.2 with what := .ended, targets := [], tickets := [], late := false })
        else e)
    else assocDel sid d.swc.sens
  { d with swc := { d.swc with sens := kept, copies := d.swc.copies.filter (fun c => c.sid != sid)
                               voq := d.swc.voq.filter fun x => x.sid != sid } }

/-- R243: forget sentence `sid` when no copy of it is left or will be made. -/
def Dev.reap (d : Dev) (sid : Nat) : Dev :=
  match d.sen sid with
  | none => d
  | some s => if s.waits.isSome || d.swc.copies.any (fun c => c.sid == sid) then d else d.dropSen sid

/-- A loss record or a mirror copy leaves the block. -/
def Dev.recordGone (d : Dev) (sid : Nat) (s : Sen) : Dev :=
  let d := d.dropSen sid
  match s.what with
  | .mirror (some o) => d.reap o
  | _ => d

/-- R228, R386, R388: a loss record or a mirror copy has crossed to output 17, and is written to the ring. -/
def Dev.recordArrives (d : Dev) (sid : Nat) (s : Sen) : Dev :=
  (d.recordGone sid s).ringWrite (sentenceWords s.shb s.body) (s.what == .loss)

def Copy.is (c x : Copy) : Bool := c.sid == x.sid && c.role == x.role && c.set == x.set

/-- Take a copy away, and its place in a VOQ when no copy of its sentence is left at that output. -/
def Dev.unlink (d : Dev) (c : Copy) : Dev :=
  let d := d.shape c.set
  let cs := d.swc.copies.filter fun x => !c.is x
  let voq := if cs.any (fun x => x.sid == c.sid && x.out == c.out) then d.swc.voq
    else d.swc.voq.filter fun x => !(x.sid == c.sid && x.out == c.out)
  { d with swc := { d.swc with copies := cs, voq := voq } }

/-- R127: tell the other copy of a pair how this one ended. -/
def Dev.tellMate (d : Dev) (c : Copy) (m : Mate) : Dev :=
  { d with swc := { d.swc with copies := d.swc.copies.map fun x =>
      if x.sid == c.sid && x.role == c.role && x.set != c.set then { x with mate := m } else x } }

/-- R127, R243, R245: a copy of a member is delivered, or fails with a status and a place. -/
def Dev.copyEnds (d : Dev) (c : Copy) (fail : Option (Nat × Nat)) : Dev :=
  match d.sen c.sid, c.role with
  | some s, .member m =>
    let d := d.unlink c
    let d := match c.mate, fail with
      | .none, _ => d.memberSettles s.acct m fail
      | .open_, none => (d.tellMate c .sent).memberSettles s.acct m none
      | .open_, some f => d.tellMate c (.failed f.1 f.2)
      | .sent, _ => d
      | .failed _ _, none => d.memberSettles s.acct m none
      | .failed k p, some f => d.memberSettles s.acct m (some (if c.set % 2 = 0 then f else (k, p)))
    d.reap c.sid
  | _, _ => d

/-- R243: a copy is delivered. -/
def Dev.deliver (d : Dev) (c : Copy) : Dev := d.copyEnds c none

/-- R241, R255, R460: a copy that fails with LIFETIME is counted. -/
def Dev.countLifetime (d : Dev) (s : Sen) : Dev :=
  ((d.bump 0x030 Reg.SWC.LIFETIME_FAILS).raise 0x030 16).bumpSat (instPage s.shb.inst.toNat) Reg.INST.LIFETIME

/-- R241: a copy fails with LIFETIME at the place `port`. -/
def Dev.lifetimeFail (d : Dev) (c : Copy) (port : Nat) : Dev :=
  match d.sen c.sid with
  | none => d
  | some s => (d.countLifetime s).copyEnds c (some (0x03, port))

/-- R249: the copies of `sid` at `out` leave the resequencer for the egress stage, in released order, marked RESEQ_GAP
when numbers before were given up (R251). A lifetime that expired while the resequencer held them is found now (R242). -/
def Dev.release (d : Dev) (out sid : Nat) (gap : Bool) : Dev :=
  let mine := d.swc.copies.filter fun c => c.sid == sid && c.out == out && (c.place == .voq || c.place == .reseq)
  let rest := d.swc.copies.filter fun c => !(c.sid == sid && c.out == out && (c.place == .voq || c.place == .reseq))
  let moved := mine.map fun c => { c with place := .egress, gap := gap }
  let d := mine.foldl (fun d c => d.shape c.set) d
  let d := { d with swc := { d.swc with copies := rest ++ moved } }
  match d.sen sid with
  | none => d
  | some s => if d.expired s && mine.any (fun c => c.place == .reseq) then moved.foldl (fun d c => d.lifetimeFail c 0x7C) d else d

/-- R249: release from the head of a context while its head is ARRIVED or CANCELLED. -/
def Dev.reseqRun (d : Dev) (x : Ctx) : Nat → Dev
  | 0 => d.setCtx x
  | n + 1 => match x.tickets with
    | [] => d.setCtx x
    | t :: ts => match t.state with
      | .waiting =>
        d.setCtx { x with since := if x.stuck then (x.since.or (some d.now)) else none }
      | .cancelled => Dev.reseqRun d { x with tickets := ts, since := none } n
      | .arrived =>
        Dev.reseqRun (t.sids.foldl (fun d sid => d.release x.out sid x.gap) d)
          { x with tickets := ts, gap := false, since := none } n

/-- Release what a context allows. -/
def Dev.reseq (d : Dev) (x : Ctx) : Dev := d.reseqRun x (x.tickets.length + 1)

/-- R252: a sentence that finds no ticket is late: it is released at once. -/
def Dev.late (d : Dev) (out sid : Nat) : Dev :=
  ((d.bump 0x030 Reg.SWC.RESEQ_LATE).raise 0x030 19).release out sid false

/-- R251: the head ticket is given up and leaves. What had arrived for it is late. -/
def Dev.giveUp (d : Dev) (x : Ctx) : Dev :=
  match x.tickets with
  | [] => d
  | t :: ts =>
    let d := t.sids.foldl (fun d sid => d.late x.out sid) d
    d.reseq { x with tickets := ts, gap := true, since := none }

/-- Put a ticket in sequence order (R248). -/
def insertTicket (t : Ticket) : List Ticket → List Ticket
  | [] => [t]
  | u :: us => if seqEarlier t.seq u.seq then t :: u :: us else u :: insertTicket t us

/-- R248: issue a ticket. `need` is how many sentences will arrive, 0 while that is not known. -/
def Dev.issue (d : Dev) (out : Nat) (talker : BitVec 14) (seq : BitVec 16) (need : Nat) : Dev :=
  let x := (d.ctxOf out talker).getD ⟨out, talker, [], false, none⟩
  let ts := insertTicket ⟨seq, .waiting, need, []⟩ x.tickets
  let x := { x with tickets := ts, since := if (ts.head?.map (·.seq)) = x.tickets.head?.map (·.seq) then x.since else none }
  d.reseq x

/-- R251, R253: at the end of a cell time, the tickets beyond 256 of a context make its heads GIVEN_UP. -/
def Dev.forced (d : Dev) (out : Nat) (talker : BitVec 14) : Nat → Dev
  | 0 => d
  | n + 1 => match d.ctxOf out talker with
    | none => d
    | some x =>
      if x.tickets.length ≤ 256 then d
      else (((d.bump 0x030 Reg.SWC.RESEQ_FORCED).raise 0x030 20).giveUp x).forced out talker n

/-- R251, R253: the give-ups that a cell time's ticket issues force. -/
def Dev.forcedAll (d : Dev) : Dev :=
  d.swc.ctxs.foldl (fun d x => d.forced x.out x.talker x.tickets.length) d

/-- R38, R330: the sentences of one number stand in emit order, which is the order they were made in. -/
def insertSid (sid : Nat) : List Nat → List Nat
  | [] => [sid]
  | x :: xs => if sid < x then sid :: x :: xs else x :: insertSid sid xs

/-- One more sentence of its number has arrived for a ticket. -/
def Ticket.gets (t : Ticket) (seq : BitVec 16) (sid : Nat) : Ticket :=
  if t.seq = seq then
    ⟨t.seq, if t.need ≠ 0 ∧ t.need ≤ t.sids.length + 1 then .arrived else t.state, t.need, insertSid sid t.sids⟩
  else t

/-- A copy of sentence `sid` that has crossed to `out` stands in the resequencer. -/
def Copy.held (c : Copy) (out sid : Nat) : Copy :=
  if c.sid = sid ∧ c.out = out ∧ c.place = .voq then { c with place := .reseq } else c

/-- R249: sentence `sid` arrives whole at output `out`. -/
def Dev.arrive (d : Dev) (out sid : Nat) : Dev :=
  match d.sen sid with
  | none => d
  | some s =>
    if s.what != .sentence then d.recordArrives sid s
    else if !s.tickets.contains out then d.release out sid false
    else match d.ctxOf out s.shb.talker with
      | none => d.late out sid
      | some x =>
        if x.tickets.any fun t => t.seq == s.shb.seq then
          let d := { d with swc := { d.swc with copies := d.swc.copies.map fun (c : Copy) => c.held out sid } }
          d.reseq { x with tickets := x.tickets.map fun (t : Ticket) => t.gets s.shb.seq sid }
        else d.late out sid

/-- R249: the number is used up at output `out`. A ticket that was given up is not found (R252). -/
def Dev.cancelTicket (d : Dev) (out : Nat) (talker : BitVec 14) (seq : BitVec 16) : Dev :=
  match d.ctxOf out talker with
  | none => d
  | some x =>
    if x.tickets.any fun t => t.seq == seq then
      (d.bump 0x030 Reg.SWC.RESEQ_CANCELLED).reseq
        { x with tickets := x.tickets.map fun t => if t.seq == seq then { t with state := .cancelled } else t }
    else d

/-- R302: how many sentences will arrive for a number at output `out`. -/
def Dev.setNeed (d : Dev) (out : Nat) (talker : BitVec 14) (seq : BitVec 16) (need : Nat) : Dev :=
  match d.ctxOf out talker with
  | none => d
  | some x => d.setCtx { x with tickets := x.tickets.map fun t => if t.seq == seq then { t with need := need } else t }

/-- R274: one sentence fewer will arrive for a number at output `out`; with none left the ticket is cancelled. -/
def Dev.ticketLess (d : Dev) (out sid : Nat) (s : Sen) : Dev :=
  match d.ctxOf out s.shb.talker with
  | none => d
  | some x =>
    match x.tickets.find? fun t => t.seq == s.shb.seq with
    | none => d
    | some t =>
      if t.need ≤ 1 then d.cancelTicket out s.shb.talker s.shb.seq
      else
        let sids := t.sids.filter (· != sid)
        let t' : Ticket := ⟨t.seq, if t.need ≤ sids.length + 1 then .arrived else .waiting, t.need - 1, sids⟩
        d.reseq { x with tickets := x.tickets.map fun u => if u.seq = t.seq then t' else u }

/-- R274: when no copy of a sentence is left at an output before it is released there, its ticket is cancelled (for
failures other than push-out: notes/assumptions/14.md). -/
def Dev.ticketGone (d : Dev) (c : Copy) (s : Sen) : Dev :=
  if (c.place == .voq || c.place == .reseq) && s.tickets.contains c.out &&
     !(d.swc.copies.any fun x => x.sid == c.sid && x.out == c.out) then
    d.ticketLess c.out c.sid s
  else d

/-- A member's copy fails with a status at a place. -/
def Dev.copyFails (d : Dev) (c : Copy) (code port : Nat) : Dev :=
  match d.sen c.sid with
  | none => d
  | some s =>
    let d := if code = 0x03 then d.countLifetime s else d
    (d.copyEnds c (some (code, port))).ticketGone c s

/-- An engine-path input, or a sentence that waits for admission, fails as a whole: every member that is not settled
fails with the status, its tickets are cancelled and its cells are freed. A failure with INST_RESET lists it (R450). -/
def Dev.inputFails (d : Dev) (sid code port : Nat) : Dev :=
  match d.sen sid with
  | none => d
  | some s =>
    let d := d.dropSen sid
    let d := s.tickets.foldl (fun d o => d.cancelTicket o s.shb.talker s.shb.seq) d
    match d.acct s.acct with
    | none => d
    | some x =>
      ((d.setAcct s.acct { x with
        sealed := true
        members := x.members.map fun m => { m with open_ := 0, fail := m.fail.or (some (code, port)) } }).listHit
        s.acct (some (code, port))).settle s.acct

/-- Every open copy of a sentence fails with the same status (R282, R449). -/
def Dev.allFail (d : Dev) (sid code port : Nat) : Dev :=
  if d.swc.copies.any fun c => c.sid == sid && c.role == .engine then d.inputFails sid code port
  else (d.swc.copies.filter fun c => c.sid == sid).foldl (fun d c => d.copyFails c code port) d

end Sys2Proof.Machine
end

