-- ==== Sys2Proof/Machine/Route.lean ====
section
/-! DEFINITION. Routes and members (R208 to R211), the sets and crossbar outputs of a member (R228, R266, R127), engine
dispatch (R293 to R298), and handing a sentence on (R212, R248). -/

namespace Sys2Proof.Machine

open Sys2Proof

/-! ### Subscriptions and groups (R209, R210) -/

/-- R209: what a subscription names. -/
def destOf (v : BitVec 32) : Dest :=
  match bitsOf v 0 3 with
  | 1 => let p := bitsOf v 3 8
         if Nat.ble p 0x15 || between 0x20 0x5F p then .port p else .bad
  | 2 => .host (bitsOf v 3 6) (bitsOf v 9 4)
  | 3 => .list (bitsOf v 3 12)
  | 4 => .stay (bitsOf v 3 4) (bitsOf v 7 1 == 1) (bitsOf v 8 14)
  | 5 => .cut
  | _ => .bad

/-- A member that has not settled anywhere. -/
def Member.fresh (m : Nat) (x : Dest) : Member := ⟨m, x, 0, none, none⟩

/-- The listener members that a group's MASK leaves (R210, R33). -/
def groupMembers (sub : Nat → BitVec 32) (first mask : Nat) (count : Nat) : List Member :=
  (List.range count).filterMap fun m => if bitAt mask m then some (Member.fresh m (destOf (sub (first + m)))) else none

/-- R208, R210: the member list of a route under bank `b`, or `none` where the route fails. -/
def Dev.resolve (d : Dev) (b : BitVec 2) (group : Bool) (route : Nat) : Option (List Member) :=
  let sub := fun s => d.tab32 b (0x120000 + 4 * s)
  if !group then some [Member.fresh 0 (destOf (sub route))]
  else if 4095 < route then none
  else
    let g0 := d.tab32 b (0x130000 + 8 * route)
    let g1 := d.tab32 b (0x130004 + 8 * route)
    let first := bitsOf g0 0 14
    let count := bitsOf g0 16 6
    if bitsOf g0 31 1 = 0 ∨ count = 0 ∨ 32 < count ∨ 16384 < first + count ∨ g1.toNat % 2 ^ count = 0 then none
    else some (groupMembers sub first g1.toNat count)

/-- R540: the dwords of bank `b` that resolving a route reads. -/
def Dev.routeWords (d : Dev) (b : BitVec 2) (group : Bool) (route : Nat) : List Nat :=
  if !group then [0x120000 + 4 * route]
  else if 4095 < route then []
  else
    let g0 := d.tab32 b (0x130000 + 8 * route)
    [0x130000 + 8 * route, 0x130004 + 8 * route] ++
      (List.range (bitsOf g0 16 6)).map fun m => 0x120000 + 4 * (bitsOf g0 0 14 + m)

/-! ### Where a member's copies go -/

/-- R156: the entry of a talker in an enabled 802.1CB pair, with the flag that `f` reads. -/
def Dev.cbEntry (d : Dev) (pair : Nat) (t : BitVec 14) (f : Fld) : Option Nat :=
  if d.on 0x08F Reg.ETH_CB_CFG.EN pair then
    ((List.range 64).find? fun k =>
      d.rd 0x08F Reg.ETH_CB_STREAM.TALKER (64 * pair + k) == t.toNat && d.on 0x08F f (64 * pair + k)).map (64 * pair + ·)
  else none

/-- R228: the crossbar output, and the input, of a port code. -/
def xbarOf (p : Nat) : Nat := if p ≤ 3 then p else if p ≤ 0x0F then 4 else 5

/-- R228: the crossbar output of a host queue of instance `n`. -/
def Dev.hostOut (d : Dev) (n : Nat) : Nat :=
  if 32 ≤ n ∨ n = d.rd 0x01F Reg.HBR_LHP_CFG.INST then 7 else 6

/-- The sets, with their crossbar outputs, that a member's copies are charged to. -/
def Dev.placesOf (d : Dev) (t : BitVec 14) : Dest → List (Nat × Nat)
  | .port p =>
    if isB p && (d.cbEntry (p / 2) t Reg.ETH_CB_STREAM.GEN).isSome then [(p / 2 * 2, p / 2 * 2), (p / 2 * 2 + 1, p / 2 * 2 + 1)]
    else [(p, xbarOf p)]
  | .host n q => [(0x100 + 16 * n + q, d.hostOut n)]
  | .list _ => [(0x79, 16)]
  | .cut => [(0x79, 16)]
  | .stay n _ _ => match d.linkToward n with | some l => [(0x18 + l, 8 + l)] | none => []
  | .bad => []

/-- R209, R488: why a member cannot take a sentence at all: the status and the place. -/
def Dev.memberBad (d : Dev) : Dest → Option (Nat × Nat)
  | .bad => some (0x09, 0x7D)
  | .host n _ => if d.on (instPage n) Reg.INST_STAT.EXISTS then none else some (0x09, 0x7D)
  | .stay n _ _ =>
    if n = d.pwr.devId ∨ d.rdStart 0x060 Reg.STY_TOPO.VALID n = 0 then some (0x09, 0x7D)
    else if (d.linkToward n).isNone then some (0x02, 0x18 + d.rdStart 0x060 Reg.STY_TOPO.PRI n) else none
  | _ => none

/-- R133, R172, R270, R407, R449: the status with which an egress point refuses a copy at once. -/
def Dev.refuses (d : Dev) (set : Nat) : Option Nat :=
  if set ≤ 0x15 then (match (d.eport set).link with | .down => some 0x02 | .disabled => some 0x02 | _ => none)
  else if between 0x20 0x3F set then
    let c := d.can (set - 0x20)
    if c.state == .disabled || (c.state == .busOff && c.holdAt.isNone) then some 0x02 else none
  else if between 0x40 0x4F set then (if d.on (linPage (set - 0x40)) Reg.PG_CTRL.EN then none else some 0x02)
  else if between 0x50 0x57 set then (if d.on (uarPage (set - 0x50)) Reg.PG_CTRL.EN then none else some 0x02)
  else if between 0x58 0x5F set then (if d.on (pollPage (set - 0x58)) Reg.PG_CTRL.EN then none else some 0x02)
  else if set < 0x100 then none
  else
    let n := (set - 0x100) / 16
    let h := d.hq n ((set - 0x100) % 16)
    if d.on (instPage n) Reg.INST_STAT.RESETTING then some 0x07
    else if h.mode = 0 ∨ h.stopped ∨ SMap.get (fun _ => false) d.hbr.d3 n = true then some 0x02 else none

/-- Mark the first copy toward each port of `ct` as one that starts cut-through (R234). -/
def markCut : List Nat → List Target → List Target
  | _, [] => []
  | ct, t :: ts => { t with ct := ct.contains t.set } :: markCut (ct.filter (· != t.set)) ts

/-- The copies to make for the members that can take one. -/
def Dev.targetsOf (d : Dev) (t : BitVec 14) (ms : List Member) (ct : List Nat) : List Target :=
  markCut ct (ms.flatMap fun m => if m.fail.isSome then [] else
    let xs := d.placesOf t m.dest
    xs.map fun x => ⟨.member m.idx, x.1, x.2, false, if xs.length = 2 then .open_ else .none⟩)

/-- The crossbar outputs of some copies, each once. -/
def outsOf (ts : List Target) : List Nat := (List.range 20).filter fun o => ts.any fun t => t.out == o

/-! ### Engine dispatch (R290 to R298) -/

def Dev.inSvc (d : Dev) (k : Nat) : Bool :=
  match (d.spe k).state with | .idle => true | .running => true | _ => false

/-- R293: the home engine of a talker. -/
def homeOf (t : BitVec 14) : Nat := Nat.xor (t.toNat * 17 % 256) (t.toNat / 256 % 256) % 72

/-- R293, R307: the first in-service engine above `k`, counting upward modulo 72. -/
def Dev.standIn (d : Dev) (k : Nat) : Option Nat :=
  ((List.range 71).map fun i => (k + 1 + i) % 72).find? d.inSvc

/-- R293: the engine that takes a talker's sentences. -/
def Dev.engineOf (d : Dev) (t : BitVec 14) : Option Nat :=
  if d.inSvc (homeOf t) then some (homeOf t) else d.standIn (homeOf t)

/-- R294: behind the last entry of equal or higher class and behind the last of the same talker. -/
def insertEntry (e : Entry) (q : List Entry) : List Entry :=
  let later := q.reverse.takeWhile fun x => x.cls < e.cls && x.talker != e.talker
  q.take (q.length - later.length) ++ [e] ++ q.drop (q.length - later.length)

/-- R294: enter an entry into the deque of engine `k`. -/
def Dev.enterDeque (d : Dev) (k : Nat) (e : Entry) : Dev :=
  (d.setSpe k { d.spe k with deque := insertEntry e (d.spe k).deque }).bump 0x050 Reg.ENG.DISPATCHED

/-- R295: the deque of the engine of entry `e` has room, and no sentence of its talker is pending before it. -/
def Dev.dequeRoom (d : Dev) (e : Entry) (before : List Entry) : Option Nat :=
  match d.engineOf e.talker with
  | none => none
  | some k => if (d.spe k).deque.length < 32 ∧ ¬ before.any (fun x => x.talker == e.talker) then some k else none

/-- R295: entries of the pending list that find room, in order. -/
def Dev.drainPending (d : Dev) : Dev :=
  let go := d.eng.pending.foldl (fun (acc : Dev × List Entry) e =>
    match acc.1.dequeRoom e acc.2 with
    | some k => (acc.1.enterDeque k e, acc.2)
    | none => (acc.1, acc.2 ++ [e])) (d, [])
  { go.1 with eng := { go.1.eng with pending := go.2 } }

/-- R294, R295, R298: the dispatcher accepts an admitted sentence. -/
def Dev.dispatch (d : Dev) (e : Entry) : Dev :=
  let c := d.tctl e.talker.toNat
  let e := if e.serial then { e with dnum := c.disp } else e
  let d := if e.serial then d.setTctl e.talker.toNat { c with disp := c.disp + 1 } else d
  match d.dequeRoom e d.eng.pending with
  | some k => d.enterDeque k e
  | none => { d with eng := { d.eng with pending := d.eng.pending ++ [e] } }

/-- R295: a sentence of talker `t` can be dispatched. -/
def Dev.dispatchRoom (d : Dev) : Bool := decide (d.eng.pending.length < 512)

/-- R540: store a talker's state word, which is bad no longer: the key is talker * 16 + word. -/
def Dev.putState (d : Dev) (k : Nat) (w : Word) : Dev :=
  { d with eng := { d.eng with ts := SMap.put (fun _ => 0) d.eng.ts k w }
           hlt := { d.hlt with badWords := d.hlt.badWords.filter fun b => b != stateKey k } }

/-- R316: reads of talker state over PCIe return the committed word once no write of PCIe to the word waits. -/
def Dev.tsReadsEnd (d : Dev) : Dev :=
  let waits := fun (x : Via × Nat) => d.eng.tsWait.any fun y => y.1 == x.2 && y.2.2 == 1
  let go := d.eng.tsReads.filter fun x => !waits x
  let d := { d with eng := { d.eng with tsReads := d.eng.tsReads.filter waits } }
  go.foldl (fun d x => d.emitWire (.read x.1 0 ((d.tsRead x.2).setWidth 32))) d

/-- R316: host writes of talker state that wait apply once the lock is released, and a held LHP cycle ends. -/
def Dev.tsApply (d : Dev) : Dev :=
  let free := fun (x : Nat × Word × Nat) => !(d.tctl (x.1 / 16)).lock
  let now := d.eng.tsWait.filter free
  let d := { d with eng := { d.eng with tsWait := d.eng.tsWait.filter fun x => !free x } }
  let d := if now.any fun x => x.2.2 == 2 then { d with hbr := { d.hbr with lwait := none } } else d
  (now.foldl (fun d x => d.putState x.1 x.2.1) d).tsReadsEnd

/-- R299, R316: the lock of a serial entry's talker is released and NEXT advances; what waited for the lock applies at once. -/
def Dev.unlockTalker (d : Dev) (e : Entry) : Dev :=
  if e.serial then
    let c := d.tctl e.talker.toNat
    (d.setTctl e.talker.toNat { c with lock := false, next := c.next + 1 }).tsApply
  else d

/-- R299: the number of a serial entry that leaves without a run is used up (notes/assumptions/15.md). -/
def Entry.closeGap (x e : Entry) : Entry :=
  if x.serial && x.talker == e.talker && decide (1 ≤ (x.dnum - e.dnum).toNat ∧ (x.dnum - e.dnum).toNat < 32768) then
    { x with dnum := x.dnum - 1 }
  else x

/-- R295, R299: take the entry of sentence `sid` out of the deques and the pending list; pending entries move up. A
re-execution gives its talker's lock back. -/
def Dev.unqueue (d : Dev) (sid : Nat) : Dev :=
  let all := d.eng.pending ++ d.eng.spes.flatMap fun x => x.2.deque
  match all.find? fun e => e.sid == sid with
  | none => d
  | some e =>
    let gap := e.serial && e.faults == 0
    let fix := fun (q : List Entry) => (q.filter fun x => x.sid != sid).map fun x => if gap then x.closeGap e else x
    let d := { d with eng := { d.eng with pending := fix d.eng.pending
                                          spes := d.eng.spes.mapVals .reset fun x => { x with deque := fix x.deque } } }
    let d := if gap then
        d.setTctl e.talker.toNat { d.tctl e.talker.toNat with disp := (d.tctl e.talker.toNat).disp - 1 }
      else if e.faults = 0 then d else d.unlockTalker e
    d.drainPending

/-! ### Handing a sentence on (R212, R248) -/

/-- A sentence as its stage hands it on. -/
structure Handed where
  shb   : Shb
  org   : Origin
  body  : List Byte
  life  : Nat
  inp   : Nat
  waits : WaitAt
  fid   : Nat
  bytes : Nat
  whole : Bool
  prog  : Nat := 0
  serial : Bool := false
  /-- R476: the link header of a sentence that is forwarded. -/
  fwd    : List (BitVec 16) := []
  /-- R243: its mirror copy. -/
  mir    : Option Nat := none

/-- R212: the members as they stand at hand-on: one that can take no copy has failed. -/
def Dev.startMembers (d : Dev) (ms : List Member) : List Member :=
  ms.map fun m => { m with fail := d.memberBad m.dest, open_ := if (d.memberBad m.dest).isSome then 0 else 1 }

/-- R248: the ticket stores have room for a sentence of talker `t` toward members `ms`. -/
def Dev.ticketRoom (d : Dev) (t : BitVec 14) (engine : Bool) (ms : List Member) : Bool :=
  (outsOf (d.targetsOf t (if engine then ms else d.startMembers ms) [])).all fun o =>
    (!engine && (d.ctxOf o t).isNone) || decide (d.ticketsAt o < 8192)

/-- R243: mirror copy `m` holds the cells of sentence `sid`. -/
def Dev.linkMirror (d : Dev) (m : Option Nat) (sid : Nat) : Dev :=
  match m.bind fun k => (d.sen k).map fun s => (k, s) with
  | some (k, s) => d.setSen k { s with what := .mirror (some sid) }
  | none => d

/-- What waits for its admission. -/
def Handed.sen (x : Handed) (id : Nat) (ts : List Target) (tks : List Nat) : Sen :=
  { shb := x.shb, acct := id, body := x.body, org := x.org, inp := x.inp, life := x.life, cells := [], whole := x.whole,
    waits := some x.waits, waited := false, targets := ts, adm := 0, tickets := tks, reserve := false, fid := x.fid,
    bytes := x.bytes, prog := x.prog, serial := x.serial, rtag := [], fwd := x.fwd }

/-- R208, R212, R248: a sentence is handed on toward its members: it waits for admission (R270), and takes its tickets.
Members that can take no copy fail at once. -/
def Dev.handOn (d : Dev) (x : Handed) (ms : List Member) (ct : List Nat) : Dev :=
  let id := d.swc.nextSid
  let ms := d.startMembers ms
  let ts := d.targetsOf x.shb.talker ms ct
  let tks := (outsOf ts).filter fun o => (d.ctxOf o x.shb.talker).isSome
  let d := { d with swc := { d.swc with nextSid := id + 1 } }
  let d := d.setAcct id ⟨x.shb, x.org, ms, true, false⟩
  let d := tks.foldl (fun d o => d.issue o x.shb.talker x.shb.seq 1) d
  if ts.isEmpty then d.settle id
  else (d.setSen id (x.sen id ts tks)).linkMirror x.mir id

/-- R212, row 7, R248: a sentence is handed to the dispatcher, with a ticket at every output of its members. -/
def Dev.handEngine (d : Dev) (x : Handed) (ms : List Member) : Dev :=
  let id := d.swc.nextSid
  let tks := outsOf (d.targetsOf x.shb.talker ms [])
  let d := { d with swc := { d.swc with nextSid := id + 1 } }
  let d := d.setAcct id ⟨x.shb, x.org, ms, false, false⟩
  let d := tks.foldl (fun d o => d.issue o x.shb.talker x.shb.seq 0) d
  (d.setSen id (x.sen id [⟨.engine, 0x78, 12, false, .none⟩] tks)).linkMirror x.mir id

end Sys2Proof.Machine
end

