-- ==== Sys2Proof/Machine/Flow.lean ====
section
/-! DEFINITION. What Ethernet ports share with the rest of the block: the counters of R139 and R140, the fill of an
ingress buffer (R277) and the back-pressure it raises (R123). -/

namespace Sys2Proof.Machine

open Sys2Proof

/-- R139: add to counter `n` of port `p`; bit 31 turning to 1 sets its half-range flag and CTR_HALF. -/
def Dev.ethAdd (d : Dev) (p n : Nat) (k : Nat := 1) : Dev :=
  let pg := ethPage p
  let old := d.rd pg Reg.ETH_CTR.N n
  let d := d.wr pg Reg.ETH_CTR.N (old + k) n
  if !bitAt old 31 && bitAt (d.rd pg Reg.ETH_CTR.N n) 31 then
    let f := if n < 32 then Reg.ETH_CTR_HALF_LO.H else Reg.ETH_CTR_HALF_HI.H
    (d.wr pg f (Nat.lor (d.rd pg f) (2 ^ (n % 32)))).raise pg 19
  else d

/-- R139: which of the size counters, from `base`, a frame of `n` bytes counts in. -/
def sizeBin (base n : Nat) : Nat :=
  if n ≤ 64 then base else if n ≤ 127 then base + 1 else if n ≤ 255 then base + 2 else if n ≤ 511 then base + 3
  else if n ≤ 1023 then base + 4 else if n ≤ 1518 then base + 5 else base + 6

/-- Unicast, multicast or broadcast: 0, 1 or 2. -/
def castOf (frame : List Byte) : Nat :=
  if (frame.take 6).all (· == 0xFF) then 2 else if bitAt (listGet 0 frame 0).toNat 0 then 1 else 0

/-- R140: a frame of `n` bytes with its FCS was sent whole with a good FCS. -/
def Dev.ethSent (d : Dev) (p : Nat) (frame : List Byte) (n : Nat) : Dev :=
  (((d.ethAdd p 24 n).ethAdd p 25).ethAdd p (26 + castOf frame)).ethAdd p (sizeBin 31 n)

/-- R277: whether an item or a waiting sentence fills the buffer of port `p`, in queue `q` where one is named. -/
def Origin.fills (o : Origin) (p : Nat) (q : Option Nat) : Bool :=
  match o with | .eth a b => a == p && (match q with | none => true | some c => b == c) | _ => false

/-- R277: bytes of whole frames not yet admitted. -/
def Dev.fill (d : Dev) (p : Nat) (q : Option Nat := none) : Nat :=
  sumOf (fun i => if i.whole && i.org.fills p q then i.metered else 0) d.nrm.items +
  sumOf (fun e => if e.2.whole && e.2.waits.isSome && e.2.org.fills p q then e.2.bytes else 0) d.swc.sens

/-- R123: a PAUSE frame with time `quanta`, or a PFC frame that gives it to the priorities of `vec`, padded to 60 bytes. -/
def Dev.pauseBytes (d : Dev) (p : Nat) (vec : Option Nat) (quanta : Nat) : List Byte :=
  let lo := d.rd (ethPage p) Reg.ETH_SRC_MAC_LO.A
  let b := wordBytes ([0x0180, 0xC200, 0x0001, d.rd (ethPage p) Reg.ETH_SRC_MAC_HI.A, lo / 65536, lo % 65536, 0x8808] ++
    (match vec with
     | none => [0x0001, quanta]
     | some v => [0x0101, v] ++ (List.range 8).map fun q => if bitAt v q then quanta else 0))
  b ++ List.replicate (60 - b.length) 0

/-- R123: half of QUANTA, in units of time. -/
def Dev.halfQuanta (d : Dev) (p : Nat) : Nat :=
  d.bitTime p (256 * d.rd (ethPage p) Reg.ETH_FC_CFG.QUANTA)

/-- R123: put a PAUSE or PFC frame on the wire; the next is due QUANTA/2 quanta later. -/
def Dev.emitPause (d : Dev) (p : Nat) (vec : Option Nat) (quanta : Nat) : Dev :=
  let b := d.pauseBytes p vec quanta
  let d := if quanta = 0 then d else d.setEport p { d.eport p with refreshAt := d.now + d.halfQuanta p }
  ((d.emitWire (.frame p b true)).ethAdd p (if vec.isSome then 30 else 29)).ethSent p b 64

/-- R123: the frames that waited for the one being sent go out, between frames. -/
def Dev.flushCtl (d : Dev) (p : Nat) : Dev :=
  let x := d.eport p
  if x.ctl.isEmpty || x.tx.isSome || x.held.isSome then d
  else x.ctl.foldl (fun d e => d.emitPause p e.1 e.2) (d.setEport p { x with ctl := [] })

/-- R123: send a PAUSE frame, or a PFC frame for the priorities of `vec`: never inside a frame that is being sent or is held
preempted. -/
def Dev.sendPause (d : Dev) (p : Nat) (vec : Option Nat) (quanta : Nat) : Dev :=
  (d.setEport p { d.eport p with ctl := (d.eport p).ctl ++ [(vec, quanta)] }).flushCtl p

/-- A condition with hysteresis: raised at `hi`, ended at `lo`. -/
def hyst (old : Bool) (v hi lo : Nat) : Bool := if old then decide (lo < v) else decide (hi ≤ v)

/-- R123: judge the fill of port `p` against XOFF and XON, and emit what that asks for. With TX_MODE 0b00 no condition is kept, so
TX_XOFF_ALL reads 0 (DESIGN CHOICE, notes/assumptions/51.md). -/
def Dev.flow (d : Dev) (p : Nat) : Dev :=
  let pg := ethPage p
  let e := d.eport p
  let hi := d.rd pg Reg.ETH_FC_THR.XOFF
  let lo := d.rd pg Reg.ETH_FC_THR.XON
  let quanta := d.rd pg Reg.ETH_FC_CFG.QUANTA
  if e.link != .up then d
  else
    let all := hyst e.xoffAll (d.fill p) hi lo
    let none8 := EthPort.reset.xoffQ
    match d.txMode p with
    | 1 =>
      let d' := d.setEport p { e with xoffAll := all, xoffQ := none8 }
      if !e.xoffAll && all then d'.sendPause p none quanta
      else if e.xoffAll && !all then d'.sendPause p none 0 else d'
    | 2 =>
      let qs := (List.range 8).map fun q => hyst (listGet false e.xoffQ q) (d.fill p (some q)) hi lo
      let en := d.rd pg Reg.ETH_FC_CFG.PFC_EN
      let was := pfcMask en e.xoffAll e.xoffQ
      let is := pfcMask en all qs
      let d' := d.setEport p { e with xoffAll := all, xoffQ := qs }
      let d' := if newBits was is != 0 then d'.sendPause p (some (newBits was is)) quanta else d'
      if newBits is was != 0 then d'.sendPause p (some (newBits is was)) 0 else d'
    | 3 => d.setEport p { e with xoffAll := all, xoffQ := none8 }
    | _ => d.setEport p { e with xoffAll := false, xoffQ := none8 }

/-- R195, R276: an accepted change leaves the always-on queue when its item is released. -/
def Dev.gpiGone (d : Dev) (fid : Nat) : Dev :=
  { d with fbus := { d.fbus with gpiq := d.fbus.gpiq.filter fun g => g.item.fid != fid } }

/-- R123, R195, R276, R429: what a source does when item `fid` of its own has left it. -/
def Dev.flowOf (d : Dev) (o : Origin) (fid : Nat) : Dev :=
  match o with | .eth p _ => d.flow p | .host _ _ _ _ _ _ => d.retryHeld | .bus _ => d.gpiGone fid | _ => d

end Sys2Proof.Machine
end

