-- ==== Sys2Proof/Machine/Buf.lean ====
section
/-! DEFINITION. The Buffer Manager (spec/08_buffers_and_congestion.md): handles, admission and push-out (R270 to R280),
spill and prefetch (R260 to R264), memory faults (R282) and the LPDDR5 controller (R284 to R286). -/

namespace Sys2Proof.Machine

open Sys2Proof

/-! ### Handles (R257) -/

/-- The first of `start`, `start + 1` … (modulo `n`) that is not in use. -/
def pickFree (used : List Nat) (n start : Nat) : Nat → Nat
  | 0 => start % n
  | k + 1 => if used.contains (start % n) then pickFree used n (start + 1) k else start % n

def CellAt.chips : CellAt → List Nat
  | .chip h => [h] | .spilling h _ => [h] | .ext _ => [] | .fetching _ h => [h]

def CellAt.exts : CellAt → List Nat
  | .chip _ => [] | .spilling _ x => [x] | .ext x => [x] | .fetching x _ => [x]

def Dev.chipsUsed (d : Dev) : List Nat := d.swc.sens.flatMap fun e => e.2.cells.flatMap CellAt.chips
def Dev.extsUsed (d : Dev) : List Nat := d.swc.sens.flatMap fun e => e.2.cells.flatMap CellAt.exts

/-- R257: `k` on-chip cells that are free; which ones the spec leaves open (notes/assumptions/1.md). -/
def Dev.takeCells (d : Dev) (used : List Nat) : Nat → List CellAt × Dev
  | 0 => ([], d)
  | k + 1 =>
    let h := pickFree used Config.onChipCells d.freeBits.toNat (used.length + 1)
    let r := Dev.takeCells d.drawn (h :: used) k
    (.chip h :: r.1, r.2)

/-! ### Checks (R267 to R270) -/

/-- R267: the cells that a sentence is admitted with. -/
def Dev.chargeOf (d : Dev) (s : Sen) : Nat :=
  if s.whole then cellsFor s.shb.len.toNat
  else match s.org with
    | .eth p _ => cellsFor (d.rd (ethPage p) Reg.ETH_MAXLEN.MAXLEN - 4)
    | _ => cellsFor s.shb.len.toNat

/-- R268, R280: LIMIT of set `e`, as it stood at the start of this cell time; R288: LIMIT and PROFILE lie in the entry of the
set. -/
def Dev.setLimit (d : Dev) (e : Nat) : Nat := d.rdStart (0x042 + e / 256) Reg.BUF_SET.LIMIT (e % 256)

/-- R268, R280: the limit of class `c` in set `e`. -/
def Dev.classLimit (d : Dev) (e c : Nat) : Nat :=
  let pf := d.rdStart (0x042 + e / 256) Reg.BUF_SET.PROFILE (e % 256)
  d.setLimit e * (d.rdStart 0x040 Reg.BUF_PROFILE.SHARE pf / 16 ^ c % 16 + 1) / 16

/-- R270: a check of admission. -/
inductive Check where
  | chip
  | pool
  | inst
  | set (e : Nat)
  | cls (e : Nat)
  deriving DecidableEq, Repr

/-- The sets of some copies, each once. -/
def setsOf (ts : List Target) : List Nat :=
  ts.foldl (fun acc t => if acc.contains t.set then acc else acc ++ [t.set]) []

/-- R270, R280: the checks that fail for `k` cells of class `c` and instance `n` toward the sets `es`. -/
def Dev.failing (d : Dev) (k c n : Nat) (es : List Nat) : List Check :=
  let quota := d.rdStart (instPage n) Reg.INST_QUOTA.QUOTA
  (if d.chipFree < k then [.chip] else []) ++
  (if d.poolFree < k + d.rdStart 0x040 Reg.BUF_FLOOR.FLOOR c then [.pool] else []) ++
  (if quota ≠ 0 ∧ quota < d.instUse n + k then [.inst] else []) ++
  es.flatMap fun e =>
    if d.setLimit e = 0 then []
    else (if d.setLimit e < d.setDepth e + k then [.set e] else []) ++
         (if d.classLimit e c < d.classDepth e c + k then [.cls e] else [])

/-! ### Push-out (R273 to R275) -/

/-- R273: the copy holds the last reference of its sentence. -/
def Dev.lastRef (d : Dev) (c : Copy) : Bool :=
  (d.swc.copies.filter fun x => x.sid == c.sid).length == 1 && !d.mirrored c.sid

/-- R273: evicting copy `c` of sentence `s` frees room for a check of an arrival of instance `n`. -/
def Dev.freesFor (d : Dev) (c : Copy) (s : Sen) (n : Nat) : Check → Bool
  | .chip => d.lastRef c
  | .pool => d.lastRef c
  | .inst => s.shb.inst.toNat == n && d.lastRef c
  | .set e => c.set == e
  | .cls _ => false

/-- R136, R281: a cut-through copy that was cut off, of a frame that is complete since, waits toward a port in HOLD to be sent
from its first bit. -/
def Dev.storedThere (d : Dev) (c : Copy) (x : Sen) : Bool :=
  c.place == .egress && x.whole && decide (c.set < 22) && (d.eport c.set).link == .hold

/-- R273: the copies that may be evicted for the arrival `s`, with their sentences. -/
def Dev.candidates (d : Dev) (s : Sen) (es : List Nat) (bad : List Check) : List (Copy × Sen) :=
  d.swc.copies.filterMap fun c =>
    match d.sen c.sid with
    | none => none
    | some x =>
      if es.contains c.set && decide (x.shb.cls.toNat < s.shb.cls.toNat) && c.place != .medium && (!c.cut || d.storedThere c x) &&
         (!s.shb.de || x.shb.de) && !x.reserve && bad.any (d.freesFor c x s.shb.inst.toNat) then some (c, x) else none

/-- R273: `b` is evicted before `a`: a lower class, then DE 1 before DE 0, then the one admitted last. -/
def evictsBefore (a b : Copy × Sen) : Bool :=
  if b.2.shb.cls ≠ a.2.shb.cls then decide (b.2.shb.cls.toNat < a.2.shb.cls.toNat)
  else if b.2.shb.de ≠ a.2.shb.de then b.2.shb.de else decide (a.2.adm ≤ b.2.adm)

/-- The candidate to evict first (of copies of one sentence, the one made last: notes/assumptions/16.md). -/
def bestVictim : List (Copy × Sen) → Option (Copy × Sen)
  | [] => none
  | x :: xs => match bestVictim xs with
    | none => some x
    | some y => if evictsBefore x y then some y else some x

/-- Take an engine-path input that no engine has taken out of the array and fail it. -/
def Dev.dropInput (d : Dev) (sid code port : Nat) : Dev := (d.unqueue sid).inputFails sid code port

/-- R274: evict a copy. -/
def Dev.evict (d : Dev) (c : Copy) (s : Sen) : Dev :=
  let d := (d.bump 0x040 Reg.BUF.PUSHOUTS).raise 0x040 16
  let d := d.bumpSat (instPage s.shb.inst.toNat) Reg.INST.PUSHED_OUT
  match c.role with
  | .engine => d.dropInput c.sid 0x04 0x7B
  | .member _ => d.copyFails c 0x04 0x7B
  | .record => d

/-- R271, R273: evict until every check holds, or answer `none`. -/
def Dev.makeRoom (d : Dev) (s : Sen) (k : Nat) (es : List Nat) : Nat → Option Dev
  | 0 => none
  | fuel + 1 =>
    let bad := d.failing k s.shb.cls.toNat s.shb.inst.toNat es
    if bad.isEmpty then some d
    else if bad.any fun b => match b with | .cls _ => true | _ => false then none
    else match bestVictim (d.candidates s es bad) with
      | none => none
      | some v => (d.evict v.1 v.2).makeRoom s k es fuel

/-! ### Copies that cannot be made (R209, R270, R488) -/

/-- R473: the set and crossbar output that a member's copy has now: a Stay member follows its path. -/
def Dev.retarget (d : Dev) (a : Nat) (t : Target) : Option Target :=
  match t.role with
  | .engine => some t
  | .record => some t
  | .member m =>
    match (d.acct a).bind fun x => x.members.find? fun y => y.idx == m with
    | some y => (match y.dest with
      | .stay n _ _ => (d.pathOf n).map fun l => { t with set := 0x18 + l.1, out := 8 + l.1 }
      | _ => some t)
    | none => some t

/-- The status with which copy `t` fails now, if it cannot be admitted. -/
def Dev.targetBad (d : Dev) (a : Nat) (t : Target) : Option Nat :=
  match t.role with
  | .engine => none
  | .record => none
  | .member _ => match d.retarget a t with | none => some 0x02 | some u => d.refuses u.set

/-- R127: after its pair's other port refused with a status, a copy stands alone. -/
def Target.alone (t : Target) (bad : List (Target × Nat)) : Target :=
  match bad.find? fun b => b.1.role == t.role with
  | some b => { t with mate := .failed b.2 b.1.set }
  | none => t

/-- The first refused copy of each member. -/
def firstOfEach (bad : List (Target × Nat)) : List (Target × Nat) :=
  bad.foldl (fun acc b => if acc.any fun x => x.1.role == b.1.role then acc else acc ++ [b]) []

/-- R245: settle the members of which no copy is left: the first refused copy of each gives the status. -/
def Dev.settleRefused (d : Dev) (a : Nat) (alive : List Target) (bad : List (Target × Nat)) : Dev :=
  (firstOfEach bad).foldl (fun d b =>
    match b.1.role with
    | .engine => d
    | .record => d
    | .member m =>
      if alive.any fun u => u.role == b.1.role then d
      else d.memberSettles a m
        (some (match b.1.mate with | .failed k p => (k, p) | _ => (b.2, d.placeOf b.1.set)))) d

/-- R270: copies toward an egress point that refuses fail at once; the others stay to be made. -/
def Dev.refuseTargets (d : Dev) (sid : Nat) : Dev :=
  match d.sen sid with
  | none => d
  | some s =>
    let bad := s.targets.filterMap fun t => (d.targetBad s.acct t).map fun code => (t, code)
    let alive := (s.targets.filter fun t => (d.targetBad s.acct t).isNone).map fun t => ((d.retarget s.acct t).getD t).alone bad
    if bad.isEmpty && alive == s.targets then d
    else
      let gone := s.tickets.filter fun o => !(alive.any fun t => t.out == o) && !(alive.any fun t => t.role == .engine)
      let d := if alive.isEmpty then { d with swc := { d.swc with sens := assocDel sid d.swc.sens } }
               else d.setSen sid { s with targets := alive }
      (gone.foldl (fun d o => d.ticketLess o sid s) d).settleRefused s.acct alive bad

/-! ### Admission (R270 to R279) -/

/-- R278: a sentence that waits fails as a whole. -/
def Dev.waitingFails (d : Dev) (sid code port : Nat) : Dev :=
  match d.sen sid with
  | none => d
  | some s =>
    if s.targets.any fun t => t.role == .engine then d.inputFails sid code port
    else
      let d := { d with swc := { d.swc with sens := assocDel sid d.swc.sens } }
      let d := s.tickets.foldl (fun d o => d.ticketLess o sid s) d
      let roles := s.targets.foldl (fun (acc : List Nat) t =>
        match t.role with | .member m => if acc.contains m then acc else acc ++ [m] | _ => acc) []
      roles.foldl (fun d m => d.memberSettles s.acct m (some (code, port))) d

/-- R277: no later sentence of a talker is admitted ahead of one that waits. -/
def Dev.blocked (d : Dev) (sid : Nat) (s : Sen) : Bool :=
  s.what == .sentence && d.swc.sens.any fun e =>
    e.2.what == .sentence && e.2.waits.isSome && e.2.waited && (match e.2.waits with | some (.engine _) => false | _ => true) &&
    e.2.shb.talker == s.shb.talker &&
    (decide (e.2.fid < s.fid) || (e.2.fid == s.fid && decide (e.1 < sid)))

/-- R272, R276, R289: a sentence that is not admitted waits. -/
def Dev.keepWaiting (d : Dev) (sid : Nat) (s : Sen) : Dev :=
  if s.waited then d
  else
    let d := d.setSen sid { s with waited := true }
    if s.fromReserve then d.bump 0x040 Reg.BUF.RSV_WAITS
    else ((d.bump 0x040 Reg.BUF.ADMIT_WAITS).raise 0x040 17).bumpSat (instPage s.shb.inst.toNat) Reg.INST.ADMIT_WAITS

/-- R294, R298: what the dispatcher enters for a sentence. -/
def Sen.entry (s : Sen) (sid : Nat) : Entry :=
  ⟨sid, s.shb.talker, s.shb.cls.toNat, s.shb.inst.toNat, s.prog, s.shb.bank, s.serial, 0, 0⟩

/-- R295: the dispatcher can take a sentence. -/
def Dev.dispatchFits (d : Dev) (e : Entry) : Bool := (d.dequeRoom e d.eng.pending).isSome || d.dispatchRoom

/-- R228, R233: the place of a sentence in the VOQ toward output `o`: a cut-through copy's first cell waits for its grant,
and the other cells of a frame that is still received are not there yet. -/
def crossOf (s : Sen) (sid k o : Nat) (ts : List Target) : Cross :=
  let ct := ts.any fun t => t.out == o && t.ct
  ⟨sid, s.inp, o, s.shb.cls.toNat, if s.whole then k else b2n ct, !s.whole, ct⟩

/-- R228, R243: the mirror copy of sentence `sid` that still waits to cross. -/
def Dev.mirrorCopy (d : Dev) (sid : Nat) : Option (Nat × Sen) := d.swc.sens.find? fun e => e.2.what == .mirror (some sid)

/-- R228, R267, R270: take in a sentence of `k` cells, of which its mirror copy holds the first. The outputs of an engine
enter their VOQs at its commit (R302). -/
def Dev.takeIn (d : Dev) (sid : Nat) (s : Sen) (k : Nat) : Dev :=
  let mir := d.mirrorCopy sid
  let had := match mir with | some m => m.2.cells.take k | none => []
  let r := d.takeCells d.chipsUsed (k - had.length)
  let d := r.2
  let d := match mir with | some m => d.setSen m.1 { m.2 with cells := [] } | none => d
  let s' := { s with cells := had ++ r.1, waits := none, targets := [], adm := d.swc.nextAdm, reserve := s.fromReserve }
  let d := d.setSen sid s'
  let stays := fun (t : Target) => t.role == .engine || (match s.waits with | some (.engine _) => true | _ => false)
  let copies := s.targets.map fun t =>
    (⟨sid, t.role, t.set, t.out, if stays t then .pool else .voq, t.ct, false, t.mate⟩ : Copy)
  let voq := (outsOf (s.targets.filter fun t => !stays t)).map fun o => crossOf s sid k o s.targets
  let d := { d with swc := { d.swc with nextAdm := d.swc.nextAdm + 1, copies := d.swc.copies ++ copies,
                                        voq := d.swc.voq ++ voq } }
  let d := if s.targets.any fun t => t.role == .engine then d.dispatch (s.entry sid) else d
  d.flowOf s.org s.fid

/-- R270 to R273, R276, R279: while a loss record of the Buffer Manager waits, it evicts nothing. Whether the checks allow
sentence `s`, and the state after the evictions that they need. -/
def Dev.roomFor (d : Dev) (s : Sen) (k : Nat) : Option Dev :=
  if s.fromReserve then (if k ≤ d.reserveFree then some d else none)
  else if d.stageWaits 0x7B && !(d.failing k s.shb.cls.toNat s.shb.inst.toNat (setsOf s.targets)).isEmpty then none
  else d.makeRoom s k (setsOf s.targets) (d.swc.copies.length + 1)

/-- R291: no engine is in service. -/
def Dev.noEngine (d : Dev) : Bool := d.inService == 0

/-- R272: judge a waiting sentence that can be admitted somewhere. -/
def Dev.judgeSen (d : Dev) (sid : Nat) (s : Sen) : Dev :=
  let engine := s.targets.any fun t => t.role == .engine
  if s.waits.isNone then d
  else if engine && d.noEngine then
    (((d.bump 0x050 Reg.ENG.ENGINE_FAULTS).raise 0x050 21).inputFails sid 0x01 0x78).flowOf s.org s.fid
  else if d.blocked sid s || (engine && !d.dispatchFits (s.entry sid)) then d.keepWaiting sid s
  else match d.roomFor s (d.chargeOf s) with
    | some d' => d'.takeIn sid s (d.chargeOf s)
    | none => d.keepWaiting sid s

/-- R272: judge one waiting sentence. -/
def Dev.judge (d : Dev) (sid : Nat) : Dev :=
  match d.sen sid with
  | none => d
  | some s0 =>
    let d := d.refuseTargets sid
    match d.sen sid with
    | none => d.flowOf s0.org s0.fid
    | some s => d.judgeSen sid s

/-- Put (fid, sid) in order. -/
def insertPair (x : Nat × Nat) : List (Nat × Nat) → List (Nat × Nat)
  | [] => [x]
  | y :: ys => if x.1 < y.1 ∨ (x.1 = y.1 ∧ x.2 ≤ y.2) then x :: y :: ys else y :: insertPair x ys

/-- R272: the waiting sentences, the highest class first and in capture order within a class. -/
def Dev.judgeOrder (d : Dev) : List Nat :=
  ((List.range 8).reverse.flatMap fun c =>
    ((d.swc.sens.filter fun e => e.2.waits.isSome && e.2.shb.cls.toNat == c).foldl
      (fun acc e => insertPair (e.2.fid, e.1) acc) []).map fun x => x.2)

/-- R29, R30, R36: a device control sentence takes its number and is handed on. Its INST is not stated
(notes/assumptions/1.md). -/
def Dev.handControl (d : Dev) (it : Item) : Dev :=
  let seq := d.cell16 0x3FFF
  let rpt := it.body.take 2 == [0x01, 0x01]
  let inst : BitVec 6 := if rpt then 0 else d.freeBits.setWidth 6
  let d := if rpt then d else d.drawn
  let d := { d with nrm := { d.nrm with seqs := SMap.put (fun _ => 0) d.nrm.seqs 0x3FFF (seq + 1)
                                        items := d.nrm.items.filter fun i => i.fid != it.fid } }
  let h : Shb := ⟨0x3FFF, it.kind, it.cls, false, inst, 0, seq, BitVec.ofNat 14 it.body.length, it.bank.getD 0, it.time⟩
  let ms := match it.partA with | some a => a.members | none => []
  d.handOn { shb := h, org := .device, body := it.body, life := d.momentOf it.time, inp := 17, waits := .source,
             fid := it.fid, bytes := 0, whole := true } ms []

/-- R201: the device routes its control sentences itself. -/
def Dev.handControls (d : Dev) : Dev :=
  (d.nrm.items.filter fun i => i.org == .device).foldl (fun d it => d.handControl it) d

/-- R272: the end of a cell time: what was originated is handed on, and what waits is judged. -/
def Dev.admission (d : Dev) : Dev :=
  let d := d.handControls
  d.judgeOrder.foldl (fun d sid => d.judge sid) d

/-- ADMISSION (R272). -/
def execAdmission : State → Host.Outcome State Fault Refusal := onDevL Dev.admission

/-- ADMIT_LIFETIME (R278): a sentence that waits for admission has outlived its class lifetime. -/
def execAdmitLifetime (sid : Nat) : State → Host.Outcome State Fault Refusal := onDevL fun d =>
  match d.sen sid with
  | none => d
  | some s =>
    if s.waits.isSome && d.expired s && !d.stageWaits 0x7B then
      ((d.bump 0x040 Reg.BUF.ADMIT_LIFETIME).waitingFails sid 0x03 0x7B).flowOf s.org s.fid
    else d

/-! ### Spill and prefetch (R261 to R264) -/

/-- The copies of class `c` in set `e`, in queue order: what is being sent, what was released to the egress point, and what
has not come so far. -/
def Dev.classQueue (d : Dev) (e c : Nat) : List Copy :=
  let mine := d.swc.copies.filter fun x =>
    x.set == e && (match d.sen x.sid with | some s => s.shb.cls.toNat == c | none => false)
  (mine.filter fun x => x.place == .medium) ++ (mine.filter fun x => x.place == .egress) ++
    mine.filter fun x => x.place != .medium && x.place != .egress

/-- Cells of the copies ahead of sentence `sid` in a class queue. -/
def Dev.cellsAhead (d : Dev) (sid : Nat) : List Copy → Nat
  | [] => 0
  | c :: cs => if c.sid = sid then 0 else (match d.sen c.sid with | some s => s.cells.length | none => 0) + d.cellsAhead sid cs

/-- R262, R263: cell `j` of sentence `sid` lies within the first AHEAD cells from the head of a class queue. -/
def Dev.nearHead (d : Dev) (sid j : Nat) : Bool :=
  match d.sen sid with
  | none => false
  | some s => (d.swc.copies.filter fun c => c.sid == sid).any fun c =>
      decide (d.cellsAhead sid (d.classQueue c.set s.shb.cls.toNat) + j < d.rd 0x040 Reg.BUF_PREFETCH.AHEAD)

/-- R262: no copy of sentence `sid` is being sent, and it is complete, no input of an engine, mirrored or of the reserve, and
cell `j` lies outside the head regions. -/
def Dev.spillAllowed (d : Dev) (sid j : Nat) : Bool :=
  match d.sen sid with
  | none => false
  | some s =>
    s.whole && s.what == .sentence && !s.reserve && !s.late && !d.mirrored sid && !d.nearHead sid j &&
    !(d.swc.copies.any fun c => c.sid == sid && (c.place == .medium || c.role == .engine || (c.cut && c.place != .voq)))

/-- R262: cell `j` of sentence `sid` lies on chip and may be spilled. -/
def Dev.maySpill (d : Dev) (sid j : Nat) : Bool :=
  match d.sen sid with
  | none => false
  | some s =>
    (match listGet (.ext 0) s.cells j with | .chip _ => decide (j < s.cells.length) | _ => false) && d.spillAllowed sid j

/-- R261: in class `c` of set `e`, the cell nearest the tail that may be spilled. -/
def Dev.spillIn (d : Dev) (e c : Nat) : Option (Nat × Nat) :=
  (d.classQueue e c).reverse.findSome? fun x =>
    match d.sen x.sid with
    | none => none
    | some s => ((List.range s.cells.length).reverse.find? fun j => d.maySpill x.sid j).map fun j => (x.sid, j)

/-- R261: the sets deeper than SPILL_DEPTH that hold a cell which may be spilled, with that cell. -/
def Dev.spillable (d : Dev) : List (Nat × (Nat × Nat)) :=
  (setsOf (d.swc.copies.map fun c => ⟨c.role, c.set, c.out, false, .none⟩)).filterMap fun e =>
    if d.rd 0x040 Reg.BUF_PREFETCH.SPILL_DEPTH < d.setDepth e then
      ((List.range 8).findSome? fun c => d.spillIn e c).map fun x => (d.setDepth e, x)
    else none

/-- The cell of the deepest set, the first among equals (notes/assumptions/16.md). -/
def deepest : List (Nat × (Nat × Nat)) → Option (Nat × (Nat × Nat))
  | [] => none
  | x :: xs => match deepest xs with | none => some x | some y => if x.1 < y.1 then some y else some x

def Dev.setCell (d : Dev) (sid j : Nat) (c : CellAt) : Dev :=
  match d.sen sid with
  | none => d
  | some s => d.setSen sid { s with cells := listSet s.cells j c }

/-- R260, R261, R286: cells move to and from external memory now. -/
def Dev.xmMoves (d : Dev) : Bool := d.xmOn && !d.xm.retrain

/-- R263: the next cell of a sentence to cross is on chip. -/
def Dev.cellReady (d : Dev) (x : Cross) : Bool :=
  match d.sen x.sid with
  | none => false
  | some s =>
    let cells := d.cellsOf s
    match listGet (.chip 0) cells (cells.length - x.left) with
    | .ext _ => false | .fetching _ _ => false | _ => true

/-- R228, R229: the same VOQ. -/
def Cross.sameVoq (x y : Cross) : Bool := x.inp == y.inp && x.out == y.out && x.cls == y.cls

/-- R229: the heads of the VOQs. -/
def voqHeads : List Cross → List Cross
  | [] => []
  | x :: xs => x :: (voqHeads xs).filter fun y => !x.sameVoq y

/-- R263: a cell that must come back: it lies near a queue head, an egress point waits for it, or it is the next to cross of the
sentence at the head of a VOQ. -/
def Dev.wanted (d : Dev) (sid j : Nat) : Bool :=
  d.nearHead sid j ||
  match d.sen sid with
  | some s => s.late || (voqHeads d.swc.voq).any fun x => x.sid == sid && x.left != 0 && j + x.left == s.cells.length
  | none => false

/-- Every (sentence, cell) of which the place satisfies `f`. -/
def Dev.cellsWhere (d : Dev) (f : Nat → Nat → CellAt → Bool) : Option (Nat × Nat × CellAt) :=
  d.swc.sens.findSome? fun e =>
    ((List.range e.2.cells.length).find? fun j => f e.1 j (listGet (.ext 0) e.2.cells j)).map fun j =>
      (e.1, j, listGet (.ext 0) e.2.cells j)

/-- R264: a prefetch waits for the memory, which it takes before a spill does. -/
def Dev.prefetchWaits (d : Dev) : Bool :=
  (d.cellsWhere fun sid j c => (match c with | .ext _ => decide (0 < d.chipFree) | _ => false) && d.wanted sid j).isSome

/-- SPILL (R261): one spill starts, while cells are spilled. With no cell that may be spilled, spilling ends. -/
def execSpill : State → Host.Outcome State Fault Refusal := onDevL fun d =>
  let d := d.spillFollow
  if !d.xmMoves || !d.xm.spill || d.prefetchWaits then d
  else if d.extFree = 0 then { d with xm := { d.xm with spill := false } }
  else match deepest d.spillable with
    | none => { d with xm := { d.xm with spill := false } }
    | some (_, sid, j) =>
      match (d.sen sid).map (fun s => listGet (CellAt.ext 0) s.cells j) with
      | some (CellAt.chip h) =>
        let x := pickFree d.extsUsed (d.xm.cellsMi * 2 ^ 20) d.freeBits.toNat (d.extsUsed.length + 1)
        d.drawn.setCell sid j (.spilling h x)
      | _ => d

/-- SPILL_DONE (R258, R262 to R264, R283): the spill that was started first ends; its handle is replaced. A cell that may not be
spilled any more, or that no memory takes, stays on chip. Transfers stop while the memory is retrained (R286). -/
def execSpillDone : State → Host.Outcome State Fault Refusal := onDevL fun d =>
  if d.xm.retrain then d else
  match d.cellsWhere fun _ _ c => match c with | .spilling _ _ => true | _ => false with
  | some (sid, j, .spilling h x) =>
    if !d.xmOn || !d.spillAllowed sid j then d.setCell sid j (.chip h) else
    let inp := match d.sen sid with | some s => s.inp | none => 0
    ((d.setCell sid j (.ext x)).bump 0x040 Reg.BUF.SPILLED).countCells inp (18 + x % 2) 1
  | _ => d

/-- R263: the cells of a sentence that an egress point must send are on chip. A copy is sent once all of them are
(notes/assumptions/17.md). -/
def Sen.cellsReady (s : Sen) : Bool := s.cells.all fun c => match c with | .ext _ => false | .fetching _ _ => false | _ => true

/-- R289: judge the cell times before number `c` in which an egress point waited for a prefetch. -/
def Dev.lateCount (d : Dev) (c : Nat) : Dev :=
  if d.swc.sens.any fun e => e.2.late then
    { (d.bump 0x040 Reg.BUF.PREFETCH_LATE (c - d.xm.lateTo)) with xm := { d.xm with lateTo := max d.xm.lateTo c } }
  else d

/-- R289: an egress point waits for a prefetch in this cell time. -/
def Dev.lateNow (d : Dev) : Dev :=
  let c := d.now / Config.cellTime
  let d := (d.lateCount (c + 1)).raise 0x040 22
  if c < d.xm.lateTo then d
  else { (d.bump 0x040 Reg.BUF.PREFETCH_LATE) with xm := { d.xm with lateTo := c + 1 } }

/-- R263, R289: an egress point waits for the cells of sentence `sid`. -/
def Dev.prefetchLate (d : Dev) (sid : Nat) (s : Sen) : Dev := d.lateNow.setSen sid { s with late := true }

/-- R263: the wait of an egress point for sentence `sid` is over. -/
def Dev.lateEnds (d : Dev) (sid : Nat) (s : Sen) : Dev :=
  if s.late then (d.lateCount (d.now / Config.cellTime)).setSen sid { s with late := false } else d

/-- R263: a cell of sentence `sid` came back on chip; the wait for them ends with the last. -/
def Dev.cellBack (d : Dev) (sid : Nat) : Dev :=
  match d.sen sid with
  | some s => if s.cellsReady then d.lateEnds sid s else d
  | none => d

/-- R263, R289: an egress point whose next sentence of a class stands at the head of its VOQ waits for a cell that is not on
chip. -/
def Dev.crossLate (d : Dev) : Dev :=
  let waits := fun (x : Cross) => x.left != 0 && !d.cellReady x &&
    d.swc.copies.any fun c => c.sid == x.sid && c.out == x.out && c.place == .voq &&
      (match d.classQueue c.set x.cls with | y :: _ => y.is c | [] => false)
  if (voqHeads d.swc.voq).any waits then d.lateNow else d

/-- PREFETCH (R263): a cell near a queue head comes back: a spill under way is cancelled, an external cell is fetched. -/
def execPrefetch : State → Host.Outcome State Fault Refusal := onDevL fun d =>
  if d.xm.retrain then d
  else match d.cellsWhere fun sid j c =>
      (match c with | .spilling _ _ => true | .ext _ => decide (0 < d.chipFree) | _ => false) && d.wanted sid j with
  | some (sid, j, .spilling h _) => (d.setCell sid j (.chip h)).cellBack sid
  | some (sid, j, .ext x) =>
    let h := pickFree d.chipsUsed Config.onChipCells d.freeBits.toNat (d.chipsUsed.length + 1)
    d.drawn.setCell sid j (.fetching x h)
  | _ => d

/-- R540: whether the read of an external cell met an error that the code corrects is a free value; it makes a record of XM_CE
(notes/assumptions/27.md). -/
def Dev.cellCorrected (d : Dev) : Dev := if d.freeBits.getLsbD 0 then d.drawn.fault 0x040 0x08 0x7B else d.drawn

/-- PREFETCH_DONE (R258, R263): the cell is back on chip. It crossed from input 18 or 19 (notes/assumptions/17.md). -/
def execPrefetchDone : State → Host.Outcome State Fault Refusal := onDevL fun d =>
  if d.xm.retrain then d else
  match d.cellsWhere fun _ _ c => match c with | .fetching _ _ => true | _ => false with
  | some (sid, j, .fetching x h) =>
    ((((d.setCell sid j (.chip h)).cellBack sid).bump 0x040 Reg.BUF.PREFETCHED).bump64 0x030 Reg.SWC_XIN_CELLS_LO.N
      Reg.SWC_XIN_CELLS_HI.N 1 (18 + x % 2)).cellCorrected
  | _ => d

/-! ### Memory faults (R282) -/

/-- R112, R282: the frame of sentence `sid` that port `p` is sending, or has preempted, ends with an inverted FCS. One in
back-off is not sent again. -/
def Dev.stompAt (d : Dev) (sid p : Nat) : Dev :=
  let x := d.eport p
  let mine := fun (f : Option TxFrame) => match f with | some y => y.sid == sid | none => false
  let cut := fun (d : Dev) (f : Option TxFrame) => match f with
    | some y => (d.ethAdd p 38).emitWire (.frame p y.bytes false)
    | none => d
  if mine x.tx then (cut ((d.shape p).setEport p { x with tx := none }) x.tx).flushCtl p
  else if mine x.held then
    let d := d.setEport p { x with held := none, backoff := false }
    if isM p then d else (cut d x.held).flushCtl p
  else d

def Dev.stomp (d : Dev) (sid : Nat) : Dev := (List.range 22).foldl (fun d p => d.stompAt sid p) d

/-- R282: every copy of sentence `sid` fails with MEM_FAULT. A loss record or a mirror copy does not reach the ring (R246). -/
def Dev.memFails (d : Dev) (sid : Nat) : Dev :=
  let d := (d.bump 0x040 Reg.BUF.MEM_FAULTS).raise 0x040 21
  match (d.sen sid).bind fun s => if s.what == .sentence then none else some s with
  | some s => (d.recordGone sid s).ringLost (s.what == .loss)
  | none =>
  if d.swc.copies.any fun c => c.sid == sid && c.role == .engine then d.dropInput sid 0x06 0x7B
  else (d.stomp sid).allFail sid 0x06 0x7B

/-- R541: the handle of a cell. -/
def CellAt.handle : CellAt → Nat
  | .chip h => h | .spilling h _ => h | .ext x => 0x1000000 + x | .fetching x _ => 0x1000000 + x

/-! ### The LPDDR5 controller (R284 to R286) -/

/-- R286: a cell that lies in external memory alone. -/
def CellAt.external : CellAt → Bool | .ext _ => true | .fetching _ _ => true | _ => false

/-- R389, R455: the capacity of the ring that fits between the cells and the image slots, in 64-byte slots. -/
def extFit (density cellsMi want : Nat) : Nat :=
  let room := 2 ^ (23 + density) - cellsMi * 2 ^ 21 - 2 ^ 21
  if want ≤ 13 then 13 else
  ((List.range 21).reverse.find? fun k => decide (k ≤ want) && decide (2 ^ k ≤ room) && decide (13 < k)).getD 13

/-- R286: one second of working clock. -/
def perSecond : Nat := 1000 * Config.perMs

/-- R286: when the next periodic retraining falls due; 0 for never. -/
def Dev.retrainDue (d : Dev) : Nat :=
  let s := d.rd 0x040 Reg.BUF_XM_CFG.RETRAIN_S
  if s = 0 then 0 else d.now + s * perSecond

/-- The die temperature in units of 0.25 °C. -/
def Dev.tj (d : Dev) : Int := signed 11 (d.rd 0x001 Reg.PCH_TEMP.TJ)

/-- XM_TRAINING (R284, R285): training starts once EN is 1. The first one after a power-on reset, RESET_N or wake from Struck
takes the settings. -/
def execXmTraining : State → Host.Outcome State Fault Refusal := onDevL fun d =>
  if !d.on 0x040 Reg.BUF_XM_CFG.EN || d.xm.training || d.xm.ready || d.xm.fail || d.pwr.boot == .waitRails then d
  else if d.xm.latched then { d with xm := { d.xm with training := true } }
  else
    let den := d.rd 0x040 Reg.BUF_XM_CFG.DENSITY
    let mi := d.rd 0x040 Reg.BUF_XM_CFG.CELLS_MI
    let want := d.rd 0x020 Reg.TBU_RING_CFG.EXT_LOG2
    { d with xm := { d.xm with
        training := true, latched := true, rate := d.rd 0x040 Reg.BUF_XM_CFG.RATE, density := den, cellsMi := mi,
        extRing := d.on 0x020 Reg.TBU_RING_CFG.EXT, extLog2 := extFit den mi want } }

/-- XM_TRAINING_DONE (R285). -/
def execXmTrainingDone (ok : Bool) : State → Host.Outcome State Fault Refusal := onDevL fun d =>
  if !d.xm.training || d.xm.retrain then d
  else if ok then
    { d with xm := { d.xm with training := false, ready := true, temp := d.tj, due := d.retrainDue } }
  else ({ d with xm := { d.xm with training := false, fail := true } }).fault 0x040 0x0A 0x7B

/-- R286: retraining starts. -/
def Dev.retrainStarts (d : Dev) : Dev := { d with xm := { d.xm with training := true, retrain := true, retryAt := 0 } }

/-- R286: the temperature has moved 10 °C since the last training. -/
def Dev.tempMoved (d : Dev) : Bool := decide (40 ≤ (d.tj - d.xm.temp).natAbs)

/-- XM_RETRAIN (R286): the device starts retraining, or its start is refused and tried again after 100 ms, whatever asked for it. -/
def execXmRetrain : State → Host.Outcome State Fault Refusal := onDevL fun d =>
  if !d.xm.ready || d.xm.training || (d.xm.due == 0 && !d.tempMoved) then d
  else
    let d := (if d.tempMoved then d else d.reach d.xm.due).reach d.xm.retryAt
    let r := d.maintTake 0x040 3 0
    if r.1 then r.2.retrainStarts
    else { r.2 with xm := { d.xm with retryAt := d.now + 100 * Config.perMs } }

/-- R286: a write of START from source `src`. -/
def Dev.xmStart (d : Dev) (src : Nat) : Dev :=
  if !d.xm.ready || d.xm.training then d
  else
    let r := d.maintTake 0x040 3 src
    if r.1 then r.2.retrainStarts else r.2

/-- XM_RETRAIN_START (R286). -/
def execXmRetrainStart (via : Via) : State → Host.Outcome State Fault Refusal := onBus .xmRetrainStart via 0x040 fun d =>
  d.unlocked 0x040 fun d => d.xmStart (viaCode via)

/-- R387, R389: a record of which no slot lies in external memory. -/
def RingRec.onChip (r : RingRec) : Bool := decide (r.pos + slotsOf r ≤ 8192)

/-- R389: the records held in external memory are lost, and the ring continues on chip. -/
def Dev.ringShrinks (d : Dev) : Dev :=
  let kept := d.tbu.ring.filter RingRec.onChip
  let lost := d.tbu.ring.length - kept.length
  let d := { d with tbu := { d.tbu with ring := kept
                                        ringNext := if d.tbu.ringNext < 8192 then d.tbu.ringNext else 0
                                        ringPopped := if (d.tbu.ring.head?.map RingRec.onChip) = some false then 0
                                          else d.tbu.ringPopped } }
  if lost = 0 then d else (d.bump 0x020 Reg.TBU.RING_LOST lost).raise 0x020 19

/-- XM_RETRAIN_DONE (R286). -/
def execXmRetrainDone (ok : Bool) : State → Host.Outcome State Fault Refusal := onDevL fun d =>
  if !d.xm.retrain then d
  else
    let d := d.maintEnd 0x040 3
    if ok then
      { d with xm := { d.xm with training := false, retrain := false, temp := d.tj, due := d.retrainDue } }
    else
      let hit := d.swc.sens.filter fun e => e.2.cells.any CellAt.external
      let ext := d.xm.extRing
      let d := { d with xm := { d.xm with training := false, retrain := false, fail := true, ready := false }
                        insts := { d.insts with images := [] } }
      let d := hit.foldl (fun d e => d.memFails e.1) d
      let d := if ext then d.ringShrinks else d
      d.fault 0x040 0x0A 0x7B hit.length

end Sys2Proof.Machine
end

