-- ==== Sys2Proof/Machine/Nrm.lean ====
section
/-! DEFINITION. Ingress normalisation (spec/06_ingress_and_tables.md): lookup (R201 to R213), the storm-jib lookup (R521),
policing (R214 to R217), mirror copies (R385, R386) and handing on. -/

namespace Sys2Proof.Machine

open Sys2Proof

/-! ### Items -/

/-- R35: the port code of an origin. -/
def Dev.portOf (d : Dev) : Origin → Nat
  | .eth p _ => p
  | .bus c => c
  | .host n _ _ _ _ _ => if n = d.rd 0x01F Reg.HBR_LHP_CFG.INST then 0x71 else 0x70
  | .stay l => 0x18 + l
  | .gateway _ _ => 0x79
  | .device => 0x7D

/-- R46, R228: the crossbar input that holds the cells of an arrival. -/
def Dev.inputOf (d : Dev) : Origin → Nat
  | .eth p _ => xbarOf p
  | .bus _ => 5
  | .host n _ _ _ _ _ => d.hostOut n
  | .stay l => 8 + l
  | .gateway _ _ => 16
  | .device => 17

/-- R276: where a sentence of an origin waits. -/
def waitOf (t : BitVec 14) : Origin → WaitAt
  | .eth _ _ => .pipe (t.toNat % 4)
  | .bus _ => .pipe (t.toNat % 4)
  | _ => .source

/-! ### The storm-jib lookup (R519 to R521) -/

/-- The C-tag VID of a frame. -/
def frameVid (body : List Byte) : Option Nat :=
  match body.drop 12 with
  | a :: b :: c :: e :: _ => if a = 0x81 ∧ b = 0x00 then some ((c.toNat * 256 + e.toNat) % 4096) else none
  | _ => none

/-- R43, R165, R167: the identifier in a CAN payload; of an XL frame its priority identifier, in bits 10:0. -/
def canIdOf (body : List Byte) : Nat :=
  if bitAt (listGet 0 body 0).toNat 2 then ((listGet 0 body 2).toNat * 256 + (listGet 0 body 3).toNat) % 2048
  else (listGet 0 body 2).toNat * 2 ^ 24 + (listGet 0 body 3).toNat * 2 ^ 16 + (listGet 0 body 4).toNat * 256 + (listGet 0 body 5).toNat

/-- R520: dword `k` of entry `e`. -/
def SjCopy.dword (c : SjCopy) (e k : Nat) : Nat := (SMap.get (fun _ => 0) c.ents (4 * e + k)).toNat

/-- R520, R521: entry `e` matches an item of port code `port`. -/
def SjCopy.hits (c : SjCopy) (e port : Nat) (org : Origin) (body : List Byte) : Bool :=
  let d0 := c.dword e 0
  let key := c.dword e 1 % 2 ^ 29
  bitAt d0 31 && d0 % 256 == port &&
  (match d0 / 256 % 4 with
   | 0 => true
   | 1 => (match org with | .eth _ _ => frameVid body == some (key % 4096) | _ => false)
   | 2 => between 0x20 0x3F port && canIdOf body % 2 ^ 29 == key
   | _ => false)

/-- R520: member `i` of an entry. -/
def sjMember (d3 i : Nat) : Option Member :=
  let x := d3 / 256 ^ i % 256
  if x = 0xFF then none
  else some (.fresh i (if x = 0x70 then .host 0 0 else if x ≤ 0x15 ∨ between 0x20 0x5F x = true then .port x else .bad))

/-- R521: the first matching entry in the copy in use. -/
def Dev.sjFind (d : Dev) (it : Item) : Option (SjCopy × Nat) :=
  match d.sjCopy with
  | none => none
  | some (_, c) => ((List.range 1024).find? fun e => c.hits e (d.portOf it.org) it.org it.body).map fun e => (c, e)

/-! ### Part A: stages 1, 3 and 5 (R201) -/

/-- What the stages of part A make of an item: the bank taken, the item with its talker and class, what they read. -/
structure Looked where
  bank : BitVec 2
  item : Item
  a    : PartA

/-- R206: fields of a talker entry. -/
def entryUsed (d0 : BitVec 32) : Bool := bitsOf d0 0 1 == 1 && bitsOf d0 1 2 != 3
def PartA.path (a : PartA) : Nat := bitsOf a.d0 1 2
def PartA.valid (a : PartA) : Bool := entryUsed a.d0

/-- R201, R206: dword 0 of the entry of talker `t` under bank `b`. Any entry for talker 0x3FFF is ignored. -/
def Dev.talkerD0 (d : Dev) (b : BitVec 2) (t : BitVec 14) : BitVec 32 :=
  if t = 0x3FFF then 0 else d.tab32 b (0x100000 + 8 * t.toNat)

/-- R205, R218, R359: the bank that the lookup takes. A frame captured in SJ_MODE keeps the storm-jib table, also when a
COMMIT clears SJ_MODE before its lookup (DESIGN CHOICE, notes/assumptions/55.md). -/
def Dev.bankFor (d : Dev) (it : Item) : BitVec 2 :=
  match it.bank, it.org with
  | some b, .eth _ _ => b
  | some b, .gateway _ _ => b
  | _, _ => d.ownBank

/-- R521: the lookup while SJ_MODE is 1: the fast path, instance 0, no policing. -/
def Dev.lookSj (d : Dev) (it : Item) : Looked :=
  match d.sjFind it with
  | none => ⟨2, it, ⟨1, 0, [], false, true, [], !it.whole⟩⟩
  | some (c, e) =>
    let d2 := c.dword e 2
    ⟨2, { it with talker := BitVec.ofNat 14 d2, cls := BitVec.ofNat 3 (d2 / 2 ^ 16) },
      ⟨1, 0, (List.range 4).filterMap (sjMember (c.dword e 3)), false, false, [], !it.whole⟩⟩

/-- R206, R208: the lookup in the tables of bank `b`. -/
def Dev.lookTab (d : Dev) (b : BitVec 2) (it : Item) : Looked :=
  let d0 := d.talkerD0 b it.talker
  let d1 := d.tab32 b (0x100004 + 8 * it.talker.toNat)
  let it := if bitsOf d0 5 1 = 1 ∧ entryUsed d0 = true then { it with cls := BitVec.ofNat 3 (bitsOf d0 6 3) } else it
  let ms := if entryUsed d0 = true ∧ bitsOf d0 1 2 ≤ 1 then d.resolve b (bitsOf d0 30 1 == 1) (bitsOf d0 16 14) else some []
  ⟨b, it, ⟨d0, d1, ms.getD [], ms.isNone, false, [], !it.whole⟩⟩

/-- Stages 1, 3 and 5 of a lookup. -/
def Dev.look (d : Dev) (it : Item) : Looked :=
  let b := d.bankFor it
  if b = 2 then d.lookSj it else d.lookTab b it

/-! ### Cut-through (R234) -/

/-- R120: the pause timer of class `c` at port `p` is zero. -/
def Dev.unpaused (d : Dev) (p c : Nat) : Bool := decide (listGet 0 (d.eport p).pauses c ≤ d.now)

/-- R234: a copy toward port `e` (crossbar output `o`) of a sentence from port `p` may start cut-through. -/
def Dev.ctStarts (d : Dev) (p e o : Nat) (talker : BitVec 14) (cls : Nat) : Bool :=
  let x := d.eport e
  let len := d.rd (ethPage e) Reg.ETH_MAXLEN.MAXLEN
  decide (e ≤ 15) && bitAt (d.rd 0x030 Reg.SWC_CT_EN.EN) e && decide (d.rate e ≤ d.rate p) &&
  x.link == .up && x.tx.isNone && x.held.isNone && !(d.swc.copies.any fun c => c.set == e) &&
  d.unpaused e cls &&
  (match d.gateLeft e cls with | none => true | some t => decide (0 < t) && decide (d.bitTime e (8 * len) ≤ t)) &&
  (d.shape e).creditOk e cls && (d.ctxOf o talker).isNone

/-- R234: the ports toward which copies start cut-through. -/
def Dev.ctSets (d : Dev) (x : Looked) : List Nat :=
  match x.item.org with
  | .eth p _ =>
    if x.a.valid && x.a.path == 0 && !x.a.noRoute && !x.a.miss then
      ((d.targetsOf x.item.talker x.a.members []).filter fun t =>
        d.ctStarts p t.set t.out x.item.talker x.item.cls.toNat).map (·.set)
    else []
  | _ => []

/-! ### Policing (R214 to R217) -/

/-- How policing leaves a sentence. -/
inductive Policed where
  | pass
  | yellow
  | fail
  deriving DecidableEq, Repr

/-- R216: meter a sentence of `len` bytes: the outcome, the bucket debited, and the state after it. -/
def Dev.metering (d : Dev) (b : BitVec 2) (m len : Nat) (de : Bool) : Policed × Option (Nat × Bool) × Dev :=
  let d0 := d.tab32 b (0x13C000 + 16 * m)
  if bitsOf d0 31 1 = 0 then (.pass, none, d)
  else
    let x := d.meterNow m
    let n := bucket len
    if x.red then (.fail, none, (d.setMeter m x).bump 0x028 Reg.NRM.POLICED_RED)
    else if (bitsOf d0 25 1 = 0 ∨ de = false) ∧ n ≤ x.tc then (.pass, some (m, true), d.setMeter m { x with tc := x.tc - n })
    else if n ≤ x.te then
      let d := d.setMeter m { x with te := x.te - n }
      if bitsOf d0 26 1 = 1 then (.fail, some (m, false), d.bump 0x028 Reg.NRM.POLICED_RED)
      else (.yellow, some (m, false), d.bump 0x028 Reg.NRM.MARKED_YELLOW)
    else (.fail, none, (d.setMeter m { x with red := bitsOf d0 27 1 == 1 }).bump 0x028 Reg.NRM.POLICED_RED)

/-- R214: block stream filter `f`. -/
def Dev.blockFilter (d : Dev) (f : Nat) (v : Bool) : Dev :=
  { d with nrm := { d.nrm with blocked := SMap.put (fun _ => false) d.nrm.blocked f v } }

/-- R214: police a sentence of metered length `len` through the filter that the talker entry names. -/
def Dev.police (d : Dev) (b : BitVec 2) (d1 : BitVec 32) (len : Nat) (de : Bool) : Policed × Option (Nat × Bool) × Dev :=
  let f := bitsOf d1 0 10
  let sf := d.tab32 b (0x138000 + 4 * f)
  if bitsOf d1 10 1 = 0 ∨ bitsOf sf 31 1 = 0 then (.pass, none, d)
  else if SMap.get (fun _ => false) d.nrm.blocked f then (.fail, none, d.bump 0x028 Reg.NRM.POLICED_BLOCKED)
  else if bitsOf sf 0 14 ≠ 0 ∧ bitsOf sf 0 14 < len then
    let d := d.bump 0x028 Reg.NRM.POLICED_SDU
    (.fail, none, if bitsOf sf 14 1 = 1 then d.blockFilter f true else d)
  else if bitsOf sf 26 1 = 1 then d.metering b (bitsOf sf 16 10) len de
  else (.pass, none, d)

/-! ### Mirror copies (R279, R385, R386) -/

/-- R386: the header and the payload of a mirror record. -/
def mirrorOf (h : Shb) (body : List Byte) : Shb × List Byte :=
  ({ h with flags := sentenceFlags h.flags ||| flagMirror ||| (if 16 < h.len.toNat then flagTrunc else 0) }, body.take 16)

/-- R25: the LEN of a frame that is still received, which is not known (notes/assumptions/1.md): at least what is in. -/
def Dev.someLen (d : Dev) (body : List Byte) : BitVec 14 :=
  BitVec.ofNat 14 (body.length + d.freeBits.toNat % (16384 - body.length))

/-- R228, R243: the mirror copy of a sentence, with the cell that its sentence shares once it is admitted
(notes/assumptions/13.md). -/
def mirrorSen (x : Shb × List Byte) (cells : List CellAt) (id fid inp now : Nat) : Sen :=
  { shb := x.1, acct := id, body := x.2, org := .device, inp := inp, life := now, cells := cells, whole := true,
    waits := none, waited := false, targets := [], adm := 0, tickets := [], reserve := false, fid := fid, bytes := 0,
    prog := 0, serial := false, rtag := [], fwd := [], what := .mirror none }

/-- R228, R279, R385: make the mirror copy of a sentence at stage 6, and put it in the VOQ toward output 17 of the input `inp`
that holds the cells. Answers the copy. -/
def Dev.mirror (d : Dev) (h : Shb) (body : List Byte) (whole : Bool) (inp : Nat) : Option Nat × Dev :=
  if d.poolFree < d.rd 0x040 Reg.BUF_FLOOR.FLOOR 0 + 1 || d.chipFree == 0 then (none, d.bump 0x020 Reg.TBU.MIRROR_SKIPPED)
  else
    let h := if whole then h else { h with len := d.someLen body }
    let d := if whole then d else d.drawn
    let r := d.takeCells d.chipsUsed 1
    let d := r.2
    let id := d.swc.nextSid
    let s := mirrorSen (mirrorOf h body) r.1 id d.nrm.nextFid inp d.now
    (some id, ({ d with
      nrm := { d.nrm with nextFid := d.nrm.nextFid + 1 }
      swc := { d.swc with nextSid := id + 1
                          copies := d.swc.copies ++ [(⟨id, .record, recordSet, 17, .voq, false, false, .none⟩ : Copy)]
                          voq := d.swc.voq ++ [(⟨id, inp, 17, h.cls.toNat, 1, false, false⟩ : Cross)] } }).setSen id s)

/-- R385: the mirror copy of a sentence whose talker entry asks for one. -/
def Dev.mirrorIf (d : Dev) (d0 : BitVec 32) (h : Shb) (it : Item) (inp : Nat) : Option Nat × Dev :=
  if bitsOf d0 3 1 = 1 then d.mirror h it.body it.whole inp else (none, d)

/-! ### Part B: stages 2, 4 and 6 (R201, R212) -/

/-- R36: the next number of talker `t`, and the state after taking it. -/
def Dev.takeSeq (d : Dev) (t : BitVec 14) : BitVec 16 × Dev :=
  let s := d.cell16 t.toNat
  (s, { d with nrm := { d.nrm with seqs := SMap.put (fun _ => 0) d.nrm.seqs t.toNat (s + 1) } })

/-- R314: program `p` is loaded in bank `b`. -/
def Dev.progLoaded (d : Dev) (b : BitVec 2) (p : Nat) : Bool :=
  let d0 := d.tab32 b (0x208000 + 8 * p)
  bitsOf d0 31 1 == 1 && decide (bitsOf d0 0 12 + bitsOf d0 12 13 ≤ 4096)

/-- R213, R460: a sentence of the NRM that fails as a whole. -/
def Dev.nrmFails (d : Dev) (it : Item) (h : Shb) (reason : Nat) : Dev :=
  let d := if reason = 0x05 then d.bumpSat (instPage h.inst.toNat) Reg.INST.POLICED else d
  (d.failWhole it.org h reason 0x7D).flowOf it.org it.fid

/-- R291, R292: a sentence that the dispatcher refuses: every member fails. -/
def Dev.dispatchRefuses (d : Dev) (it : Item) (h : Shb) (ms : List Member) (code : Nat) : Dev :=
  let id := d.swc.nextSid
  let d := { d with swc := { d.swc with nextSid := id + 1 } }
  ((d.setAcct id ⟨h, it.org, ms.map fun m => { m with fail := some (code, 0x78) }, true, false⟩).settle id).flowOf it.org it.fid

/-- The sentence that an item becomes. -/
def Dev.handedOf (d : Dev) (it : Item) (h : Shb) (a : PartA) (mir : Option Nat) : Handed :=
  { shb := h, org := it.org, body := it.body, life := d.momentOf h.time, inp := d.inputOf it.org,
    waits := waitOf h.talker it.org, fid := it.fid, bytes := it.metered, whole := it.whole,
    prog := bitsOf a.d1 16 6, serial := bitsOf a.d0 4 1 == 1, mir := mir }

/-- R234: the copies of a fast-path sentence that part A decides on. -/
def Dev.decided (d : Dev) (it : Item) (a : PartA) : List Target :=
  if a.valid && a.path == 0 && !a.noRoute && !a.miss then
    d.targetsOf it.talker (a.members.map fun m => { m with fail := d.memberBad m.dest }) a.ct
  else []

/-- R235, R255: count the copies that start cut-through. -/
def Dev.countCut (d : Dev) (it : Item) (a : PartA) : Dev :=
  let n := ((d.decided it a).filter (·.ct)).length
  if n = 0 then d else d.bump 0x030 Reg.SWC.CT_STARTED n

/-- R235, R255: count the copies that part A decides for store-and-forward while the sentence is incomplete. -/
def Dev.countStored (d : Dev) (it : Item) (a : PartA) : Dev :=
  let n := ((d.decided it a).filter fun t => !t.ct).length
  if a.early && n != 0 then d.bump 0x030 Reg.SWC.CT_STORED n else d

/-- R352: the list that an item of the gateway came from now waits for its admission. -/
def Dev.listInLookup (d : Dev) (o : Origin) : Dev :=
  match o with | .gateway l _ => d.setPlist l { d.plist l with held := some d.swc.nextSid } | _ => d

/-- R344: the VALID cut entries of talker `t` in bank `b`, ascending. -/
def Dev.cutEntries (d : Dev) (b : BitVec 2) (t : BitVec 14) : List Nat :=
  ((d.usedIn 0x2080000 8 16384).filter fun c =>
    let d0 := d.tab32 b (0x2080000 + 8 * c)
    bitsOf d0 15 1 == 1 && bitsOf d0 0 14 == t.toNat).foldl (fun acc c => insertNat c acc) []

/-- R345: a sentence is in the cut stage, which has not cut it. -/
def Dev.cutBusy (d : Dev) : Bool := !d.gwy.cuts.isEmpty

/-- R344, R345: the cut stage accepts a sentence, once it is free, and is occupied by 16 of its entries in each 50 ns. -/
def Dev.cutIn (d : Dev) (h : Shb) (body : List Byte) : Dev :=
  let d := d.reach d.gwy.cutAt
  let n := max 1 ((min 64 (d.cutEntries h.bank h.talker).length + 15) / 16)
  { d with gwy := { d.gwy with cuts := d.gwy.cuts ++ [(h, body)], cutAt := d.now + n * 800 } }

/-- R116, R219, R314, R358: the BAR0 address at which the active bank's window, or the shadow window, shows image address `a`
of bank `b`; that of a gateway dword holds with GWY_WIN.SEG at its segment. A word of talker state or a live slot lies in no
window: what DETAIL gives for it is not stated. -/
def Dev.windowOf (d : Dev) (b : BitVec 2) (a : Nat) : Nat :=
  let base := if a < 0x2000000 then a else 0x180000 + a % 0x20000
  if stateKey 0 ≤ a then (Config.wordDetail a).toNat else
  if b ≠ d.nrm.active then base else if between 0x180000 0x1FFFFF base then base + 0x20000 else base + 0x40000

/-- R540: the page and the unit of the block that holds image address `a`. -/
def imageUnit (a : Nat) : PageId × Nat :=
  if a < 0x180000 then (0x028, 0x7D) else if a < 0x200000 then (0x08F, 0) else if a < 0x2000000 then (0x050, 0x78)
  else if stateKey 0 ≤ a ∧ a < slotKey 0 then (0x050, 0x78) else (0x048, 0x79)

/-- R540: the bad word at image address `a` of bank `b` is read for a sentence of a talker and number. -/
def Dev.tableFault (d : Dev) (b : BitVec 2) (a : Nat) (talker : BitVec 14) (seq : BitVec 16) : Dev :=
  (d.bump 0x001 Reg.PCH.SRAM_UNCORR).fault (imageUnit a).1 0x03 (imageUnit a).2 (d.windowOf b a) talker seq

/-- The bank in which the gateway reads its tables for a sentence (R205): a storm-jib sentence has none of them, and the
gateway reads the active bank. -/
def Dev.tableBank (d : Dev) (b : BitVec 2) : BitVec 2 := if b = 2 then d.nrm.active else b

/-- R344, R540: a bad dword of the cut entries that a sentence reads. -/
def Dev.cutBad (d : Dev) (h : Shb) : Option Nat :=
  (((d.cutEntries h.bank h.talker).take 64).flatMap fun c => [0x2080000 + 8 * c, 0x2080004 + 8 * c]).find? fun a => d.badAt h.bank a

/-- R244, R276: a sentence that left no copy behind is over at once: its source holds its item no longer. -/
def Dev.leftAtOnce (d e : Dev) (it : Item) : Dev :=
  if (e.sen d.swc.nextSid).isNone then e.flowOf it.org it.fid else e

/-- R212: rows 3 to 8, after policing has passed the sentence. -/
def Dev.stage6 (d : Dev) (it : Item) (h : Shb) (a : PartA) (mir : Option Nat) : Dev :=
  let noRoute := fun (d : Dev) => (d.bump 0x028 Reg.NRM.NO_ROUTE).nrmFails it h 0x09
  if a.miss then (d.bump 0x008 Reg.MST.SJ_NOMATCH).nrmFails it h 0x09
  else if a.path ≤ 1 ∧ a.noRoute = true then noRoute d
  else if a.path = 2 then
    match it.org with
    | .gateway _ _ => noRoute d
    | _ => match d.cutBad h with
      | some x => (d.tableFault h.bank x h.talker h.seq).nrmFails it h 0x06
      | none => ((d.cutIn h it.body).noRecord it.org).flowOf it.org it.fid
  else if a.path = 1 then
    if !d.progLoaded h.bank (bitsOf a.d1 16 6) then noRoute d
    else if 2112 < h.len.toNat then (d.bump 0x050 Reg.ENG.TOO_LONG).dispatchRefuses it h a.members 0x09
    else if d.noEngine then
      ((d.bump 0x050 Reg.ENG.ENGINE_FAULTS).raise 0x050 21).dispatchRefuses it h a.members 0x01
    else (d.listInLookup it.org).handEngine (d.handedOf it h a mir) a.members
  else
    let d := (d.listInLookup it.org).countCut it a
    d.leftAtOnce (d.handOn (d.handedOf it h a mir) a.members a.ct) it

/-- R214: the length by which a sentence is policed. -/
def Dev.meteredLen (d : Dev) (it : Item) : Nat :=
  match it.org with
  | .eth p _ => if it.whole then it.metered else d.rd (ethPage p) Reg.ETH_MAXLEN.MAXLEN
  | _ => it.body.length

/-- R214: note on the port which bucket part B debited for a frame that is still received. -/
def Dev.noteDebit (d : Dev) (it : Item) (x : Option (Nat × Bool)) : Dev :=
  match it.org with
  | .eth p _ =>
    d.setEport p { d.eport p with
      rx := (d.eport p).rx.map fun (r : RxFrame) => if r.fid = some it.fid then { r with debit := x } else r }
  | _ => d

/-- R207, R42: the instance of a sentence. -/
def instOf (it : Item) (a : PartA) : Nat :=
  match it.org with | .host n _ _ _ _ _ => n | _ => bitsOf a.d0 9 6

/-- R207: the instance check of a host-posted sentence fails. -/
def instRefused (it : Item) (a : PartA) : Bool :=
  match it.org with
  | .host n _ _ _ _ _ => n != 0 && bitsOf a.d0 9 6 != n
  | _ => false

/-- R540: the dwords of bank `b` that the lookup of a sentence reads, in the order of its stages. -/
def Dev.lookWords (d : Dev) (b : BitVec 2) (it : Item) (a : PartA) : List Nat :=
  let sf := 0x138000 + 4 * bitsOf a.d1 0 10
  let m := 0x13C000 + 16 * bitsOf (d.tab32 b sf) 16 10
  let p := 0x208000 + 8 * bitsOf a.d1 16 6
  [0x100000 + 8 * it.talker.toNat, 0x100004 + 8 * it.talker.toNat] ++
  (if !a.valid then []
   else (if a.path ≤ 1 then d.routeWords b (bitsOf a.d0 30 1 == 1) (bitsOf a.d0 16 14) else []) ++
     (if bitsOf a.d1 10 1 = 0 then []
      else sf :: if bitsOf (d.tab32 b sf) 31 1 = 1 ∧ bitsOf (d.tab32 b sf) 26 1 = 1 then [m, m + 4, m + 8, m + 12] else []) ++
     (if a.path = 1 then [p, p + 4] else []))

/-- R385, R540: a sentence whose lookup reads a bad dword fails with MEM_FAULT. What a bad talker entry says of its instance and
of its mirror copy is not known (notes/assumptions/1.md). -/
def Dev.lookFaults (d : Dev) (it : Item) (h : Shb) (b : BitVec 2) (d0 : BitVec 32) (x : Nat) : Dev :=
  let named := it.bad.isNone && !(d.badAt b (0x100000 + 8 * it.talker.toNat) || d.badAt b (0x100004 + 8 * it.talker.toNat))
  let h := match it.org with
    | .host _ _ _ _ _ _ => h
    | _ => if named then h else { h with inst := d.freeBits.setWidth 6 }
  let d := if named then d else d.drawn
  let d := d.tableFault b x h.talker h.seq
  let d := if named && entryUsed d0 then (d.mirrorIf d0 h it (d.inputOf it.org)).2 else d
  d.nrmFails it h 0x06

/-- R24, R127: a sentence of the fast path that leaves with a generated R-tag carries REPL from its lookup on
(notes/assumptions/46.md). -/
def Dev.leavesTagged (d : Dev) (talker : BitVec 14) (a : PartA) : Bool :=
  a.path == 0 && a.members.any fun m =>
    match m.dest with
    | .port p => isB p && (d.cbEntry (p / 2) talker Reg.ETH_CB_STREAM.GEN).isSome
    | _ => false

/-- Stages 2, 4 and 6 for an item whose talker is not 0x3FFF. -/
def Dev.partB (d : Dev) (it : Item) (b : BitVec 2) (a : PartA) : Dev :=
  let r := if a.miss then (d.freeBits.setWidth 16, d.drawn) else d.takeSeq it.talker
  let d := r.2
  let flags : BitVec 6 := if it.repl || d.leavesTagged it.talker a then flagRepl else 0
  let h : Shb := ⟨it.talker, it.kind, it.cls, it.de, BitVec.ofNat 6 (instOf it a), flags, r.1,
    BitVec.ofNat 14 it.body.length, b, it.time⟩
  let inp := d.inputOf it.org
  match (if b = 2 then none else it.bad.or ((d.lookWords b it a).find? fun x => d.badAt b x)) with
  | some x => d.lookFaults it h b a.d0 x
  | none =>
  if !a.valid then ((d.bump 0x028 Reg.NRM.NO_TALKER).raise 0x028 23).nrmFails it h 0x09
  else
    if b ≠ 2 ∧ instRefused it a then ((d.mirrorIf a.d0 h it inp).2.bump 0x028 Reg.NRM.NO_ROUTE).nrmFails it h 0x09
    else
      let p := if b = 2 then (Policed.pass, none, d) else d.police b a.d1 (d.meteredLen it) it.de
      let d := p.2.2.noteDebit it p.2.1
      let h := if p.1 = .yellow then { h with de := true } else h
      let m := d.mirrorIf a.d0 h it inp
      if p.1 = .fail then m.2.nrmFails it h 0x05 else m.2.stage6 it h a m.1

/-- R201: an item of talker 0x3FFF is refused before stage 2; its instance is not stated (notes/assumptions/1.md). -/
def Dev.refuse3FFF (d : Dev) (it : Item) (b : BitVec 2) : Dev :=
  let i := match it.org with | .host n _ _ _ _ _ => BitVec.ofNat 6 n | _ => d.freeBits.setWidth 6
  let h : Shb := ⟨0x3FFF, it.kind, it.cls, it.de, i, 0, 0, BitVec.ofNat 14 it.body.length, b, it.time⟩
  ((d.drawn.bump 0x028 Reg.NRM.NO_TALKER).raise 0x028 23).nrmFails it h 0x09

/-- R521: an item that no storm-jib entry matches has no talker that the spec states (notes/assumptions/1.md). -/
def Dev.unnamed (d : Dev) (x : Looked) : Item × Dev :=
  if x.a.miss then
    match x.item.org with
    | .host _ _ _ _ _ _ => (x.item, d)
    | _ => ({ x.item with talker := d.freeBits.setWidth 14 }, d.drawn)
  else (x.item, d)

/-! ### The pipelines (R202 to R204) -/

/-- An item waits to start its lookup. Device control sentences take none. -/
def Item.starts (i : Item) : Bool := i.partA.isNone && i.org != .device

/-- R111: an earlier frame of the same ingress queue, which takes its number first. -/
def Item.sameQueue (i j : Item) : Bool :=
  match i.org, j.org with
  | .eth p q, .eth p' q' => p == p' && q == q' && decide (j.fid < i.fid)
  | _, _ => false

/-- R111: an earlier item of the same ingress queue, or an item of a higher queue of the same port, goes first. -/
def Item.behind (i j : Item) : Bool :=
  match i.org, j.org with
  | .eth p q, .eth p' q' => i.sameQueue j || (p == p' && decide (q < q'))
  | _, _ => false

/-- R449, R453: items of talkers that a resetting or frozen instance owns wait, and are passed over. -/
def Dev.passOver (d : Dev) (i : Item) : Bool :=
  let b := d.bankFor i
  let d0 := d.talkerD0 b i.talker
  let p := instPage (if b = 2 then 0 else bitsOf d0 9 6)
  (b == 2 || entryUsed d0) && (d.on p Reg.INST_STAT.RESETTING || d.on p Reg.INST_STAT.FREEZING || d.on p Reg.INST_STAT.FROZEN)

/-- R203: item `i` may start its lookup. -/
def Dev.mayLook (d : Dev) (i : Item) : Bool :=
  i.starts && !d.passOver i && !(d.shut && i.alwaysOn) &&
    !(d.nrm.items.any fun j => j.starts && !d.passOver j && (i.behind j || (j.talker == i.talker && decide (j.fid < i.fid))))

/-- R203: the item that pipeline `p` takes: the highest class, and the earliest captured of it. -/
def bestItem : List Item → Option Item
  | [] => none
  | x :: xs => match bestItem xs with
    | none => some x
    | some y => if x.cls.toNat < y.cls.toNat then some y else some x

def Dev.dropItem (d : Dev) (fid : Nat) : Dev :=
  { d with nrm := { d.nrm with items := d.nrm.items.filter fun i => i.fid != fid } }

def Dev.putItem (d : Dev) (it : Item) : Dev :=
  { d with nrm := { d.nrm with items := d.nrm.items.map fun i => if i.fid = it.fid then it else i } }

/-- R248: the ticket stores have room for what the item will ask of them. -/
def Dev.lookRoom (d : Dev) (x : Looked) : Bool :=
  if x.a.valid && decide (x.a.path ≤ 1) then
    d.ticketRoom x.item.talker (x.a.path == 1) x.a.members
  else true

/-- R202: when pipeline `p` may start its next lookup: 25 ns after the last. -/
def Dev.pipeAt (d : Dev) (p : Nat) : Nat := SMap.get (fun _ => 0) d.nrm.pipes p

/-- R277: the sentences in the wait list of pipeline `p`, those not yet judged among them. -/
def Dev.waitList (d : Dev) (p : Nat) : Nat := (d.swc.sens.filter fun e => e.2.waits == some (.pipe p)).length

/-- R202, R277: pipeline `p` can start no lookup now. -/
def Dev.pipeBusy (d : Dev) (p : Nat) : Bool := decide (d.now < d.pipeAt p) || decide (16 ≤ d.waitList p)

/-- R227: count the cell times from `a` up to `b`, both counted, in which an item waited for a busy pipeline. -/
def Dev.bpCount (d : Dev) (a b : Nat) : Dev :=
  let a := max a d.nrm.bpTo
  if b < a then d
  else { d.bump 0x028 Reg.NRM.BP_CYCLES (b + 1 - a) with nrm := { d.nrm with bpTo := b + 1 } }

/-- R227: an item waits for a busy pipeline at this moment. -/
def Dev.itemWaits (d : Dev) : Bool := d.nrm.items.any fun i => d.mayLook i && d.pipeBusy (i.talker.toNat % 4)

/-- R227: judge the present cell time. -/
def Dev.bpCell (d : Dev) : Dev :=
  if d.itemWaits then d.bpCount (d.now / Config.cellTime) (d.now / Config.cellTime) else d

/-- R202, R227: a lookup starts on pipeline `p`, once it is free. -/
def Dev.startPipe (d : Dev) (p : Nat) : Dev :=
  let t := d.pipeAt p
  let d := if d.now < t then (d.bpCount (d.now / Config.cellTime) ((t - 1) / Config.cellTime)).reach t else d
  { d with nrm := { d.nrm with pipes := SMap.put (fun _ => 0) d.nrm.pipes p (d.now + 400) } }

/-- R345: the sentence goes to the cut stage alone, which is busy: it waits at its source. -/
def Dev.cutWaits (d : Dev) (a : PartA) : Bool := a.valid && a.path == 2 && d.cutBusy

/-- R201: a host names talker 0x3FFF, or what the lookup matched does. -/
def namesDevice (posted : BitVec 14) (org : Origin) (talker : BitVec 14) (a : PartA) : Bool :=
  (talker == 0x3FFF && !a.miss) || (posted == 0x3FFF && (match org with | .host _ _ _ _ _ _ => true | _ => false))

/-- LOOKUP (R201): pipeline `p` starts a lookup: part A of an Ethernet frame, all stages of another item. -/
def Dev.lookup (d : Dev) (p : Nat) : Dev :=
  if decide (16 ≤ d.waitList p) || d.stageWaits 0x7D then d
  else match bestItem (d.nrm.items.filter fun i => i.talker.toNat % 4 == p && d.mayLook i) with
    | none => d
    | some it =>
      let x := d.look it
      let frame := match it.org with | .eth _ _ => true | _ => false
      if !d.lookRoom x || (!frame && d.cutWaits x.a) then d
      else
        let d := (d.startPipe p).bump 0x028 Reg.NRM.LOOKUPS
        let d := if x.bank = 2 then d.bump 0x008 Reg.MST.SJ_LOOKUPS else d
        let u := d.unnamed x
        let d := u.2
        if frame then
          let a := { x.a with ct := d.ctSets x }
          (d.countStored u.1 a).putItem { u.1 with bank := some x.bank, partA := some a }
        else
          let d := d.dropItem it.fid
          if namesDevice it.talker it.org u.1.talker x.a then d.refuse3FFF u.1 x.bank else d.partB u.1 x.bank x.a

def execLookup (pipe : Fin 4) : State → Host.Outcome State Fault Refusal := onDevL fun d => d.lookup pipe.val

/-- R111, R201: the frame of port `p` may run its part B: it starts cut-through or has been received, and no earlier frame of its
ingress queue has yet to take its number. -/
def Dev.mayPartB (d : Dev) (p : Nat) (i : Item) : Bool :=
  (match i.org, i.partA with
   | .eth a _, some x => a == p && (!x.ct.isEmpty || i.whole)
   | _, _ => false) && !(d.nrm.items.any fun j => i.sameQueue j)

/-- R248, R276, R277, R345: what part B asks for: that no loss record of the stage waits, and room in the wait list, in the
ticket stores and in the cut stage. -/
def Dev.partBRoom (d : Dev) (it : Item) (a : PartA) : Bool :=
  decide (d.waitList (it.talker.toNat % 4) < 16) && !d.stageWaits 0x7D && d.lookRoom ⟨it.bank.getD 0, it, a⟩ && !d.cutWaits a

/-- LOOKUP_PART_B (R201): part B of the first frame of port `p` that may run it. -/
def execLookupPartB (p : Fin 22) : State → Host.Outcome State Fault Refusal := onDevL fun d =>
  match d.nrm.items.find? (d.mayPartB p.val) with
  | none => d
  | some it =>
    match it.partA with
    | none => d
    | some a =>
      let b := it.bank.getD 0
      if !d.partBRoom it a then d
      else
        let d := d.dropItem it.fid
        if namesDevice it.talker it.org it.talker a then d.refuse3FFF it b else d.partB it b a

/-! ### Stream filters and red latches -/

/-- R214: a W1C write of BLOCKED. -/
def Dev.sfUnblock (d : Dev) : Dev := d.blockFilter (d.rd 0x028 Reg.NRM_SF_SEL.FILTER) false

/-- R216: a W1C write of RED_LATCH. -/
def Dev.redClear (d : Dev) : Dev :=
  let m := d.rd 0x028 Reg.NRM_FM_SEL.METER
  d.setMeter m { d.meter m with red := false }

/-- SF_UNBLOCK (R214). W1C fields are not configuration (R86). -/
def execSfUnblock (via : Via) : State → Host.Outcome State Fault Refusal := onBus .sfUnblock via 0x028 fun d =>
  d.sfUnblock

/-- RED_LATCH_CLEAR (R216). -/
def execRedLatchClear (via : Via) : State → Host.Outcome State Fault Refusal := onBus .redLatchClear via 0x028 fun d =>
  d.redClear

end Sys2Proof.Machine
end

