-- ==== Sys2Proof/Machine/Tables.lean ====
section
/-! DEFINITION. The twin-bank tables: their windows (R219, R116, R358, R314), shadow and dual writes (R220, R221), COMMIT,
swap and resynchronisation (R222 to R225, R217, R349). -/

namespace Sys2Proof.Machine

open Sys2Proof

/-! ### Windows -/

/-- A place in a table window: whether the window is a shadow window, the image address, the first byte and the length of
the entry, and the page whose lock covers it (R86). -/
structure WinPlace where
  shadow : Bool
  img    : Nat
  entry  : Nat
  size   : Nat
  page   : PageId
  deriving DecidableEq, Repr

/-- The place in a table of entries of `size` bytes whose first lies at `base`, `img` being an address in it. -/
def placeIn (shadow : Bool) (page : PageId) (base size img : Nat) : WinPlace :=
  ⟨shadow, img, base + (img - base) / size * size, size, page⟩

/-- R219: offsets of the NRM window. -/
def nrmPlace (shadow : Bool) (o : Nat) : Option WinPlace :=
  let img := 0x100000 + o
  if o < 0x20000 then some (placeIn shadow 0x028 0x100000 8 img)
  else if o < 0x30000 then some (placeIn shadow 0x028 0x120000 4 img)
  else if o < 0x38000 then some (placeIn shadow 0x028 0x130000 8 img)
  else if o < 0x39000 then some (placeIn shadow 0x028 0x138000 4 img)
  else if o < 0x3C000 then none
  else if o < 0x40000 then some (placeIn shadow 0x028 0x13C000 16 img) else none

/-- R116. -/
def ethPlace (shadow : Bool) (o : Nat) : Option WinPlace :=
  if o < 0xB000 ∨ between 0xC000 0x13FFF o = true then some (placeIn shadow 0x070 0x1C0000 32 (0x1C0000 + o)) else none

/-- R358: image offset `o`. -/
def gwyPlace (shadow : Bool) (o : Nat) : Option WinPlace :=
  let img := 0x2000000 + o
  if o < 0xA0000 then some (placeIn shadow 0x048 0x2000000 8 img)
  else if o < 0xE0000 then some (placeIn shadow 0x048 0x20A0000 64 img)
  else if o < 0x110000 then some (placeIn shadow 0x048 0x20E0000 8 img) else none

/-- R314. -/
def progPlace (shadow : Bool) (o : Nat) : Option WinPlace :=
  if o < 0x8200 then some (placeIn shadow 0x050 0x200000 8 (0x200000 + o))
  else if between 0x9000 0xAFFF o then some (placeIn shadow 0x050 0x209000 4 (0x200000 + o)) else none

/-- R219, R116, R314, R358: the place that BAR0 address `a` names; `seg` is GWY_WIN.SEG of the source. -/
def winPlace (seg a : Nat) : Option WinPlace :=
  if between 0x100000 0x13FFFF a then nrmPlace true (a - 0x100000)
  else if between 0x140000 0x17FFFF a then nrmPlace false (a - 0x140000)
  else if between 0x180000 0x19FFFF a then gwyPlace true (seg * 0x20000 + (a - 0x180000))
  else if between 0x1A0000 0x1BFFFF a then gwyPlace false (seg * 0x20000 + (a - 0x1A0000))
  else if between 0x1C0000 0x1DFFFF a then ethPlace true (a - 0x1C0000)
  else if between 0x1E0000 0x1FFFFF a then ethPlace false (a - 0x1E0000)
  else if between 0x200000 0x23FFFF a then progPlace true (a - 0x200000)
  else if between 0x240000 0x27FFFF a then progPlace false (a - 0x240000)
  else none

def otherBank (b : BitVec 2) : BitVec 2 := if b = 0 then 1 else 0

/-- R219: the dword that a window shows: a shadow window the shadow bank, the others the active bank. A constant of the program
image is a word (R8, R314): bits 31:18 read 0. -/
def Dev.winRead (d : Dev) (w : WinPlace) : BitVec 32 :=
  let v := d.tab32 (if w.shadow then otherBank d.nrm.active else d.nrm.active) (w.img / 4 * 4)
  if between 0x209000 0x20AFFF w.img then v &&& 0x3FFFF else v

/-- Write bytes of the image in bank `b`. A dword that is rewritten is bad no longer (R540). -/
def Dev.tabWrite (d : Dev) (b : BitVec 2) (bytes : List (Nat × Byte)) : Dev :=
  { d with
    nrm := { d.nrm with tab := bytes.foldl (fun m x => SMap.put (fun _ => 0) m (tabKey b x.1) x.2) d.nrm.tab }
    hlt := { d.hlt with badWords := d.hlt.badWords.filter fun k => !(bytes.any fun x => tabKey b (x.1 / 4 * 4) == k) } }

/-- The bytes that a write changes under its byte enables (R88). -/
def enabledBytes (a : Nat) (be : BitVec 4) (v : BitVec 32) : List (Nat × Byte) :=
  (List.range 4).filterMap fun i => if bitAt be.toNat i then some (a + i, BitVec.ofNat 8 (bitsOf v (8 * i) 8)) else none

/-! ### Epochs of pack lists (R346, R349) -/

/-- R346: dword `k` of the header of list `l` under bank `b`. -/
def Dev.listHead (d : Dev) (b : BitVec 2) (l k : Nat) : BitVec 32 := d.tab32 b (0x20A0000 + 64 * l + 4 * k)

/-- R346: a signal list fires periodically, or on change. -/
def Dev.listPeriodic (d : Dev) (b : BitVec 2) (l : Nat) : Bool :=
  let t := bitsOf (d.listHead b l 0) 18 2
  t == 0 || t == 2
def Dev.listOnChange (d : Dev) (b : BitVec 2) (l : Nat) : Bool :=
  let t := bitsOf (d.listHead b l 0) 18 2
  t == 1 || t == 2

/-- R346: list `l` is VALID and of TYPE signal or ACF. -/
def Dev.listSignal (d : Dev) (b : BitVec 2) (l : Nat) : Bool :=
  let h := d.listHead b l 0
  bitsOf h 15 1 == 1 && bitsOf h 16 2 == 0 && bitsOf h 18 2 != 3 &&
    (!d.listPeriodic b l || decide (100 ≤ bitsOf (d.listHead b l 1) 0 20))
def Dev.listAcf (d : Dev) (b : BitVec 2) (l : Nat) : Bool :=
  let h := d.listHead b l 0
  bitsOf h 15 1 == 1 && bitsOf h 16 2 == 1
def Dev.listValid (d : Dev) (b : BitVec 2) (l : Nat) : Bool := d.listSignal b l || d.listAcf b l

/-- R349: what a list's epoch hangs on: its validity, TYPE, TRIG, PERIOD_US and PHASE_US. -/
def Dev.epochKey (d : Dev) (b : BitVec 2) (l : Nat) : Bool × Nat × Nat × Nat × Nat :=
  (d.listValid b l, bitsOf (d.listHead b l 0) 16 2, bitsOf (d.listHead b l 0) 18 2, bitsOf (d.listHead b l 1) 0 20,
    bitsOf (d.listHead b l 2) 0 20)

/-- R349, R350, R355: a new epoch of list `l`, or its end. -/
def Dev.newEpoch (d : Dev) (l : Nat) : Dev :=
  let b := d.nrm.active
  let x := d.plist l
  if d.listValid b l then
    d.setPlist l { x with
      epoch := some d.now, sent := none, nseq := 0,
      nextDue := if d.listSignal b l && d.listPeriodic b l then
        some (d.now + bitsOf (d.listHead b l 2) 0 20 * Config.perUs) else none }
  else d.setPlist l { x with epoch := none, nextDue := none }

/-! ### Shadow and dual writes (R220, R221) -/

/-- R220: shadow writes are discarded now. -/
def Dev.shadowBusy (d : Dev) : Bool :=
  d.nrm.resync.isSome || (match d.nrm.swapAt with | some t => decide (t ≤ d.now) | none => false)

/-- SHADOW_WRITE (R220). -/
def Dev.shadowWrite (d : Dev) (w : WinPlace) (bytes : List (Nat × Byte)) : Dev :=
  d.unlocked w.page fun d =>
    if d.shadowBusy then d.raise 0x028 19 else d.tabWrite (otherBank d.nrm.active) bytes

/-- R216, R221, R349: apply the dwords of an entry to both banks. A meter fills at its old rates up to now. -/
def Dev.dualApply (d : Dev) (w : WinPlace) (bytes : List (Nat × Byte)) : Dev :=
  let d := if between 0x13C000 0x13FFFF w.entry then d.setMeter ((w.entry - 0x13C000) / 16) (d.meterNow ((w.entry - 0x13C000) / 16))
    else d
  let e := (d.tabWrite 0 bytes).tabWrite 1 bytes
  if between 0x20A0000 0x20DFFFF w.entry then
    let l := (w.entry - 0x20A0000) / 64
    if d.epochKey d.nrm.active l = e.epochKey e.nrm.active l then e else e.newEpoch l
  else e

/-- DUAL_WRITE (R221): a write of source `src` to a dual-write window. -/
def Dev.dualWrite (d : Dev) (src : Nat) (w : WinPlace) (bytes : List (Nat × Byte)) : Dev :=
  d.unlocked w.page fun d =>
    let held := d.nrm.duals.find? fun x => x.src == src
    let others := d.nrm.duals.filter fun x => x.src != src
    let same := match held with | some x => x.entry == w.entry | none => false
    let d := if held.isSome && !same then d.raise 0x028 20 else d
    let all := (if same then (held.map (·.bytes)).getD [] else []) ++ bytes
    if w.img / 4 * 4 + 4 = w.entry + w.size then
      ({ d with nrm := { d.nrm with duals := others } }).dualApply w all
    else { d with nrm := { d.nrm with duals := others ++ [⟨src, w.entry, all⟩] } }

/-- R220, R221: a write to a table window. -/
def Dev.tableWrite (d : Dev) (src : Nat) (w : WinPlace) (be : BitVec 4) (v : BitVec 32) : Dev :=
  let bytes := enabledBytes (w.img / 4 * 4) be v
  if w.shadow then d.shadowWrite w bytes else d.dualWrite src w bytes

/-! ### COMMIT (R222 to R225) -/

/-- R222: the four pages whose lock refuses a COMMIT. -/
def commitPages : List PageId := [0x028, 0x070, 0x048, 0x050]

/-- R222: refuse a COMMIT. -/
def Dev.commitRefused (d : Dev) (result : Nat) : Dev := (d.wr 0x028 Reg.NRM_COMMIT_STAT.RESULT result).raise 0x028 18

/-- R222: a COMMIT asked for by source `src`: whether it is accepted, and the state after it. -/
def Dev.commit (d : Dev) (src : Nat) : Bool × Dev :=
  if d.nrm.resync.isSome || d.nrm.swapAt.isSome then (false, d.commitRefused 1)
  else if commitPages.any d.locked then
    (false, ((commitPages.filter d.locked).foldl (fun d p => d.raise p 0) d).commitRefused 3)
  else
    let r := d.maintTake 0x028 6 src
    if r.1 then
      let d := r.2.wr 0x028 Reg.NRM_COMMIT_STAT.RESULT 0
      let d := d.wr 0x028 Reg.NRM_COMMIT.GO 1
      (true, { d with nrm := { d.nrm with swapAt := some ((d.now / Config.cellTime + 2) * Config.cellTime) } })
    else (false, r.2.commitRefused 2)

/-- COMMIT (R222). A lock on page 0x028 is handled by R222, not by R86. -/
def execCommit (via : Via) : State → Host.Outcome State Fault Refusal :=
  onBus .commit via 0x028 fun d => (d.commit (viaCode via)).2

/-- R217: what the swap to bank `b` makes of meter `m`, which was brought up to now before. -/
def Dev.meterSwap (d : Dev) (b : BitVec 2) (m : Nat) : Dev :=
  let x := d.meterNow m
  let cap := bucket (d.cbsOf b m)
  let ecap := bucket (d.ebsOf b m)
  let was := bitsOf (d.tab32 d.nrm.active (0x13C000 + 16 * m)) 31 1
  let is := bitsOf (d.tab32 b (0x13C000 + 16 * m)) 31 1
  d.setMeter m (if was = 0 ∧ is = 1 then { x with tc := cap, te := ecap } else { x with tc := min cap x.tc, te := min ecap x.te })

/-- All parts of the table set. -/
def allParts : List TablePart := [.nrm, .eth, .gwy, .eng]

/-- COMMIT_SWAP (R223, R217, R218, R349). -/
def Dev.commitSwap (d : Dev) : Dev :=
  match d.nrm.swapAt with
  | none => d
  | some t =>
    let d := d.reach t
    let old := d.nrm.active
    let new := otherBank old
    let d := (d.usedIn 0x13C000 16 1024).foldl (fun d m => d.meterSwap new m) d
    let lists := (d.usedIn 0x20A0000 64 4096).filter fun l => d.epochKey old l ≠ d.epochKey new l
    let d := { d with nrm := { d.nrm with active := new, sj := false, swapAt := none, resync := some ⟨old, allParts⟩ } }
    let d := lists.foldl (fun d l => d.newEpoch l) d
    let d := d.wr 0x028 Reg.NRM_COMMIT.GO 0
    (d.bump 0x028 Reg.NRM_COMMIT_STAT.COMMITS).raise 0x028 16

def execCommitSwap : State → Host.Outcome State Fault Refusal := onDevL Dev.commitSwap

/-! ### Resynchronisation (R224, R315, R359) -/

/-- The image addresses of a part: the first, and the first behind it. -/
def partRange : TablePart → Nat × Nat
  | .nrm => (0x100000, 0x140000)
  | .eth => (0x1C0000, 0x1E0000)
  | .eng => (0x200000, 0x240000)
  | .gwy => (0x2000000, 0x2110000)

/-- Copy a part from bank `b` to the other bank. -/
def Dev.copyPart (d : Dev) (b : BitVec 2) (part : TablePart) : Dev :=
  let r := partRange part
  let o := otherBank b
  let inside := fun (c : BitVec 2) (k : Nat) => decide (tabKey c r.1 ≤ k) && decide (k < tabKey c r.2)
  let kept := d.nrm.tab.filter fun x => !inside o x.1
  let src := d.nrm.tab.filter fun x => inside b x.1
  { d with
    nrm := { d.nrm with tab := src.foldl (fun m x => SMap.put (fun _ => 0) m (tabKey o (x.1 - tabKey b 0)) x.2) kept }
    hlt := { d.hlt with badWords := d.hlt.badWords.filter fun k => !inside o k } }

/-- R315: a sentence of bank `b` is in the engine array. -/
def Dev.engHolds (d : Dev) (b : BitVec 2) : Bool :=
  d.eng.pending.any (fun e => e.bank == b) || d.eng.spes.any fun x =>
    x.2.deque.any (fun e => e.bank == b) || (match x.2.run with | some r => r.ent.bank == b | none => false)

/-- R359: the sentence that a frame becomes under bank `b` will be cut. -/
def Dev.cutsItem (d : Dev) (b : BitVec 2) (i : Item) : Bool :=
  let a := match i.partA with | some a => a | none => (d.lookTab b i).a
  a.valid && (a.path == 2 || a.members.any fun m => m.dest == .cut)

/-- R224, R315, R359: the drain condition of a part, for the old bank `b`. -/
def Dev.drained (d : Dev) (b : BitVec 2) : TablePart → Bool
  | .nrm => !(d.nrm.items.any fun i => i.starts && i.bank == some b)
  | .eth => !(d.nrm.items.any fun i => i.starts && i.bank == some b)
  | .eng => !d.engHolds b
  | .gwy =>
    !(d.gwy.cuts.any fun c => c.1.bank == b) &&
    !(d.swc.accts.any fun x => x.2.shb.bank == b && x.2.members.any fun m =>
        m.dest == .cut && m.fail.isNone && (!x.2.sealed || m.open_ != 0)) &&
    !(d.nrm.items.any fun i => i.bank == some b && d.cutsItem b i) &&
    !(d.nrm.items.any fun i => i.starts && i.bank == some b && (match i.org with | .gateway _ _ => true | _ => false))

/-- RESYNC_COPY (R224): a part whose drain condition holds is brought level with the active bank. -/
def execResyncCopy (part : TablePart) : State → Host.Outcome State Fault Refusal := onDevL fun d =>
  match d.nrm.resync with
  | none => d
  | some r =>
    if r.parts.contains part && d.drained r.old part then
      let d := d.copyPart d.nrm.active part
      { d with nrm := { d.nrm with resync := some { r with parts := r.parts.filter (· != part) } } }
    else d

/-- RESYNC_DONE (R224). -/
def execResyncDone : State → Host.Outcome State Fault Refusal := onDevL fun d =>
  match d.nrm.resync with
  | some ⟨_, []⟩ => (({ d with nrm := { d.nrm with resync := none } }).maintEnd 0x028 6).raise 0x028 17
  | _ => d

end Sys2Proof.Machine
end

