-- ==== Sys2Proof/Machine/Swc.lean ====
section
/-! DEFINITION. The switch core (spec/07_switch_core.md): the match (R230 to R232), express grants (R233), lifetimes (R241,
R242) and the resequencer's timeout (R250, R251). -/

namespace Sys2Proof.Machine

open Sys2Proof

/-! ### Requests -/

/-- R230, R233: the VOQ head can be requested. -/
def Dev.requests (d : Dev) (x : Cross) : Bool :=
  x.left != 0 && !x.express && d.cellReady x &&
    !(d.swc.carry.any fun e => e.express && (e.inp == x.inp || e.out == x.out))

/-! ### The three rounds (R230) -/

/-- The candidate found first from pointer `p`, modulo 20. -/
def foundFirst (p : Nat) : List Nat → Option Nat
  | [] => none
  | x :: xs => match foundFirst p xs with
    | none => some x
    | some y => if (x + 20 - p) % 20 ≤ (y + 20 - p) % 20 then some x else some y

/-- What the rounds have made so far: the pairs matched with their class, and the pointers. -/
structure Matching where
  pairs : List (Nat × Nat × Nat)
  gp    : SMap Nat
  ap    : SMap Nat

def ptrGet (m : SMap Nat) (port c : Nat) : Nat := SMap.get (fun _ => 0) m (port * 8 + c)
def ptrSet (m : SMap Nat) (port c v : Nat) : SMap Nat := SMap.put (fun _ => 0) m (port * 8 + c) v

/-- R230: the grants of one round: for each output the input and class that it grants. -/
def grantsOf (gp : SMap Nat) (reqs : List (Nat × Nat × Nat)) : List (Nat × Nat × Nat) :=
  (List.range 20).filterMap fun o =>
    let here := reqs.filter fun r => r.2.1 == o
    if here.isEmpty then none
    else
      let c := maxOf (here.map fun r => r.2.2)
      (foundFirst (ptrGet gp o c) ((here.filter fun r => r.2.2 == c).map fun r => r.1)).map fun i => (i, o, c)

/-- R230: the acceptances of one round. -/
def acceptsOf (ap : SMap Nat) (grants : List (Nat × Nat × Nat)) : List (Nat × Nat × Nat) :=
  (List.range 20).filterMap fun i =>
    let here := grants.filter fun r => r.1 == i
    if here.isEmpty then none
    else
      let c := maxOf (here.map fun r => r.2.2)
      (foundFirst (ptrGet ap i c) ((here.filter fun r => r.2.2 == c).map fun r => r.2.1)).map fun o => (i, o, c)

/-- R230: of the requests of one pair, the highest class. -/
def highestOf (reqs : List (Nat × Nat × Nat)) : List (Nat × Nat × Nat) :=
  reqs.filter fun r => !(reqs.any fun q => q.1 == r.1 && q.2.1 == r.2.1 && decide (r.2.2 < q.2.2))

/-- R230: one round. -/
def matchOne (first : Bool) (reqs : List (Nat × Nat × Nat)) (m : Matching) : Matching :=
  let open_ := reqs.filter fun r => !(m.pairs.any fun p => p.1 == r.1 || p.2.1 == r.2.1)
  let acc := acceptsOf m.ap (grantsOf m.gp (highestOf open_))
  { pairs := m.pairs ++ acc
    gp := if first then acc.foldl (fun g a => ptrSet g a.2.1 a.2.2 ((a.1 + 1) % 20)) m.gp else m.gp
    ap := if first then acc.foldl (fun g a => ptrSet g a.1 a.2.2 ((a.2.1 + 1) % 20)) m.ap else m.ap }

/-- R230: the three rounds. -/
def matchAll (reqs : List (Nat × Nat × Nat)) (gp ap : SMap Nat) : Matching :=
  matchOne false reqs (matchOne false reqs (matchOne true reqs ⟨[], gp, ap⟩))

/-! ### Crossing (R232) -/

/-- Take one cell of a VOQ entry across; the sentence whose last cell crosses is complete at the output. -/
def Dev.crossOne (d : Dev) (x : Cross) : Dev :=
  let d := d.countCells x.inp x.out 1
  let done := x.left == 1 && !x.more
  let voq := if done then d.swc.voq.filter fun y => !(y.sid == x.sid && y.out == x.out)
    else d.swc.voq.map fun y => if y.sid = x.sid ∧ y.out = x.out then { y with left := y.left - 1, express := false } else y
  let d := { d with swc := { d.swc with voq := voq } }
  if done then d.arrive x.out x.sid else d

/-- R232: the head cell of VOQ (i, o, c) crosses, if one is still there, and keeps its input and output for the cell time. -/
def Dev.crossPair (d : Dev) (p : Nat × Nat × Nat) : Dev :=
  match d.swc.voq.find? fun x => x.inp == p.1 && x.out == p.2.1 && x.cls == p.2.2 with
  | none => d
  | some x =>
    if x.left != 0 && !x.express && d.cellReady x then
      ({ d with swc := { d.swc with carry := d.swc.carry ++ [(⟨x.inp, x.out, d.now + Config.cellTime, false⟩ : Carry)] } }).crossOne x
    else d

/-- R233, R234: after its first cell has crossed, a cut-through copy can be sent. -/
def Copy.opened (c : Copy) (sid out : Nat) : Copy :=
  if c.sid = sid ∧ c.out = out ∧ c.cut = true ∧ c.place = .voq then { c with place := .egress } else c

/-- R233: neither the input nor the output of `x` carries a cell. -/
def Dev.portsFree (d : Dev) (x : Cross) : Bool :=
  !(d.swc.carry.any fun e => decide (d.now < e.till) && (e.inp == x.inp || e.out == x.out))

/-- R233: the waiting cut-through copy whose lookup ended first, of those whose ports carry no cell. Sentences are numbered as
their lookups end. -/
def Dev.expressNext (d : Dev) : Option Cross :=
  (d.swc.voq.filter fun x => x.express && x.left != 0 && d.portsFree x).foldl (fun acc x =>
    match acc with | some y => if x.sid < y.sid then some x else acc | none => some x) none

/-- R233, R239: the first cell of a cut-through copy crosses: a match made for its ports is withdrawn, and its copies can be
sent. -/
def Dev.expressCross (d : Dev) (x : Cross) : Dev :=
  let d := (d.swc.copies.filter fun c => c.sid == x.sid && c.out == x.out).foldl (fun d c => d.shape c.set) d
  let d := { d with swc := { d.swc with
      prev := d.swc.prev.filter fun p => p.1 != x.inp && p.2.1 != x.out
      carry := d.swc.carry ++ [(⟨x.inp, x.out, d.now + Config.cellTime, true⟩ : Carry)]
      copies := d.swc.copies.map fun (c : Copy) => c.opened x.sid x.out } }
  d.crossOne x

/-- R233: grant as many waiting copies as the ports allow, `n` at most. -/
def Dev.expressAll (d : Dev) : Nat → Dev
  | 0 => d
  | n + 1 => match d.expressNext with
    | none => d
    | some x => (d.expressCross x).expressAll n

/-- EXPRESS_GRANT (R233): a waiting cut-through copy whose ports carry no cell is granted. One whose ports carry a cell waits, at
the longest for the next cell time (MATCH_ROUND). -/
def Dev.expressGrant (d : Dev) : Dev :=
  match d.expressNext with
  | none => d
  | some x => d.expressCross x

def execExpressGrant : State → Host.Outcome State Fault Refusal := onDevL Dev.expressGrant

/-- R227, R251, R289: what is judged once in each cell time, at its end. -/
def Dev.cellEnd (d : Dev) : Dev := (d.bpCell.crossLate.lateCount (d.now / Config.cellTime + 1)).forcedAll

/-- R230 to R233: a cell time ends and the next begins. Waiting cut-through copies are granted, the cells of the match
before cross, and the next match is computed (notes/assumptions/6.md). -/
def Dev.matchCells (d : Dev) : Dev :=
  let d := d.cellEnd.reach ((d.now / Config.cellTime + 1) * Config.cellTime)
  let d := { d with swc := { d.swc with carry := d.swc.carry.filter fun e => decide (d.now < e.till) } }
  let d := d.expressAll d.swc.voq.length
  let d := d.swc.prev.foldl (fun d p => d.crossPair p) d
  let reqs := ((voqHeads d.swc.voq).filter d.requests).map fun x => (x.inp, x.out, x.cls)
  let m := matchAll reqs d.swc.gp d.swc.ap
  { d with swc := { d.swc with prev := m.pairs, gp := m.gp, ap := m.ap } }

/-! ### Lifetimes (R241, R242) -/

/-- R242: a copy stands at the head of its VOQ or of its egress class queue; an engine-path input at that of a deque, or of the
pending list, and once an engine takes it at the head of its VOQ toward the engines. -/
def Dev.atHead (d : Dev) (c : Copy) (s : Sen) : Bool :=
  match c.place with
  | .pool => c.role == .engine &&
    ((match d.eng.pending with | e :: _ => e.sid == c.sid | [] => false) ||
     d.eng.spes.any fun x => match x.2.deque with | e :: _ => e.sid == c.sid | [] => false)
  | .voq =>
    (match d.swc.voq.find? fun x => x.inp == s.inp && x.out == c.out && x.cls == s.shb.cls.toNat with
     | some x => x.sid == c.sid
     | none => false)
  | .medium => c.role == .engine &&
    (match d.swc.voq.find? fun x => x.inp == s.inp && x.out == c.out && x.cls == s.shb.cls.toNat with
     | some x => x.sid == c.sid
     | none => false)
  | .egress =>
    (match d.swc.copies.find? fun x => x.set == c.set && x.place == .egress &&
        (match d.sen x.sid with | some y => y.shb.cls == s.shb.cls | none => false) with
     | some x => x.sid == c.sid && x.role == c.role
     | none => false)
  | _ => false

/-- R246: the place at which a copy that expires is reported. -/
def Dev.expiryPlace (d : Dev) (c : Copy) : Nat :=
  match c.place with | .voq => 0x7C | .reseq => 0x7C | _ => d.placeOf c.set

/-- R241: an engine-path input that no engine has taken has outlived its lifetime: it fails, with the members it stood for. -/
def Dev.inputExpires (d : Dev) (sid : Nat) (s : Sen) : Dev := (d.countLifetime s).dropInput sid 0x03 0x78

/-! ### Order restoration -/

/-- R250, R251: when the timer of a context that started at `t` gives its head up: at the end of the cell time in which it reaches
TIMEOUT_US. A change of TIMEOUT_US counts from the next cell time on. -/
def Dev.timeoutEnd (d : Dev) (t : Nat) : Nat :=
  let cell := d.now / Config.cellTime
  let old := t + d.rdStart 0x030 Reg.SWC_RESEQ_CFG.TIMEOUT_US * Config.perUs
  let new := t + d.rd 0x030 Reg.SWC_RESEQ_CFG.TIMEOUT_US * Config.perUs
  let due := if old / Config.cellTime ≤ cell ∨ old = new then old else max new ((cell + 1) * Config.cellTime)
  due / Config.cellTime * Config.cellTime + (Config.cellTime - 1)

/-- RESEQ_TIMEOUT (R250, R251, R253). -/
def execReseqTimeout (out : Fin 20) (talker : BitVec 14) : State → Host.Outcome State Fault Refusal := onDevL fun d =>
  match d.ctxOf out.val talker with
  | none => d
  | some x =>
    match x.since with
    | none => d
    | some t => (((d.reach (d.timeoutEnd t)).bump 0x030 Reg.SWC.RESEQ_TIMEOUTS).raise 0x030 18).giveUp x

/-! ### Choosing what leaves (R236, R240) -/

/-- The copies that wait in the egress queues of set `e`, the highest class first and in released order within a class. An egress
point of which a loss record waits starts none (R276). -/
def Dev.egressOrder (d : Dev) (e : Nat) : List (Copy × Sen) :=
  if d.stageWaits (d.placeOf e) then [] else
  (List.range 8).reverse.flatMap fun k =>
    d.swc.copies.filterMap fun c =>
      if c.set = e ∧ c.place = .egress then
        (match d.sen c.sid with | some s => if s.shb.cls.toNat = k then some (c, s) else none | none => none)
      else none

/-- R242, R263: a copy that is chosen in the cell time of its expiry or later fails instead; one whose cells are not all on chip
waits for them. -/
def Dev.chosen (d : Dev) (c : Copy) (s : Sen) (f : Dev → Dev) : Dev :=
  if d.expires s then d.copyFails c 0x03 (d.placeOf c.set)
  else if !s.cellsReady then d.prefetchLate c.sid s
  else f (d.lateEnds c.sid s)

/-- Move a copy to its medium. -/
def Dev.toMedium (d : Dev) (c : Copy) : Dev :=
  { d with swc := { d.swc with copies := d.swc.copies.map fun (x : Copy) => if x.is c then { x with place := .medium } else x } }

end Sys2Proof.Machine
end

