-- ==== Sys2Proof/Machine/Capture.lean ====
section
/-! DEFINITION. Egress time-stamps (R372 to R375) and the time-stamp queue (R376 to R378). -/

namespace Sys2Proof.Machine

open Sys2Proof

/-- R373: a measured moment, corrected by a signed 16-bit delay in units of 62.5 ps. -/
def corrected (t : Nat) (dly : Int) : BitVec 64 := stampOf ((t : Int) + dly).toNat

/-- R377: an entry of the TSQ. -/
def tsqWords (src input kind msg talker seq ptp : Nat) (time : BitVec 64) : List Word :=
  endTagged 2 ([src + 256 * input + 1024 * kind + 4096 * msg, talker, seq, ptp] ++
    (List.range 4).map fun i => bitsOf time (16 * i) 16)

/-- R398: TBU_TSQ_STAT.DEPTH: entries, the one being read included. -/
def PopWin.depth (w : PopWin) : Nat := w.items.length + b2n (w.cur.length != 0)

/-- R376, R378: capture into the TSQ; the answer says whether it was kept. -/
def Dev.capture (d : Dev) (ws : List Word) : Bool × Dev :=
  if 1024 ≤ d.tbu.tsq.depth then (false, (d.bump 0x020 Reg.TBU.TBU_TSQ_OVF).raise 0x020 17)
  else
    (true, { d with tbu := { d.tbu with tsq := { d.tbu.tsq with items := d.tbu.tsq.items ++ [(0, ws)] } } }.bump
      0x020 Reg.TBU.TSQ_CAPTURES)

/-- R376: the messageType and sequenceId of a frame that is a PTP event message. -/
def ptpOf (frame : List Byte) : Option (Nat × Nat) :=
  let b := fun k => (listGet 0 frame k).toNat
  let o := if b 12 = 0x81 ∧ b 13 = 0 then 16 else 12
  if b o = 0x88 ∧ b (o + 1) = 0xF7 ∧ b (o + 2) % 16 ≤ 3 then some (b (o + 2) % 16, b (o + 32) * 256 + b (o + 33)) else none

/-- R376: an entry of TBU_EGR_CAP names the port and the talker. -/
def Dev.capNames (d : Dev) (port : Nat) (t : BitVec 14) : Bool :=
  (List.range 32).any fun k => d.on 0x020 Reg.TBU_EGR_CAP.VALID k && d.rd 0x020 Reg.TBU_EGR_CAP.PORT k == port &&
    d.rd 0x020 Reg.TBU_EGR_CAP.TALKER k == t.toNat

/-- R24, R378: TS_LOST is set in the sentence, and in every record made of it. -/
def Dev.tsLost (d : Dev) (sid : Nat) : Dev :=
  match d.sen sid with
  | none => d
  | some s =>
    let d := d.setSen sid { s with shb := { s.shb with flags := s.shb.flags ||| flagTsLost } }
    match d.acct s.acct with
    | none => d
    | some x => d.setAcct s.acct { x with shb := { x.shb with flags := x.shb.flags ||| flagTsLost } }

/-- R375: a host sentence's egress time toward member `m`. -/
def Dev.hostTime (d : Dev) (sid m : Nat) (time : BitVec 64) : Dev :=
  match d.sen sid with
  | none => d
  | some s =>
    match s.org with
    | .host _ _ _ _ ts _ => if ts then d.memberTime s.acct m time else d
    | _ => d

/-- R376, R377: the entry that sentence `s`, forwarded at port code `port`, makes in the TSQ, if any. `frame` is the Ethernet
frame sent, empty elsewhere. -/
def Dev.tsqEntry (d : Dev) (s : Sen) (port : Nat) (time : BitVec 64) (frame : List Byte) : Option (List Word) :=
  match s.org with
  | .host _ _ _ _ _ _ => none
  | _ =>
    let ptp := if port ≤ 15 ∧ bitAt (d.rd 0x020 Reg.TBU_EGR_PTP.PORTS) port = true then ptpOf frame else none
    if d.capNames port s.shb.talker || ptp.isSome then
      let p := if port ≤ 0x15 then (ptpOf frame).getD (15, 0) else (15, 0)
      some (tsqWords port 0 0 p.1 s.shb.talker.toNat s.shb.seq.toNat p.2 time)
    else none

/-- R376, R378: sentence `sid`, which is forwarded, takes its egress time. -/
def Dev.tsqTime (d : Dev) (sid port : Nat) (time : BitVec 64) (frame : List Byte) : Dev :=
  match d.sen sid with
  | none => d
  | some s =>
    match d.tsqEntry s port time frame with
    | none => d
    | some ws =>
      let r := d.capture ws
      if r.1 then r.2
      else
        let d := r.2.tsLost sid
        d.lossRecord { s.shb with flags := s.shb.flags ||| flagTsLost } 0x10 port 0 0 []

/-- R375, R376: the egress time of sentence `sid` toward member `m` at port code `port`. -/
def Dev.egressTime (d : Dev) (sid m port : Nat) (time : BitVec 64) (frame : List Byte) : Dev :=
  (d.hostTime sid m time).tsqTime sid port time frame

end Sys2Proof.Machine
end

