-- ==== Sys2Proof/Machine/EthRx.lean ====
section
/-! DEFINITION. Ethernet reception (spec/04_frame_ports.md): parsing and filter entries (R113 to R116), the stages of R110,
802.1CB elimination (R126), received PAUSE and PFC (R120) and the end of a frame (R112, R214, R267, R579). -/

namespace Sys2Proof.Machine

open Sys2Proof

/-! ### Frames -/

/-- Two bytes of a frame, the first the more significant. -/
def be16 (b : List Byte) (k : Nat) : Nat := (listGet 0 b k).toNat * 256 + (listGet 0 b (k + 1)).toNat

/-- Six bytes of a frame (R115: the first in bits 47:40). -/
def be48 (b : List Byte) (k : Nat) : Nat := be16 b k * 2 ^ 32 + be16 b (k + 2) * 2 ^ 16 + be16 b (k + 4)

/-- What the parser finds (R105, R114, R125): the C-tag, the R-tag number, where the EtherType lies. -/
structure Parsed where
  ctag  : Option Nat
  rtag  : Option Nat
  etype : Nat

/-- R105: one C-tag, then an R-tag. -/
def parse (b : List Byte) : Parsed :=
  let tagged := be16 b 12 == 0x8100
  let o := if tagged then 16 else 12
  let red := be16 b o == 0xF1C1
  ⟨if tagged then some (be16 b 14) else none, if red then some (be16 b (o + 4)) else none, if red then o + 6 else o⟩

/-- R118, R125: remove the C-tag, the R-tag, or both. -/
def strip (v r : Bool) (b : List Byte) : List Byte :=
  let x := parse b
  let c := if x.ctag.isSome then (b.drop 12).take 4 else []
  let o := 12 + c.length
  let t := if x.rtag.isSome then (b.drop o).take 6 else []
  b.take 12 ++ (if v then [] else c) ++ (if r then [] else t) ++ b.drop (o + t.length)

/-! ### Filter entries (R113 to R116) -/

/-- R116: the image address of per-port entry `e` of port `p`, and of shared entry `s`. -/
def ownEntry (p e : Nat) : Nat := 0x1C0000 + p * 0x800 + e * 0x20
def sharedEntry (s : Nat) : Nat := 0x1CC000 + s * 0x20

/-- Dword `k` of the entry at `a`. -/
def Dev.filt (d : Dev) (a k : Nat) : BitVec 32 := d.tab32 d.nrm.active (a + 4 * k)

def Dev.defPcp (d : Dev) (p : Nat) : Nat := d.rd (ethPage p) Reg.ETH_RX_DEFAULT.DEF_PCP

/-- The PCP of a frame (R114). -/
def Dev.pcpOf (d : Dev) (p : Nat) (x : Parsed) : Nat :=
  match x.ctag with | some t => t / 2 ^ 13 | none => d.defPcp p

/-- R113, R114: the entry at `a` is VALID and its enabled conditions hold. -/
def Dev.entryHits (d : Dev) (p a : Nat) (b : List Byte) : Bool :=
  let x := parse b
  let d0 := d.filt a 0
  let d1 := d.filt a 1
  let on := fun k => bitsOf d1 (16 + k) 1 == 1
  let da := bitsOf (d.filt a 2) 0 32 + 2 ^ 32 * bitsOf (d.filt a 3) 0 16
  let mask := bitsOf (d.filt a 4) 0 32 + 2 ^ 32 * bitsOf (d.filt a 5) 0 16
  bitsOf d1 31 1 == 1 &&
  (!on 0 || (match x.ctag with | some t => t % 4096 == bitsOf d0 0 12 | none => false)) &&
  (!on 1 || d.pcpOf p x == bitsOf d0 12 3) &&
  (!on 2 || be16 b x.etype == bitsOf d0 16 16) &&
  (!on 3 || (be16 b x.etype == 0x22F0 && (listGet 0 b (x.etype + 2)).toNat == bitsOf d1 0 8)) &&
  (!on 4 || Nat.land (be48 b 0) mask == Nat.land da mask) &&
  (!on 5 || x.ctag.isNone) && (!on 6 || x.ctag.isSome)

/-- R113: the first entry that matches: the port's own, then the shared ones whose PORTS bit is set. -/
def Dev.matchEntry (d : Dev) (p : Nat) (b : List Byte) : Option Nat :=
  match ((List.range 64).map (ownEntry p)).find? fun a => d.entryHits p a b with
  | some a => some a
  | none => ((List.range 1024).map sharedEntry).find? fun a => bitsOf (d.filt a 7) p 1 == 1 && d.entryHits p a b

/-- What stage 6 gives a frame. -/
structure Filtered where
  talker : BitVec 14
  queue  : Nat
  cls    : BitVec 3
  stripV : Bool
  stripR : Bool
  drop   : Option Nat
  /-- R540: the image address of a bad dword that the search read. -/
  bad    : Option Nat := none

/-- R113, R115, R143: the result of the filter for a frame on port `p`. -/
def Dev.filter (d : Dev) (p : Nat) (b : List Byte) : Filtered :=
  match d.matchEntry p b with
  | some a =>
    let d6 := d.filt a 6
    let cls := if bitsOf d6 22 1 = 1 then d.pcpOf p (parse b) else bitsOf d6 19 3
    ⟨BitVec.ofNat 14 (bitsOf d6 0 14), bitsOf d6 16 3, BitVec.ofNat 3 cls, bitsOf d6 23 1 == 1, bitsOf d6 24 1 == 1,
      if bitsOf d6 25 1 = 1 then some 19 else none, none⟩
  | none =>
    let pg := ethPage p
    ⟨BitVec.ofNat 14 (d.rd pg Reg.ETH_RX_DEFAULT.TALKER), d.rd pg Reg.ETH_RX_DEFAULT.QUEUE,
      BitVec.ofNat 3 (d.rd pg Reg.ETH_RX_DEFAULT.CLASS), false, false,
      if d.on pg Reg.ETH_RX_DEFAULT.DISCARD then some 20 else none, none⟩

/-- R113, R540: a bad dword of the entries that a search on port `p` compares, by its image address. -/
def Dev.filterBad (d : Dev) (p : Nat) : Option Nat :=
  let own := tabKey d.nrm.active (ownEntry p 0)
  let shared := tabKey d.nrm.active (sharedEntry 0)
  (d.hlt.badWords.find? fun k =>
    (Nat.ble own k && decide (k < own + 0x800)) || (Nat.ble shared k && decide (k < shared + 0x8000))).map fun k =>
      k - tabKey d.nrm.active 0

/-! ### Elimination (R126) -/

def Dev.cbRec (d : Dev) (k : Nat) : CbRec := SMap.get (fun _ => .reset) d.cb k
def Dev.setCbRec (d : Dev) (k : Nat) (x : CbRec) : Dev := { d with cb := SMap.put (fun _ => .reset) d.cb k x }

/-- R126: RESET_MS, in units of time; 0 clears the history before every frame (DESIGN CHOICE, notes/assumptions/51.md). -/
def Dev.cbReset (d : Dev) (k : Nat) : Nat := d.rd 0x08F Reg.ETH_CB_CFG.RESET_MS (k / 64) * Config.perMs

/-- R126: whether the number `n` of stream entry `k` is accepted, and the history after it. A HIST_LEN outside 2 to 64 is used as it
stands (DESIGN CHOICE, notes/assumptions/51.md). -/
def Dev.cbAccept (d : Dev) (k : Nat) (n : BitVec 16) : Bool × Dev :=
  let x := d.cbRec k
  let x := if x.newest.isSome && decide (x.at_ + d.cbReset k ≤ d.now) then CbRec.reset else x
  let hist := d.rd 0x08F Reg.ETH_CB_CFG.HIST_LEN (k / 64)
  match x.newest with
  | none => (true, d.setCbRec k ⟨some n, [n], d.now⟩)
  | some top =>
    if seqEarlier top n then
      (true, d.setCbRec k ⟨some n, n :: x.seen.filter (fun m => decide ((n - m).toNat < hist)), d.now⟩)
    else if decide ((top - n).toNat < hist) && !x.seen.contains n then
      (true, d.setCbRec k ⟨some top, n :: x.seen, d.now⟩)
    else (false, d)

/-- R126, stage 7: whether the frame goes on. -/
def Dev.eliminate (d : Dev) (p : Nat) (t : BitVec 14) (b : List Byte) : Bool × Dev :=
  match (parse b).rtag with
  | none => (true, d)
  | some n =>
    if isB p then
      match d.cbEntry (p / 2) t Reg.ETH_CB_STREAM.ELIM with
      | some k => d.cbAccept k (BitVec.ofNat 16 n)
      | none => (true, d)
    else (true, d)

/-- CB_RECOVERY_RESET (R126): RESET_MS without an accepted frame clears the history. -/
def execCbRecoveryReset (pair : Fin 2) (k : Fin 64) : State → Host.Outcome State Fault Refusal := onDevL fun d =>
  let i := 64 * pair.val + k.val
  match (d.cbRec i).newest with
  | none => d
  | some _ => (d.reach ((d.cbRec i).at_ + d.cbReset i)).setCbRec i .reset

/-! ### The head of a frame (R110, R111, R579) -/

/-- R109. -/
def ingressSize (p : Nat) : Nat := if isB p then 18432 else 4096

def Dev.maxLen (d : Dev) (p : Nat) : Nat := d.rd (ethPage p) Reg.ETH_MAXLEN.MAXLEN

/-- R579: bytes of the buffer that are in use: whole frames not admitted, and ETH_MAXLEN for each frame being received. -/
def Dev.ingressUsed (d : Dev) (p : Nat) : Nat :=
  d.fill p + sumOf (fun r => if r.fid.isSome then d.maxLen p else 0) (d.eport p).rx

/-- Push a frame on the port's list of frames being received. -/
def Dev.pushRx (d : Dev) (p : Nat) (r : RxFrame) : Dev := d.setEport p { d.eport p with rx := r :: (d.eport p).rx }

/-- R579, R111: place a frame in ingress queue `f.queue`. -/
def Dev.place (d : Dev) (p : Nat) (b : List Byte) (time : BitVec 64) (f : Filtered) (bank : BitVec 2) : Dev :=
  if ingressSize p < d.ingressUsed p + d.maxLen p then d.pushRx p ⟨b, time, none, some 46, false, false, none, false⟩
  else
    let x := parse b
    let it : Item :=
      ⟨.eth p f.queue, 0, f.talker, f.cls, (match x.ctag with | some t => bitAt t 12 | none => false), x.rtag.isSome,
       some bank, strip f.stripV f.stripR b, time, 0, 0, false, none, d.nrm.nextFid, f.bad⟩
    let d := { d with nrm := { d.nrm with items := d.nrm.items ++ [it], nextFid := d.nrm.nextFid + 1 } }
    d.pushRx p ⟨b, time, some it.fid, none, f.stripV, f.stripR, none, false⟩

/-- R110, stages 5 to 9, on the first 64 bytes. A frame whose filter reads a bad dword is placed as it reads; its sentence
fails in its lookup (R540; notes/assumptions/27.md). -/
def Dev.stages (d : Dev) (p : Nat) (b : List Byte) (time : BitVec 64) : Dev :=
  let gone := fun (d : Dev) (n : Nat) => d.pushRx p ⟨b, time, none, some n, false, false, none, false⟩
  if be16 b 12 = 0x8808 then gone d (match be16 b 14 with | 0x0001 => 5 | 0x0101 => 6 | _ => 19)
  else if d.nrm.sj then d.place p b time ⟨0, 0, 0, false, false, none, none⟩ 2
  else
    let f := d.filter p b
    match d.filterBad p, f.drop with
    | some a, _ => d.place p b time { f with bad := some a } d.nrm.active
    | none, some n => gone d n
    | none, none =>
      let r := d.eliminate p f.talker b
      if r.1 then r.2.place p b time f d.nrm.active else gone r.2 21

/-- R132: the port jams frames that start to arrive. -/
def Dev.jams (d : Dev) (p : Nat) : Bool := isM p && d.txMode p == 3 && (d.eport p).xoffAll

/-- R133: a frame whose first bit arrived at `t` found the port UP. One that began while the port was UP is received whole when
EN was cleared since, also when its hold has expired; link loss ends it (R580). -/
def Dev.hears (d : Dev) (p t : Nat) : Bool :=
  let x := d.eport p
  match x.link, x.offAt with
  | .up, _ => Nat.ble x.since t
  | _, some e => x.lock && Nat.ble x.since t && Nat.ble t e
  | _, none => false

/-- R110, R128: a frame may begin on port `p`: no other is being received, or it is an express frame inside a preempted one of a
port with the MAC merge layer. -/
def Dev.rxOpen (d : Dev) (p : Nat) : Bool :=
  match (d.eport p).rx with | [] => true | [_] => isB p | _ => false

/-- R133, R550: a frame whose first bit arrived `age` ago is ignored whole. -/
def Dev.deaf (d : Dev) (p age : Nat) : Bool :=
  !d.hears p (d.now - age) || d.pwr.silent || (d.shut && (d.eport p).rx.isEmpty)

/-- R132: jam the frame that starts to arrive. -/
def Dev.jam (d : Dev) (p : Nat) : Dev := (d.emitWire (.jam p)).ethAdd p 45

/-- FRAME_HEAD_RECEIVED (R111): 64 bytes of a frame are in, `age` after the first bit behind its SFD. -/
def execFrameHeadReceived (p : Fin 22) (age : Nat) (head : List Byte) : State → Host.Outcome State Fault Refusal :=
  onDevL fun d =>
    if head.length ≠ 64 ∨ d.rxOpen p.val = false then d
    else if d.deaf p.val age then d.pushRx p.val ⟨head, 0, none, none, false, false, none, true⟩
    else if d.jams p.val then d.jam p.val
    else d.stages p.val head
      (corrected (d.wall (d.now - age)) (-(signed 16 (d.rd 0x022 Reg.TBU_PORT_DLY.RX_DLY p.val))))

/-! ### PAUSE and PFC (R120, R145) -/

/-- R145: the PCP of class `c` at port `p`. -/
def Dev.txPcp (d : Dev) (p c : Nat) : Nat := d.rd (ethPage p) Reg.ETH_TX_PCPMAP.PCP / 8 ^ c % 8

/-- R120, R121: load the pause timer of class `c`; a PFC frame loads its PFC timer too. -/
def Dev.loadPause (d : Dev) (p c quanta : Nat) (pfc : Bool) : Dev :=
  let x := d.eport p
  let t := d.now + d.bitTime p (512 * quanta)
  d.setEport p { x with pauses := listSet x.pauses c t, pfcs := if pfc then listSet x.pfcs c t else x.pfcs }

/-- R120: a received PAUSE frame names every class, a PFC frame the classes of its priorities. With RX_EN at 0, and on the M ports
(R146), it has no effect, and raises no PAUSE_RX. -/
def Dev.pauseFrame (d : Dev) (p : Nat) (pfc : Bool) (b : List Byte) : Dev :=
  if isM p || !d.on (ethPage p) Reg.ETH_FC_CFG.RX_EN then d
  else (List.range 8).foldl (fun d c =>
    if pfc then
      (if bitAt (be16 b 16) (d.txPcp p c) then d.loadPause p c (be16 b (18 + 2 * d.txPcp p c)) true else d)
    else d.loadPause p c (be16 b 16) false) (d.raise (ethPage p) 20)

/-! ### The end of a frame -/

/-- The sentence that a frame started cut-through became. -/
def Dev.senOfFrame (d : Dev) (fid : Nat) : Option (Nat × Sen) := d.swc.sens.find? fun e => e.2.fid == fid && !e.2.whole

/-- R214: give a bucket back what ETH_MAXLEN debited beyond the true length. -/
def Dev.giveBack (d : Dev) (p n : Nat) : Option (Nat × Bool) → Dev
  | none => d
  | some (m, tc) =>
    let x := d.meterNow m
    let back := bucket (d.maxLen p - n)
    d.setMeter m (if tc then { x with tc := min (bucket (d.cbsOf d.nrm.active m)) (x.tc + back) }
      else { x with te := min (bucket (d.ebsOf d.nrm.active m)) (x.te + back) })

/-- R112: a sentence that started cut-through ends with reason `code`: started copies end with an inverted FCS, the others
are discarded, its number is used up, and one record names the ingress port. -/
def Dev.malformed (d : Dev) (sid : Nat) (s : Sen) (code port : Nat) : Dev :=
  let d := d.stomp sid
  let d := (d.swc.copies.filter fun c => c.sid == sid).foldl (fun d c => d.unlink c) d
  let d := d.dropSen sid
  let d := s.tickets.foldl (fun d o => d.cancelTicket o s.shb.talker s.shb.seq) d
  match d.acct s.acct with
  | none => d
  | some x =>
    let ms := x.members.map fun m => { m with fail := m.fail.or (some (code, port)) }
    let d := { d with swc := { d.swc with accts := assocDel s.acct d.swc.accts } }
    d.lossRecord x.shb code port 0 (maskOf (ms.map (·.idx))) (ms.map fun m => (m.idx, (m.fail.getD (0, 0)).1))

/-- R214: a frame that started cut-through grew beyond MAX_SDU of its stream filter. -/
def Dev.grewOver (d : Dev) (h : Shb) (n : Nat) : Option (BitVec 32 × Nat) :=
  let d1 := d.tab32 h.bank (0x100004 + 8 * h.talker.toNat)
  let f := bitsOf d1 0 10
  let sf := d.tab32 h.bank (0x138000 + 4 * f)
  if h.bank ≠ 2 ∧ bitsOf d1 10 1 = 1 ∧ bitsOf sf 31 1 = 1 ∧ bitsOf sf 0 14 ≠ 0 ∧ bitsOf sf 0 14 < n then some (sf, f) else none

/-- R110 to R112, R214: the frame fails stage 2, 3 or 4. -/
def Dev.rxFails (d : Dev) (p n : Nat) (r : RxFrame) : Dev :=
  match r.fid with
  | none => d
  | some fid =>
    let d := (d.dropItem fid).giveBack p n r.debit
    match d.senOfFrame fid with
    | none => d
    | some (sid, s) =>
      match d.grewOver s.shb n with
      | some (sf, f) =>
        let d := (d.bump 0x028 Reg.NRM.POLICED_SDU).bumpSat (instPage s.shb.inst.toNat) Reg.INST.POLICED
        let d := if bitsOf sf 14 1 = 1 then d.blockFilter f true else d
        d.malformed sid s 0x05 p
      | none => d.malformed sid s 0x11 p

/-- R267: the cells of a sentence still to cross when its true length is known. -/
def Cross.cutTo (x : Cross) (copies : List Copy) (k : Nat) : Cross :=
  let started := copies.any fun c => c.sid == x.sid && c.out == x.out && c.cut
  { x with left := if started then k - (1 - x.left) else k, more := false }

/-- R118, R127, R119 build the frame; a port that is sending a sentence cut-through has its bytes only now. -/
def Dev.lateBytes (d : Dev) (sid : Nat) (build : Nat → List Byte) : Dev :=
  (List.range 16).foldl (fun d p =>
    let x := d.eport p
    let fix := fun (f : Option TxFrame) => f.map fun (y : TxFrame) => if y.sid = sid then { y with bytes := build p } else y
    if (match x.tx with | some y => y.sid == sid | none => false) ||
       (match x.held with | some y => y.sid == sid | none => false) then
      d.setEport p { x with tx := fix x.tx, held := fix x.held } else d) d

/-! ### Egress tags (R118, R119, R127) -/

/-- R118: the C-tag that port `p` writes for class `c`. -/
def Dev.txTag (d : Dev) (p : Nat) (h : Shb) : List Byte :=
  wordBytes [0x8100, d.rd (ethPage p) Reg.ETH_TX_TAG.VID + 4096 * b2n h.de + 8192 * d.txPcp p h.cls.toNat]

/-- R118, R127: the frame that port `p` sends for a sentence, without FCS and padding. -/
def Dev.tagFrame (d : Dev) (p : Nat) (s : Sen) : List Byte :=
  let b := s.body
  let has := be16 b 12 == 0x8100 && decide (16 ≤ b.length)
  let keep := if has then (b.drop 12).take 4 else []
  let rest := if has then b.drop 16 else b.drop 12
  let c := match d.rd (ethPage p) Reg.ETH_TX_TAG.TAGMODE with
    | 0 => keep
    | 1 => if has then keep else d.txTag p s.shb
    | 2 => []
    | _ => d.txTag p s.shb
  let r := match assoc (p / 2) s.rtag with
    | some n => if isB p && (d.cbEntry (p / 2) s.shb.talker Reg.ETH_CB_STREAM.GEN).isSome then wordBytes [0xF1C1, 0, n.toNat] else []
    | none => []
  b.take 12 ++ c ++ r ++ rest

/-- R119: zero bytes up to 60. -/
def padTo60 (b : List Byte) : List Byte := b ++ List.replicate (60 - b.length) 0

def Dev.buildFrame (d : Dev) (p : Nat) (s : Sen) : List Byte := padTo60 (d.tagFrame p s)

/-! ### A good end -/

/-- R267: the sentence `sid` of a frame that was cut through has its true body. -/
def Dev.rxWhole (d : Dev) (sid : Nat) (s : Sen) (body : List Byte) (n : Nat) : Dev :=
  let k := cellsFor body.length
  let h : Shb := { s.shb with len := BitVec.ofNat 14 body.length }
  let s' : Sen := { s with shb := h, body := body, whole := true, cells := s.cells.take k, bytes := n }
  let d := d.setSen sid s'
  let d := match d.acct s.acct with
    | some x => d.setAcct s.acct { x with shb := { x.shb with len := h.len } }
    | none => d
  let voq := d.swc.voq.map fun (x : Cross) => if x.sid = sid then x.cutTo d.swc.copies k else x
  let done := voq.filter fun x => x.sid == sid && x.left == 0
  let d := { d with swc := { d.swc with voq := voq.filter fun x => !(x.sid == sid && x.left == 0) } }
  let d := done.foldl (fun d x => d.arrive x.out sid) d
  d.lateBytes sid fun p => d.buildFrame p s'

/-- R111, R267: a frame has passed stages 3 and 4. -/
def Dev.rxPlaced (d : Dev) (p fid n : Nat) (r : RxFrame) (body : List Byte) : Dev :=
  match d.nrm.items.find? fun i => i.fid == fid with
  | some it => (d.putItem { it with body := body, whole := true, metered := n }).flow p
  | none =>
    let d := d.giveBack p n r.debit
    match d.senOfFrame fid with
    | some (sid, s) => (d.rxWhole sid s body n).flow p
    | none => d

/-- R139, R140: the counters of a frame of `n` bytes with a good FCS. -/
def Dev.rxGood (d : Dev) (p : Nat) (b : List Byte) (n : Nat) : Dev :=
  (((d.ethAdd p 0 n).ethAdd p 1).ethAdd p (2 + castOf b)).ethAdd p (sizeBin 7 n)

/-- R128: only a port with the MAC merge layer reassembles; elsewhere such a frame has a bad FCS. -/
def rxEndAt (how : RxEnd) (p : Nat) : RxEnd := if how == .smdError && !isB p then .badFcs else how

/-- R110, R140: the frame `r` with all its bytes `b`, FCS included, has ended on port `p`. One below 64 bytes or above ETH_MAXLEN
counts only in its length counter and in RX_OCTETS_ALL, with a good FCS too (DESIGN CHOICE, notes/assumptions/51.md). -/
def Dev.rxEnds (d : Dev) (p : Nat) (r : RxFrame) (b : List Byte) (how : RxEnd) : Dev :=
  let n := b.length
  let d := d.ethAdd p 23 n
  let how := rxEndAt how p
  match how with
  | .smdError => (d.ethAdd p 22).rxFails p n r
  | _ =>
    let ok := how == .good
    if n < 64 then (d.ethAdd p (if ok then 14 else 15)).rxFails p n r
    else if d.maxLen p < n then (d.ethAdd p (if ok then 17 else 18)).rxFails p n r
    else if !ok then (d.ethAdd p 16).rxFails p n r
    else
      let d := d.rxGood p b n
      match r.drop, r.fid with
      | some 5, _ => (d.ethAdd p 5).pauseFrame p false b
      | some 6, _ => (d.ethAdd p 6).pauseFrame p true b
      | some c, _ => d.ethAdd p c
      | none, some fid => d.rxPlaced p fid n r (strip r.stripV r.stripR (b.take (n - 4)))
      | none, none => d

/-- Take the innermost frame being received off the port's list. -/
def Dev.popRx (d : Dev) (p : Nat) : Dev := d.setEport p { d.eport p with rx := (d.eport p).rx.drop 1 }

/-- A frame of which 64 bytes never were in. -/
def shortFrame (b : List Byte) : RxFrame := ⟨b, 0, none, none, false, false, none, false⟩

/-- FRAME_END_RECEIVED (R110): the innermost frame being received ends, or one of which fewer than 64 bytes were in. -/
def execFrameEndReceived (p : Fin 22) (tail : RxTail) (how : RxEnd) : State → Host.Outcome State Fault Refusal :=
  onDevL fun d =>
    match tail.short, (d.eport p.val).rx with
    | some age, _ =>
      if 64 ≤ tail.bytes.length ∨ d.rxOpen p.val = false ∨ d.deaf p.val age = true then d
      else if d.jams p.val then d.jam p.val
      else d.rxEnds p.val (shortFrame tail.bytes) tail.bytes how
    | none, r :: _ => if r.skip then d.popRx p.val else (d.popRx p.val).rxEnds p.val r (r.head ++ tail.bytes) how
    | none, [] => d

/-- R580: the part of a frame that was in when the link was lost, `n` bytes, ends as a frame with a bad FCS. -/
def Dev.rxCut (d : Dev) (p : Nat) (r : RxFrame) (n : Nat) : Dev :=
  if r.skip then d else ((d.ethAdd p 23 n).ethAdd p (if n < 64 then 15 else 16)).rxFails p n r

/-- R580: the frames being received, `ins` bytes of each in, the innermost first. -/
def Dev.rxCutAll (d : Dev) (p : Nat) : List RxFrame → List Nat → Dev
  | [], _ => d
  | r :: rs, ins => (d.rxCut p r (max 64 (ins.headD 64))).rxCutAll p rs ins.tail

/-- R580: what was being received when the link was lost: `part` bytes (0: none) of a frame whose first bit lay `age` ago and of
which fewer than 64 were in, and `ins` bytes of the frames of which more were. -/
def Dev.rxAbort (d : Dev) (p part age : Nat) (ins : List Nat) : Dev :=
  let hit := decide (0 < part) && decide (part < 64) && d.rxOpen p && !d.deaf p age && !d.jams p
  let rx := (d.eport p).rx
  let d := if hit then d.rxCut p (shortFrame []) part else d
  (d.setEport p { d.eport p with rx := [] }).rxCutAll p rx ins

/-- R580: of what port `p` receives when the device itself takes the link down, how much was in is not stated
(notes/assumptions/1.md): of a frame that may just have begun, and of each frame being received. -/
def Dev.rxUnknown (d : Dev) (p : Nat) : Nat × List Nat :=
  let x := d.freeBits.toNat / 64
  (d.freeBits.toNat % 64, (List.range (d.eport p).rx.length).map fun k => 64 + x / 9153 ^ k % 9153)

end Sys2Proof.Machine
end

