-- ==== Sys2Proof/Machine/EthTx.lean ====
section
/-! DEFINITION. Ethernet transmission (R118 to R121, R127 to R132, R236, R238) and the frames' ends. -/

namespace Sys2Proof.Machine

open Sys2Proof

/-! ### Generation (R127) -/

/-- R127: take GEN_SEQ of the talker's entry in the pair of port `p`, once for the sentence in each pair, and set REPL. -/
def Dev.generate (d : Dev) (p sid : Nat) : Dev :=
  match d.sen sid with
  | none => d
  | some s =>
    match if isB p then d.cbEntry (p / 2) s.shb.talker Reg.ETH_CB_STREAM.GEN else none with
    | none => d
    | some k =>
      if (assoc (p / 2) s.rtag).isSome then d
      else
        let n := d.rd 0x08F Reg.ETH_CB_STREAM.GEN_SEQ k
        let d := d.wr 0x08F Reg.ETH_CB_STREAM.GEN_SEQ (n + 1) k
        let h : Shb := { s.shb with flags := s.shb.flags ||| flagRepl }
        let d := d.setSen sid { s with rtag := s.rtag ++ [(p / 2, BitVec.ofNat 16 n)], shb := h }
        match d.acct s.acct with
        | some x => d.setAcct s.acct { x with shb := { x.shb with flags := x.shb.flags ||| flagRepl } }
        | none => d

/-- R127: port `p` sends sentence `s` with a generated R-tag. -/
def Dev.taggedAt (d : Dev) (p : Nat) (s : Sen) : Bool :=
  (assoc (p / 2) s.rtag).isSome && isB p && (d.cbEntry (p / 2) s.shb.talker Reg.ETH_CB_STREAM.GEN).isSome

/-! ### Choosing (R121, R236, R238, R240) -/

def Dev.express (d : Dev) (p c : Nat) : Bool :=
  !d.preempting p || bitAt (d.rd (ethPage p) Reg.ETH_PREEMPT.EXPRESS) c

/-- R120, R121: no pause timer stops class `c`. -/
def Dev.pauseOk (d : Dev) (p c : Nat) : Bool :=
  isM p || (if d.preempting p && d.express p c then decide (listGet 0 (d.eport p).pfcs c ≤ d.now) else d.unpaused p c)

/-- R128: the smallest fragment that is not the last, in bytes. -/
def Dev.minFrag (d : Dev) (p : Nat) : Nat := 64 * (1 + d.rd (ethPage p) Reg.ETH_PREEMPT.ADD_FRAG) - 4

/-- R238: a frame of `n` bytes without FCS may start under its gate. -/
def Dev.gateOk (d : Dev) (p c n : Nat) : Bool :=
  if d.express p c then d.gateFits p c (n + 4)
  else match d.gateLeft p c with
    | none => true
    | some t => decide (0 < t) && decide (d.bitTime p (8 * (d.minFrag p + 8)) ≤ t)

/-- The bytes that a copy of sentence `s` fills at port `p` without FCS; a frame that is still received counts with
ETH_MAXLEN of the port (R234). -/
def Dev.frameLen (d : Dev) (p : Nat) (s : Sen) : Nat :=
  if s.whole then (d.buildFrame p s).length else d.maxLen p - 4

/-- R236: the head copy of its class queue may start now. -/
def Dev.eligible (d : Dev) (p : Nat) (x : Copy × Sen) : Bool :=
  let c := x.2.shb.cls.toNat
  if isM p then true else d.pauseOk p c && d.gateOk p c (d.frameLen p x.2) && d.creditOk p c

/-- The head of each class queue of port `p`, the highest class first. -/
def classHeads : List (Copy × Sen) → List (Copy × Sen)
  | [] => []
  | x :: xs => x :: (classHeads xs).filter fun y => y.2.shb.cls != x.2.shb.cls

/-- R236: what port `p` would start next, of the express classes alone or of all. -/
def Dev.nextFrame (d : Dev) (p : Nat) (expressOnly : Bool) : Option (Copy × Sen) :=
  (classHeads (d.egressOrder p)).find? fun x => d.eligible p x && (!expressOnly || d.express p x.2.shb.cls.toNat)

/-! ### Starting -/

/-- R118: a frame that is longer than ETH_MAXLEN fails at the port. -/
def Dev.tooLong (d : Dev) (p : Nat) (s : Sen) : Bool := decide (d.maxLen p < (d.buildFrame p s).length + 4)

/-- R372, R373: the egress time of a frame whose preamble starts now: its first bit after the SFD lies 64 bits on. -/
def Dev.txTime (d : Dev) (p : Nat) : BitVec 64 :=
  corrected (d.wall (d.now + d.bitTime p 64)) (signed 16 (d.rd 0x022 Reg.TBU_PORT_DLY.TX_DLY p))

def Role.member? : Role → Nat
  | .member m => m
  | .engine => 0
  | .record => 0

/-! ### Transmit opportunities of PLCA (R131) -/

/-- R131: the port follows PLCA, and has not fallen back to CSMA/CD. -/
def Dev.plca (d : Dev) (q : Nat) : Bool :=
  let pg := ethPage q
  isM q && d.on pg Reg.ETH_MD_CFG.PLCA_EN && d.rd pg Reg.ETH_MD_CFG.NODE_ID != 0xFF && !(d.eport q).csma

/-- R131: NODE_ID 0 makes the port the coordinator. -/
def Dev.coordinates (d : Dev) (q : Nat) : Bool := d.plca q && d.rd (ethPage q) Reg.ETH_MD_CFG.NODE_ID == 0

/-- R131: at the least, how long after the end of its transmit opportunity a node has its next one: the other nodes behind it yield
after TO_TMR each, the coordinator sends its beacon, and the nodes before it yield. A follower does not know how many nodes there
are (PRESUMED: the beacon of IEEE 802.3cg lasts 20 bit times, notes/assumptions/52.md). -/
def Dev.plcaRest (d : Dev) (q : Nat) : Nat :=
  let pg := ethPage q
  let id := d.rd pg Reg.ETH_MD_CFG.NODE_ID
  d.bitTime q (20 + d.rd pg Reg.ETH_MD_CFG.TO_TMR * (if id = 0 then d.rd pg Reg.ETH_MD_CFG.NODE_CNT - 1 else id))

/-- R131: the present opportunity allows one more frame: BURST_CNT extra ones, each begun within BURST_TMR of the last. -/
def Dev.bursts (d : Dev) (q : Nat) : Bool := decide (0 < (d.eport q).burst) && decide (d.now ≤ (d.eport q).burstTo)

/-- R131: the port may start a frame: it has a transmit opportunity, or runs CSMA/CD. -/
def Dev.opOpen (d : Dev) (q : Nat) : Bool := !d.plca q || d.bursts q || decide ((d.eport q).opAt ≤ d.now)

/-- R131: a frame starts in the present opportunity, or in a new one, which a coordinator opens with its beacon. -/
def Dev.opTake (d : Dev) (q : Nat) : Dev :=
  if !d.plca q then d
  else if d.bursts q then d.setEport q { d.eport q with burst := (d.eport q).burst - 1 }
  else
    let d := if d.coordinates q then d.emitWire (.beacon q) else d
    d.setEport q { d.eport q with burst := d.rd (ethPage q) Reg.ETH_MD_BURST.BURST_CNT }

/-- R131: a frame of the port has left the medium. -/
def Dev.opEnd (d : Dev) (q : Nat) : Dev :=
  if !d.plca q then d
  else d.setEport q { d.eport q with
    opAt := d.now + d.plcaRest q
    burstTo := d.now + d.bitTime q (d.rd (ethPage q) Reg.ETH_MD_BURST.BURST_TMR) }

/-- R131: a coordinator with nothing to send lets its opportunity pass: it sends its beacon, and a cycle of NODE_CNT opportunities
begins. -/
def Dev.opPass (d : Dev) (q : Nat) : Dev :=
  let x := d.eport q
  if d.coordinates q && decide (x.opAt ≤ d.now) && x.link == .up && x.rx.isEmpty then
    let d := d.emitWire (.beacon q)
    d.setEport q { d.eport q with
      burst := 0
      opAt := d.now + d.plcaRest q + d.bitTime q (d.rd (ethPage q) Reg.ETH_MD_CFG.TO_TMR) }
  else d

/-- R118, R127, R374: start the frame of a copy. -/
def Dev.startFrame (d : Dev) (p : Nat) (c : Copy) : Dev :=
  let d := d.generate p c.sid
  match d.sen c.sid with
  | none => d
  | some s =>
    if s.whole && d.tooLong p s then (d.ethAdd p 39).copyFails c 0x09 (d.placeOf p)
    else
      let d := ((d.toMedium c).shape p).opTake p
      let x := d.eport p
      d.setEport p { x with
        attempts := 1
        tx := some ⟨c.sid, c.role.member?, d.buildFrame p s, d.now, d.now, s.shb.cls.toNat, d.taggedAt p s, d.txTime p⟩ }

/-- R128, R140: the frame being sent is preempted and held. -/
def Dev.preempt (d : Dev) (p : Nat) : Dev :=
  let d := d.shape p
  let x := d.eport p
  match x.tx with
  | some f => (d.setEport p { x with tx := none, held := some { f with began := d.now - f.began } }).ethAdd p 40
  | none => d

/-- R128: when the first minimum fragment of what is sent now of a frame is out. -/
def Dev.fragPoint (d : Dev) (p : Nat) (f : TxFrame) : Nat := f.frag + d.bitTime p (8 * (d.minFrag p + 8))

/-- R118: when the last bit of a frame leaves the port, the FCS included. -/
def Dev.frameEnd (d : Dev) (p : Nat) (f : TxFrame) : Nat := f.began + d.bitTime p (8 * (f.bytes.length + 12))

/-- R128, R238: the frame being sent comes to a point at which it can be preempted: its minimum fragment is out before it ends. A
frame that is still received has no end yet. -/
def Dev.hasPoint (d : Dev) (p : Nat) (f : TxFrame) : Bool :=
  decide (d.fragPoint p f < d.frameEnd p f) || (match d.sen f.sid with | some s => !s.whole | none => false)

/-- R128: the frame being sent can be preempted now. -/
def Dev.mayPreempt (d : Dev) (p : Nat) : Bool :=
  match (d.eport p).tx with
  | some f => d.preempting p && !d.express p f.cls && (d.eport p).held.isNone && d.hasPoint p f &&
      decide (d.fragPoint p f ≤ d.now)
  | none => false

/-- R121, R238: the held frame may resume. Its gate holds it only with HOLD_EN at 1. -/
def Dev.mayResume (d : Dev) (p : Nat) (f : TxFrame) : Bool :=
  d.pauseOk p f.cls && (!d.on (schedPage p) Reg.SWC_GCL_CTRL.HOLD_EN (p % 2) || bitAt (d.gates p) f.cls)

/-- R128: the held frame resumes; R129: it is sent again. -/
def Dev.resume (d : Dev) (p : Nat) (f : TxFrame) : Dev :=
  let d := (d.shape p).opTake p
  let x := d.eport p
  if isM p then
    d.setEport p { x with held := none, attempts := x.attempts + 1,
                              tx := some { f with began := d.now, frag := d.now, time := d.txTime p } }
  else d.setEport p { x with held := none, tx := some { f with began := d.now - f.began, frag := d.now } }

/-- R129: the copy whose frame port `p` holds. -/
def Dev.copyOf (d : Dev) (p : Nat) (f : TxFrame) : Option Copy :=
  d.swc.copies.find? fun c => c.sid == f.sid && c.set == p && c.role == .member f.mem

/-- R129, R242: an M port sends its frame again, unless it has outlived its lifetime. -/
def Dev.retry (d : Dev) (p : Nat) (f : TxFrame) : Dev :=
  match d.sen f.sid, d.copyOf p f with
  | some s, some c =>
    if d.expires s then (d.setEport p { d.eport p with held := none }).copyFails c 0x03 (d.placeOf p)
    else d.resume p f
  | _, _ => d.setEport p { d.eport p with held := none }

/-- R133: a port whose EN was cleared finishes the frame that it holds, also when its hold has expired; an UP port sends. -/
def Dev.mayFinish (d : Dev) (p : Nat) : Bool :=
  let x := d.eport p
  x.link == .up || (x.offAt.isSome && x.lock)

/-- R236, R240: port `p` can start a frame. -/
def Dev.egressStart (d : Dev) (p : Nat) : Dev :=
  let d := d.shape p
  let x := d.eport p
  match x.tx with
  | some _ =>
    if x.link == .up && d.mayPreempt p then
      match d.nextFrame p true with
      | some y => d.chosen y.1 y.2 fun d => (d.preempt p).startFrame p y.1
      | none => d
    else d
  | none =>
    if isM p then
      match x.held with
      | some f => if x.link == .up && !x.backoff && x.rx.isEmpty && d.opOpen p then d.retry p f else d
      | none =>
        if x.link == .up && x.rx.isEmpty && d.opOpen p then
          match d.nextFrame p false with
          | some y => d.chosen y.1 y.2 fun d => d.startFrame p y.1
          | none => d.opPass p
        else d
    else match x.held with
      | some f =>
        (match if x.link == .up then d.nextFrame p true else none with
         | some y => d.chosen y.1 y.2 fun d => d.startFrame p y.1
         | none => if d.mayFinish p && d.mayResume p f then d.resume p f else d)
      | none =>
        if x.link == .up then
          match d.nextFrame p false with
          | some y => d.chosen y.1 y.2 fun d => d.startFrame p y.1
          | none => d
        else d

/-- EGRESS_FRAME_START (R236). -/
def execEgressFrameStart (p : Fin 22) : State → Host.Outcome State Fault Refusal := onDevL fun d => d.egressStart p.val

/-! ### The end (R244) -/

/-- R243, R244, R375, R376: the frame `f` is sent: its egress time is noted and its copy delivered. -/
def Dev.frameSent (d : Dev) (p : Nat) (f : TxFrame) : Dev :=
  let d := (d.emitWire (.frame p f.bytes true)).ethSent p f.bytes (f.bytes.length + 4)
  let d := if f.tagged then d.ethAdd p 41 else d
  let d := d.egressTime f.sid f.mem p f.time f.bytes
  match d.copyOf p f with
  | some c => d.deliver c
  | none => d

/-- R118, R244: the last bit of the frame `f` has left port `p`. -/
def Dev.frameOut (d : Dev) (p : Nat) (f : TxFrame) : Dev :=
  let d := (d.reach (d.frameEnd p f)).shape p
  let d := (d.setEport p { d.eport p with tx := none }).opEnd p
  if d.maxLen p < f.bytes.length + 4 then
    let d := (d.ethAdd p 39).emitWire (.frame p f.bytes false)
    match d.copyOf p f with
    | some c => d.copyFails c 0x09 (d.placeOf p)
    | none => d
  else d.frameSent p f

/-- FRAME_TX_END (R244). A sentence that is still received has no last byte. Control frames that waited follow (R123). -/
def Dev.frameTxEnd (d : Dev) (p : Nat) : Dev :=
  match (d.eport p).tx with
  | none => d
  | some f =>
    match d.sen f.sid with
    | none => (d.setEport p { d.eport p with tx := none }).flushCtl p
    | some s => if !s.whole then d else (d.frameOut p f).flushCtl p

def execFrameTxEnd (p : Fin 22) : State → Host.Outcome State Fault Refusal := onDevL fun d => d.frameTxEnd p.val

/-! ### Gate lists and held frames (R237, R238) -/

/-- R238: a gate that closes preempts the preemptable frame being sent at the first point that R128 permits; a frame that ends
before such a point completes. -/
def Dev.gateHold (d : Dev) (p : Nat) : Dev :=
  match (d.eport p).tx with
  | some f =>
    if d.on (schedPage p) Reg.SWC_GCL_CTRL.HOLD_EN (p % 2) && d.preempting p && !d.express p f.cls &&
       !bitAt (d.gates p) f.cls && (d.eport p).held.isNone && d.hasPoint p f then
      (d.reach (d.fragPoint p f)).preempt p
    else d
  | none => d

/-- GCL_CHANGE_TIME (R237). -/
def execGclChangeTime (p : Fin 16) : State → Host.Outcome State Fault Refusal := onDevL fun d => (d.gclTime p.val).gateHold p.val

/-- GCL_ENTRY_END (R237, R238). -/
def execGclEntryEnd (p : Fin 16) : State → Host.Outcome State Fault Refusal := onDevL fun d => (d.gclNext p.val).gateHold p.val

/-! ### Collisions (R129, R130) -/

/-- R130: the frame is not sent again. -/
def Dev.txGivenUp (d : Dev) (p n : Nat) (f : TxFrame) : Dev :=
  let d := d.ethAdd p n
  match d.copyOf p f with
  | some c => d.copyFails c 0x08 (d.placeOf p)
  | none => d

/-- R134: a frame goes back to the head of its queue. -/
def Dev.requeue (d : Dev) (p : Nat) (f : TxFrame) : Dev :=
  match d.copyOf p f with
  | none => d
  | some c =>
    { d with swc := { d.swc with
        copies := { c with place := .egress } :: d.swc.copies.filter fun x => !x.is c } }

/-- R133, R136: every sentence held for port `p` fails with LINK_DOWN; one being sent is finished. -/
def Dev.failHeld (d : Dev) (set : Nat) : Dev :=
  (d.swc.copies.filter fun c => c.set == set && c.place != .medium).foldl (fun d c => d.copyFails c 0x02 (d.placeOf set)) d

/-- R129, R133, R136: a frame that collides is tried again after its back-off. Once EN is cleared it is no longer being sent: it is
held for the port, or fails with the rest when the hold has expired. -/
def Dev.collided (d : Dev) (q : Nat) (f : TxFrame) : Dev :=
  let x := d.eport q
  if x.link == .up then d.setEport q { x with tx := none, held := some f, backoff := true }
  else
    let d := (d.setEport q { x with tx := none }).requeue q f
    if x.link == .hold then d else d.failHeld q

/-- COLLISION (R130): a frame being sent collides, late or not; the port jams. -/
def execCollision (p : Fin 6) (late : Bool) : State → Host.Outcome State Fault Refusal := onDevL fun d =>
  let q := 16 + p.val
  let x := d.eport q
  match x.tx with
  | none => d
  | some f =>
    let d := (d.ethAdd q 42).emitWire (.jam q)
    if late then (d.setEport q { d.eport q with tx := none }).txGivenUp q 43 f
    else if 16 ≤ x.attempts then (d.setEport q { d.eport q with tx := none }).txGivenUp q 44 f
    else d.collided q f

/-- BACKOFF_EXPIRY (R129): the frame is tried again, once the medium is idle. -/
def execBackoffExpiry (p : Fin 6) : State → Host.Outcome State Fault Refusal := onDevL fun d =>
  let q := 16 + p.val
  let x := d.eport q
  match x.held with
  | some f =>
    if x.backoff then
      let d := d.setEport q { x with backoff := false }
      if x.link == .up && x.rx.isEmpty && d.opOpen q then d.retry q f else d
    else d
  | none => d

/-! ### PLCA (R131) -/

/-- R131: the port runs PLCA as a follower: a coordinator, or a port with PLCA off, keeps BEACON_SEEN as it was (DESIGN CHOICE,
notes/assumptions/51.md). -/
def Dev.follower (d : Dev) (q : Nat) : Bool :=
  let pg := ethPage q
  d.on pg Reg.ETH_MD_CFG.PLCA_EN && d.rd pg Reg.ETH_MD_CFG.NODE_ID != 0xFF && d.rd pg Reg.ETH_MD_CFG.NODE_ID != 0

/-- R131: no beacon for 4 × NODE_CNT × TO_TMR bit times: the follower falls back to CSMA/CD. -/
def Dev.beaconLost (d : Dev) (q : Nat) : Dev :=
  let pg := ethPage q
  let d := d.reach ((d.eport q).beaconAt + d.bitTime q (4 * d.rd pg Reg.ETH_MD_CFG.NODE_CNT * d.rd pg Reg.ETH_MD_CFG.TO_TMR))
  d.setEport q { d.eport q with beacon := false, csma := true }

/-- R131: beacons return, and the follower's opportunities with them. -/
def Dev.beaconBack (d : Dev) (q : Nat) : Dev :=
  let t := d.now + d.bitTime q (d.rd (ethPage q) Reg.ETH_MD_CFG.NODE_ID * d.rd (ethPage q) Reg.ETH_MD_CFG.TO_TMR)
  d.setEport q { d.eport q with beacon := true, csma := false, beaconAt := d.now, burst := 0, opAt := t }

/-- PLCA_LOSS (R131). The event is a level (R578). -/
def execPlcaLoss (p : Fin 6) : State → Host.Outcome State Fault Refusal := onDevL fun d =>
  if d.follower (16 + p.val) then d.beaconLost (16 + p.val) else d

/-- PLCA_BEACON_RETURN (R131). -/
def execPlcaBeaconReturn (p : Fin 6) : State → Host.Outcome State Fault Refusal := onDevL fun d =>
  if d.follower (16 + p.val) then d.beaconBack (16 + p.val) else d

/-! ### Verification of preemption (R128, R153) -/

/-- R153: the verify handshake of port `p` runs. -/
def Dev.verifying (d : Dev) (p : Nat) : Bool :=
  let pg := ethPage p
  d.on pg Reg.ETH_PREEMPT.EN && !d.on pg Reg.ETH_PREEMPT.VERIFY_DIS && (d.eport p).verify == 0 && (d.eport p).link == .up

/-- R153: the handshake ends with VERIFY_STAT `v`. -/
def Dev.verifyEnds (d : Dev) (p v : Nat) : Dev :=
  (d.setEport p { d.eport p with verify := v }).raise (ethPage p) 22

/-- PREEMPT_VERIFY_DONE (R128). -/
def execPreemptVerifyDone (p : Fin 4) (ok : Bool) : State → Host.Outcome State Fault Refusal := onDevL fun d =>
  if d.verifying p.val then d.verifyEnds p.val (if ok then 1 else 2) else d

/-- R128: send a verify frame, the try `n` of the handshake, counted from 0. -/
def Dev.verifyTry (d : Dev) (p n : Nat) : Dev :=
  (d.emitWire (.verify p)).setEport p { d.eport p with verify := 0, tries := n, verifyAt := d.now }

/-- R128, R153: the handshake starts when its conditions start to hold between `d` and `e`. -/
def Dev.verifyFollow (d e : Dev) (p : Nat) : Dev := if !d.verifying p && e.verifying p then e.verifyTry p 0 else e

/-- VERIFY_RETRY (R153): VERIFY_MS after a try without an answer the next one is sent, and after the third the handshake fails. -/
def execVerifyRetry (p : Fin 4) : State → Host.Outcome State Fault Refusal := onDevL fun d =>
  if d.verifying p.val then
    let d := d.reach ((d.eport p.val).verifyAt + d.rd (ethPage p.val) Reg.ETH_PREEMPT.VERIFY_MS * Config.perMs)
    if 2 ≤ (d.eport p.val).tries then d.verifyEnds p.val 2 else d.verifyTry p.val ((d.eport p.val).tries + 1)
  else d

/-! ### Pause timers and refresh (R120, R122, R123) -/

/-- R120, R121: the moment at which the pause timer of class `c`, or its PFC timer, next reaches zero; 0 where both stand there. -/
def EthPort.pauseEnd (x : EthPort) (c : Nat) : Nat :=
  let t := listGet 0 x.pauses c
  let u := listGet 0 x.pfcs c
  if t = 0 then u else if u = 0 then t else min t u

/-- R120: the timers of class `c` that run out by `t` stand at zero. -/
def EthPort.pauseOver (x : EthPort) (c t : Nat) : EthPort :=
  let zero := fun (l : List Nat) => if listGet 0 l c ≤ t then listSet l c 0 else l
  { x with pauses := zero x.pauses, pfcs := zero x.pfcs }

/-- PAUSE_TIMER_EXPIRY (R120). -/
def execPauseTimerExpiry (p : Fin 22) (c : Fin 8) : State → Host.Outcome State Fault Refusal := onDevL fun d =>
  let t := (d.eport p.val).pauseEnd c.val
  if t = 0 then d else (d.reach t).setEport p.val ((d.eport p.val).pauseOver c.val t)

/-- PAUSE_REFRESH (R123): the port sends its PAUSE or PFC frame again, unless one still waits to be sent. -/
def execPauseRefresh (p : Fin 22) : State → Host.Outcome State Fault Refusal := onDevL fun d =>
  let pg := ethPage p.val
  let x := d.eport p.val
  let quanta := d.rd pg Reg.ETH_FC_CFG.QUANTA
  let mask := pfcMask (d.rd pg Reg.ETH_FC_CFG.PFC_EN) x.xoffAll x.xoffQ
  if x.link != .up || !x.ctl.isEmpty then d
  else if d.txMode p.val = 1 ∧ x.xoffAll = true then (d.reach x.refreshAt).sendPause p.val none quanta
  else if d.txMode p.val = 2 ∧ mask ≠ 0 then (d.reach x.refreshAt).sendPause p.val (some mask) quanta
  else d

end Sys2Proof.Machine
end

