-- ==== Sys2Proof/Machine/EthLink.lean ====
section
/-! DEFINITION. Link loss and the hold window (R133 to R136), TC10 sleep (R137) and cable diagnostics (R138). -/

namespace Sys2Proof.Machine

open Sys2Proof

/-! ### Hold (R134) -/

/-- R134: what port `p` was sending, or had preempted, is cut off. A frame in back-off was not being sent. -/
def Dev.cutOff (d : Dev) (p : Nat) : Dev :=
  let d := d.shape p
  let x := d.eport p
  let d := d.setEport p { x with tx := none, held := none, backoff := false }
  let d := match x.held with
    | some f => (if isM p then d else d.ethAdd p 39).requeue p f
    | none => d
  match x.tx with
  | some f => (d.ethAdd p 39).requeue p f
  | none => d

/-- R134: entry to HOLD. A HOLD_US above 100,000 counts as it stands (DESIGN CHOICE, notes/assumptions/51.md). -/
def Dev.enterHold (d : Dev) (p : Nat) : Dev :=
  let x := d.eport p
  let t := d.now + d.rd (ethPage p) Reg.ETH_HOLD.HOLD_US * Config.perUs
  (d.setEport p { x with
    link := .hold, holdAt := some t, pauses := EthPort.reset.pauses, pfcs := EthPort.reset.pfcs,
    xoffAll := false, xoffQ := EthPort.reset.xoffQ, ctl := [] }).ethAdd p 47

/-- R133: DOWN while EN is 1, DISABLED while it is 0. -/
def Dev.goDown (d : Dev) (p : Nat) : Dev :=
  let l : Link := if d.on (ethPage p) Reg.PG_CTRL.EN then .down else .disabled
  d.setEport p { d.eport p with link := l, holdAt := none }

/-- R136: the hold timer of port `p` expires. -/
def Dev.ethHoldExpiry (d : Dev) (p : Nat) : Dev :=
  match (d.eport p).link, (d.eport p).holdAt with
  | .hold, some t =>
    let d := (d.reach t).goDown p
    (d.failHeld p).raise (ethPage p) 18
  | _, _ => d

/-! ### Link loss and return -/

/-- R137: TC10 states. -/
def Dev.tc10 (d : Dev) (p : Nat) : Nat := d.rd (ethPage p) Reg.ETH_T1_CFG.TC10_STAT
def Dev.setTc10 (d : Dev) (p v : Nat) : Dev := d.wr (ethPage p) Reg.ETH_T1_CFG.TC10_STAT v

/-- R133, R150: the link of port `p` is not good. -/
def Dev.linkBad (d : Dev) (p : Nat) : Dev := d.setEport p { d.eport p with lock := false, peerSpeed := none, offAt := none }

/-- R133, R134, R137, R580: the link of port `p` is lost, with what was being received as `Dev.rxAbort` takes it. A port that is
asleep does not enter HOLD. -/
def Dev.linkLost (d : Dev) (p part age : Nat) (ins : List Nat) : Dev :=
  let up := (d.eport p).link == .up
  let d := (d.rxAbort p part age ins).cutOff p
  let d := d.linkBad p
  if !up then d
  else
    let d := d.raise (ethPage p) 17
    if isT1 p && d.on (ethPage p) Reg.ETH_T1_CFG.TC10_EN && d.tc10 p == 2 then (d.goDown p).failHeld p
    else d.enterHold p

/-- R133: the device itself takes the link of port `p` down. -/
def Dev.linkDrops (d : Dev) (p : Nat) : Dev :=
  let u := d.rxUnknown p
  d.drawn.linkLost p u.1 0 u.2

/-- LINK_LOSS (R134, R580). -/
def execLinkLoss (p : Fin 22) (lost : LostFrames) : State → Host.Outcome State Fault Refusal :=
  onDevL fun d => d.linkLost p.val lost.part lost.age lost.ins

/-- R128, R153: what a port that becomes UP starts with. -/
def Dev.becomeUp (d : Dev) (p : Nat) : Dev :=
  let d := if isT1 p && d.tc10 p == 3 then d.setTc10 p 0 else d
  let e := d.setEport p { d.eport p with link := .up, since := d.now, offAt := none, holdAt := none, verify := 0, tries := 0 }
  (d.verifyFollow e p).raise (ethPage p) 16

/-- R106: the in-band control word that the port transmits, with the configured speed, link up and full duplex. -/
def Dev.sendInBand (d : Dev) (p : Nat) : Dev :=
  if d.inBand p && d.on (ethPage p) Reg.PG_CTRL.EN then d.emitWire (.inBand p (d.rd (ethPage p) Reg.ETH_MODE.SPEED)) else d

/-- R509, R550: ports take part in nothing while their pins stand at the safe level, and a diagnosis keeps the link down. -/
def Dev.linkBarred (d : Dev) (p : Nat) : Bool := d.pwr.silent || d.holds (ethPage p) 9

/-- R106, R141: a good link, with the speed `rxSpeed` of the control word received, brings port `p` UP, unless the speeds differ or
the settings are no combination of R104. -/
def Dev.linkRises (d : Dev) (p : Nat) (rxSpeed : BitVec 2) (f : Dev → Dev) : Dev :=
  let d := d.sendInBand p
  let d := d.setEport p { d.eport p with lock := true, peerSpeed := if d.inBand p then some rxSpeed.toNat else none }
  if d.speedDiffers p || d.modeBad p then d else f (d.becomeUp p)

/-- LINK_GOOD (R133): the link of a DOWN port was good for 100 µs. -/
def execLinkGood (p : Fin 22) (rxSpeed : BitVec 2) : State → Host.Outcome State Fault Refusal := onDevL fun d =>
  if d.linkBarred p.val || !d.on (ethPage p.val) Reg.PG_CTRL.EN || (d.eport p.val).link != .down then d
  else d.linkRises p.val rxSpeed id

/-- R135, R242: held sentences that have outlived their lifetime fail. -/
def Dev.testHeld (d : Dev) (set : Nat) : Dev :=
  (d.swc.copies.filter fun c => c.set == set && c.place == .egress &&
      (match d.sen c.sid with | some s => d.expires s | none => false)).foldl
    (fun d c => d.copyFails c 0x03 (d.placeOf set)) d

/-- LINK_RETURN (R135): a port in HOLD whose control word names another speed, or whose settings are not valid, stays there
until its hold expires (DEDUCED from R106 and R141, notes/assumptions/51.md). -/
def execLinkReturn (x : PortSpeed) : State → Host.Outcome State Fault Refusal := onDevL fun d =>
  let p := x.port.val
  if d.linkBarred p || !d.on (ethPage p) Reg.PG_CTRL.EN || (d.eport p).link != .hold then d
  else d.linkRises p x.speed fun d => d.testHeld p

/-! ### The enable of a port page (R133) -/

/-- R133: EN of port `p` turns to 1. -/
def Dev.portOn (d : Dev) (p : Nat) : Dev :=
  let d := (d.wr (ethPage p) Reg.PG_CTRL.EN 1).sendInBand p
  if (d.eport p).link == .disabled then d.setEport p { d.eport p with link := .down } else d

/-- R133, R134: EN of port `p` turns to 0. What is being received or sent is finished; a frame in back-off goes back to its
queue. -/
def Dev.portOff (d : Dev) (p : Nat) : Dev :=
  let d := d.wr (ethPage p) Reg.PG_CTRL.EN 0
  let x := d.eport p
  match x.link with
  | .down => d.setEport p { x with link := .disabled }
  | .up =>
    let d := if isM p && x.held.isSome then
        (match x.held with
         | some f => (d.setEport p { x with held := none, backoff := false }).requeue p f
         | none => d)
      else d
    (d.setEport p { d.eport p with offAt := some d.now }).enterHold p
  | _ => d

/-- PORT_ENABLE (R133): a write of 1 to PG_CTRL.EN of a port page. -/
def execPortEnable (via : Via) (p : Fin 22) : State → Host.Outcome State Fault Refusal :=
  onBus (.portEnable p) via (ethPage p.val) fun d =>
  d.unlocked (ethPage p.val) fun d => if d.on (ethPage p.val) Reg.PG_CTRL.EN then d else d.portOn p.val

/-- PORT_DISABLE (R133): a write of 0 to PG_CTRL.EN of a port page. -/
def execPortDisable (via : Via) (p : Fin 22) : State → Host.Outcome State Fault Refusal :=
  onBus (.portDisable p) via (ethPage p.val) fun d =>
  d.unlocked (ethPage p.val) fun d => if d.on (ethPage p.val) Reg.PG_CTRL.EN then d.portOff p.val else d

/-! ### TC10 (R137) -/

def Dev.tc10En (d : Dev) (p : Nat) : Bool := d.on (ethPage p) Reg.ETH_T1_CFG.TC10_EN

/-- R137: a write of 1 to SLEEP_REQ. -/
def Dev.sleepReq (d : Dev) (p : Nat) : Dev :=
  if d.tc10En p && d.tc10 p == 0 then
    ((d.setTc10 p 1).wr (ethPage p) Reg.ETH_T1_CFG.SLEEP_REQ 1).emitWire (.tc10 p false)
  else d

/-- SLEEP_REQ (R137). -/
def execSleepReq (via : Via) (z : Fin 8) : State → Host.Outcome State Fault Refusal :=
  onBus (.sleepReq z) via (ethPage (4 + z.val)) fun d =>
  d.unlocked (ethPage (4 + z.val)) fun d => d.sleepReq (4 + z.val)

/-- TC10_SLEEP_RECEIVED (R137). -/
def execTc10SleepReceived (z : Fin 8) : State → Host.Outcome State Fault Refusal := onDevL fun d =>
  let p := 4 + z.val
  if d.tc10En p && Nat.ble (d.tc10 p) 1 then (d.setTc10 p 1).setEport p { d.eport p with sleepRx := true } else d

/-- R137: the egress queues of port `p` are empty. -/
def Dev.egressEmpty (d : Dev) (p : Nat) : Bool := !(d.swc.copies.any fun c => c.set == p)

/-- TC10_SLEEP_ACK (R137). -/
def execTc10SleepAck (z : Fin 8) : State → Host.Outcome State Fault Refusal := onDevL fun d =>
  let p := 4 + z.val
  if d.tc10En p && (d.eport p).sleepRx && d.egressEmpty p then
    (d.setEport p { d.eport p with sleepRx := false }).emitWire (.tc10 p false)
  else d

/-- TC10_ASLEEP (R137): the handshake completes. -/
def execTc10Asleep (z : Fin 8) : State → Host.Outcome State Fault Refusal := onDevL fun d =>
  let p := 4 + z.val
  if d.tc10En p && d.tc10 p == 1 && !(d.eport p).sleepRx then
    (d.setTc10 p 2).wr (ethPage p) Reg.ETH_T1_CFG.SLEEP_REQ 0
  else d

/-- R137: a write of 1 to WAKE_REQ: a wake-up pulse is sent, and an asleep port wakes. -/
def Dev.wakeReq (d : Dev) (p : Nat) : Dev :=
  if d.tc10En p then
    let d := d.emitWire (.tc10 p true)
    if d.tc10 p == 2 then d.setTc10 p 3 else d
  else d

/-- WAKE_REQ (R137). -/
def execWakeReq (via : Via) (z : Fin 8) : State → Host.Outcome State Fault Refusal :=
  onBus (.wakeReq z) via (ethPage (4 + z.val)) fun d =>
  d.unlocked (ethPage (4 + z.val)) fun d => d.wakeReq (4 + z.val)

/-! ### Cable diagnostics (R138) -/

/-- R138: a write of 1 to DIAG_START from source `src`: the link is down while the diagnosis runs. Whether PG_EVT.LINK_LOSS is
set for that is not stated: it is not (DESIGN CHOICE, notes/assumptions/21.md). -/
def Dev.diagStart (d : Dev) (p src : Nat) : Dev :=
  let r := d.maintTake (ethPage p) 9 src
  if r.1 then
    let d := r.2.wr (ethPage p) Reg.ETH_T1_CFG.DIAG_START 1
    if (d.eport p).link == .up then
      let u := d.rxUnknown p
      (((d.drawn.rxAbort p u.1 0 u.2).cutOff p).enterHold p).linkBad p
    else d.linkBad p
  else r.2.wr (ethPage p) Reg.ETH_T1_CFG.DIAG_RES 3

/-- DIAG_START (R138). -/
def execDiagStart (via : Via) (z : Fin 8) : State → Host.Outcome State Fault Refusal :=
  onBus (.diagStart z) via (ethPage (4 + z.val)) fun d =>
  d.unlocked (ethPage (4 + z.val)) fun d => d.diagStart (4 + z.val) (viaCode via)

/-- DIAG_DONE (R138). -/
def execDiagDone (z : Fin 8) (res : BitVec 2) (dist : BitVec 8) : State → Host.Outcome State Fault Refusal := onDevL fun d =>
  let pg := ethPage (4 + z.val)
  if d.on pg Reg.ETH_T1_CFG.DIAG_START then
    let d := (d.wr pg Reg.ETH_T1_CFG.DIAG_RES res.toNat).wr pg Reg.ETH_T1_CFG.DIAG_DIST dist.toNat
    (d.wr pg Reg.ETH_T1_CFG.DIAG_START 0).maintEnd pg 9
  else d

end Sys2Proof.Machine
end

