-- ==== Sys2Proof/Machine/Can.lean ====
section
/-! DEFINITION. CAN channels (R160 to R172, R196 to R198), and what the field-bus controllers share: passing an item to the
NRM (R157, R158) and taking sentences (R240). -/

namespace Sys2Proof.Machine

open Sys2Proof

/-! ### Items and egress -/

/-- R157, R159: a controller captures an item of port code `code`. -/
def Dev.captured (d : Dev) (code : Nat) (talker : BitVec 14) (cls : BitVec 3) (body : List Byte) (time : BitVec 64) : Item :=
  ⟨.bus code, 0, talker, cls, false, false, none, body, time, 0, 0, true, none, d.nrm.nextFid, none⟩

/-- An item comes to the NRM. -/
def Dev.addItem (d : Dev) (it : Item) : Dev :=
  { d with nrm := { d.nrm with items := d.nrm.items ++ [it], nextFid := d.nrm.nextFid + 1 } }

def Dev.capturedItem (d : Dev) (code : Nat) (talker : BitVec 14) (cls : BitVec 3) (body : List Byte) (time : BitVec 64) : Dev :=
  d.addItem (d.captured code talker cls body time)

/-- R372: the moment `age` ago. -/
def Dev.ago (d : Dev) (age : Nat) : BitVec 64 := stampOf (d.wall (d.now - age))

/-- The copy of member `m` of sentence `sid` in set `e`. -/
def Dev.copyAt (d : Dev) (e sid m : Nat) : Option Copy :=
  d.swc.copies.find? fun c => c.sid == sid && c.set == e && c.role == .member m

/-- R243, R244: the copy is delivered, its egress time being `time`. -/
def Dev.sentAt (d : Dev) (e sid m : Nat) (time : BitVec 64) : Dev :=
  let d := d.egressTime sid m e time []
  match d.copyAt e sid m with | some c => d.deliver c | none => d

/-- A copy in set `e` fails with a status. -/
def Dev.failsAt (d : Dev) (e sid m code : Nat) : Dev :=
  match d.copyAt e sid m with | some c => d.copyFails c code (d.placeOf e) | none => d

/-- Every copy in a set fails, what is being sent included. -/
def Dev.failSet (d : Dev) (set code : Nat) : Dev :=
  (d.swc.copies.filter fun c => c.set == set).foldl (fun d c => d.copyFails c code (d.placeOf set)) d

/-- R240: the next sentence of set `e`, the highest class first and in released order within a class. -/
def Dev.nextOf (d : Dev) (e : Nat) : Option (Copy × Sen) := (d.egressOrder e).head?

/-! ### Frames (R43, R165 to R170) -/

def fdf (fmt : Nat) : Bool := bitAt fmt 14
def xlf (fmt : Nat) : Bool := bitAt fmt 10
def rtr (fmt : Nat) : Bool := bitAt fmt 11
def ide (fmt : Nat) : Bool := bitAt fmt 15

/-- R168: data bytes of a DLC. -/
def dlcBytes (fmt : Nat) : Nat :=
  let n := fmt % 16
  if fdf fmt then (if n ≤ 8 then n else listGet 64 [12, 16, 20, 24, 32, 48, 64] (n - 9))
  else if rtr fmt then 0 else min n 8

def bytes32 (v : Nat) : List Byte := wordBytes [v / 65536, v % 65536]

/-- R43, R167: the payload of a received frame. -/
def canPayload (f : CanFrame) : List Byte :=
  let fmt := f.fmt.toNat
  if xlf fmt then
    wordBytes [0x4400 + fmt % 1024, f.id.toNat % 2048, f.vcid.toNat / 256 * 256] ++ bytes32 f.af.toNat ++ f.data.take 2048
  else wordBytes [fmt / 2048 * 2048 + fmt % 16] ++ bytes32 (f.id.toNat % (if ide fmt then 2 ^ 29 else 2048)) ++
    f.data.take (dlcBytes fmt)

/-- R166: slots that a payload takes. -/
def canSlots (body : List Byte) : Nat :=
  if xlf (be16 body 0) then (5 + (body.length + 1) / 2 + 39) / 40 else 1

/-- R166: the words of a frame's slots. -/
def slotWords (n : Nat) (ts : Bool) (time : BitVec 64) (body : List Byte) : List Word :=
  ([2 ^ 15 + 512 * n + 256 * b2n ts] ++ (List.range 4).map fun i => bitsOf time (16 * i) 16).map
    (fun x => Word.mk 2 (BitVec.ofNat 16 x)) ++ endTagged 1 (bodyWords body)

/-- R166: write words into the ring of 64 slots that begins at `base`, from slot `s` on. -/
def Dev.mramWrite (d : Dev) (c base s : Nat) (ws : List Word) : Dev :=
  let at_ := fun i => c * 8192 + (base + (s + i / 40) % 64) * 64 + i % 40
  let m := (List.range ws.length).foldl (fun m i => SMap.put (fun _ => 0) m (at_ i) (listGet 0 ws i)) d.fbus.mram
  { d with fbus := { d.fbus with mram := m } }

/-- R166: the slot `s` of the ring that begins at `base` holds the word 0 of a frame, and the `n - 1` behind it none. -/
def Dev.headAt (d : Dev) (c base s n : Nat) : Dev :=
  let mine := (List.range n).map fun j => base + (s + j) % 64
  d.setCan c { d.can c with heads := (base + s) :: (d.can c).heads.filter fun x => !mine.contains x }

/-- R166: the slots that a frame takes: the first run of `n` consecutive slots, of a ring of 64 from `start` on, that are not
in `used`. Where enough slots are free but no such run, none is found, and the frame is lost as with too few (DESIGN CHOICE,
notes/assumptions/51.md). Which free slots a frame takes is the model's choice: the first such run, from the next receive slot
on for a received frame, from slot 64 on for one to be sent (DESIGN CHOICE, notes/assumptions/55.md). -/
def freeRun (used : List Nat) (n start : Nat) : Option Nat :=
  ((List.range 64).map fun i => (start + i) % 64).find? fun s =>
    (List.range n).all fun j => !used.contains ((s + j) % 64)

/-! ### Reception (R164 to R166) -/

/-- R165: dword `j` of filter entry `k` of channel `c`. -/
def Dev.canDword (d : Dev) (c k j : Nat) : Nat :=
  let p := canPage c
  match j with
  | 0 => d.rd p Reg.CAN_FLT_D0.ALL k
  | 1 => d.rd p Reg.CAN_FLT_D1.MASK k
  | _ => d.rd p Reg.CAN_FLT_D2.TALKER k + 2 ^ 16 * d.rd p Reg.CAN_FLT_D2.CLASS k + 2 ^ 19 * d.rd p Reg.CAN_FLT_D2.DISCARD k

/-- R165: the same as a frame whose SOF was at moment `t` sees it: a write applies to frames whose SOF follows it. -/
def Dev.canFlt (d : Dev) (c k j t : Nat) : Nat :=
  match (d.can c).past.find? fun x => x.2.1 == 4 * k + j && Nat.ble t x.1 with
  | some x => x.2.2
  | none => d.canDword c k j

/-- R165: a write of dword `i` of the filter entries of channel `c`, in a block that was `d`. -/
def Dev.canPast (d e : Dev) (c i : Nat) : Dev :=
  e.setCan c { e.can c with past := (e.can c).past ++ [(e.now, i, d.canDword c (i / 4) (i % 4))] }

/-- R165: filter entry `k` of channel `c` matches the frame whose SOF was at moment `t`. -/
def Dev.canHits (d : Dev) (c k : Nat) (fmt id t : Nat) : Bool :=
  let d0 := d.canFlt c k 0 t
  let mask := d.canFlt c k 1 t
  bitAt d0 31 && bitAt d0 30 == xlf fmt && bitAt d0 29 == ide fmt &&
    Nat.land (d0 % 2 ^ 29) mask == Nat.land id mask

/-- R165: TALKER, CLASS and DISCARD for a captured frame. -/
def Dev.canFilter (d : Dev) (c fmt id t : Nat) : Nat × Nat × Bool :=
  let p := canPage c
  match (List.range 32).find? fun k => d.canHits c k fmt id t with
  | some k =>
    let d2 := d.canFlt c k 2 t
    (d2 % 2 ^ 14, d2 / 2 ^ 16 % 8, bitAt d2 19)
  | none => (d.rd p Reg.CAN_RX_DEFAULT.TALKER, d.rd p Reg.CAN_RX_DEFAULT.CLASS, d.on p Reg.CAN_RX_DEFAULT.DISCARD)

/-- The channel takes part in its bus. -/
def CanCh.onBus (x : CanCh) : Bool := x.state == .active || x.state == .passive

/-- R198: error active or error passive. -/
def CanCh.judge (x : CanCh) : CanCh :=
  if x.onBus then { x with state := if 128 ≤ x.tec ∨ 128 ≤ x.rec_ then .passive else .active } else x

/-- R160: whether the channel's MODE takes the frame's format. An XL frame that a channel with MODE 0b00 sees is a form error to it
(DESIGN CHOICE, notes/assumptions/51.md). -/
def Dev.canTakes (d : Dev) (c fmt : Nat) : Bool :=
  match d.rd (canPage c) Reg.CAN_CTRL.MODE with
  | 0 => !xlf fmt
  | 1 => !fdf fmt && !xlf fmt
  | _ => true

/-- R166: store a captured frame and pass it on, or lose it. -/
def Dev.canStore (d : Dev) (c : Nat) (talker cls : Nat) (body : List Byte) (time : BitVec 64) : Dev :=
  let x := d.can c
  let held := d.canHeld c
  let n := canSlots body
  let used := held.flatMap fun r => (List.range r.n).map fun j => (r.slot + j) % 64
  match freeRun used n x.rxNext with
  | none => ((d.setCan c { x with rx := held }).bump (canPage c) Reg.CAN.RX_OVERRUN).raise (canPage c) 18
  | some s =>
    let d := (d.mramWrite c 0 s (slotWords n false time body)).headAt c 0 s n
    let d := d.setCan c { d.can c with rx := held ++ [⟨d.nrm.nextFid, s, n⟩], rxNext := (s + n) % 64 }
    d.capturedItem (0x20 + c) (BitVec.ofNat 14 talker) (BitVec.ofNat 3 cls) body time

/-- R163: Cn_XLM is high from the ADH bit of an XL frame to the end of its data phase. -/
def Dev.driveXlm (d : Dev) (c fmt : Nat) : Dev :=
  if decide (c < 8) && d.on (canPage c) Reg.CAN_CTRL.XLM_EN && xlf fmt then (d.emitWire (.xlm c true)).emitWire (.xlm c false) else d

/-- CAN_FRAME_RECEIVED (R164): a frame is valid up to the last but one bit of EOF; its SOF was sampled `age` ago, and
`own` says that the channel sends it. The receive error counter falls (ISO 11898-1). -/
def execCanFrameReceived (c : Fin 32) (age : Nat) (own : Bool) (f : CanFrame) : State → Host.Outcome State Fault Refusal :=
  onDevL fun d =>
    let c := c.val
    let p := canPage c
    let x := d.can c
    if !x.onBus || (own && !d.on p Reg.CAN_CTRL.SELF_RX) || d.pwr.silent ||
        (d.shut && decide (d.pwr.entryAt + age ≤ d.now)) then d
    else if !d.canTakes c f.fmt.toNat then d.bump p Reg.CAN.ERR_FRAMES
    else
      let rec' := if 127 < x.rec_ then 119 + d.freeBits.toNat % 9 else x.rec_ - 1
      let d := if own then d else (if 127 < x.rec_ then d.drawn else d).setCan c ({ x with rec_ := rec' } : CanCh).judge
      let d := (if own then d else d.driveXlm c f.fmt.toNat).bump p Reg.CAN.RX_OK
      let r := d.canFilter c f.fmt.toNat (f.id.toNat % 2 ^ 29) (d.now - age)
      if r.2.2 then d.bump p Reg.CAN.RX_FILTERED else d.canStore c r.1 r.2.1 (canPayload f) (d.ago age)

/-! ### Transmission (R169 to R171) -/

/-- R169: the payload does not describe a frame that the channel can send. -/
def Dev.canMalformed (d : Dev) (c : Nat) (body : List Byte) : Bool :=
  let fmt := be16 body 0
  let mode := d.rd (canPage c) Reg.CAN_CTRL.MODE
  decide (body.length < 6) ||
  (if xlf fmt then decide (body.length < 11) || decide (2058 < body.length) else body.length != 6 + dlcBytes fmt) ||
  (fdf fmt && mode == 1) || (xlf fmt && mode != 2) || (rtr fmt && fdf fmt)

/-- R166: an egress time is asked for: by the host, or by an entry of TBU_EGR_CAP. -/
def Dev.asksTime (d : Dev) (s : Sen) (port : Nat) : Bool :=
  match s.org with | .host _ _ _ _ ts _ => ts | _ => d.capNames port s.shb.talker

/-- R240, R169, R166: channel `c` takes its next sentence into transmit slots. -/
def Dev.canTake (d : Dev) (c : Nat) : Dev :=
  let e := 0x20 + c
  match (d.can c).onBus, d.nextOf e with
  | true, some y =>
    d.chosen y.1 y.2 fun d =>
      let x := d.can c
      if d.canMalformed c y.2.body then d.copyFails y.1 0x11 (d.placeOf e)
      else
        let n := canSlots y.2.body
        let used := x.tx.flatMap fun t => (List.range t.n).map fun j => (t.slot + j) % 64
        match freeRun used n 0 with
        | none => d
        | some s =>
          let ts := d.asksTime y.2 e
          let d := (d.mramWrite c 64 s (slotWords n ts 0 y.2.body)).headAt c 64 s n
          let t : CanTx := ⟨y.1.sid, y.1.role.member?, 64 + s, n, d.now, ts, y.2.body, false⟩
          (d.setCan c { d.can c with tx := x.tx ++ [t] }).toMedium y.1
  | _, _ => d

def bitList (n v : Nat) : List Bool := (List.range n).reverse.map fun i => bitAt v i

/-- R170: a frame as it would appear on the wire, without stuff bits, from the identifier to the data. -/
def wireBits (body : List Byte) : List Bool :=
  let fmt := be16 body 0
  let id := be16 body 2 * 65536 + be16 body 4
  if xlf fmt then bitList 11 (be16 body 2) ++ [bitAt fmt 8, false, true, true]
  else
    let data := (body.drop 6).flatMap fun b => bitList 8 b.toNat
    let head := if ide fmt then bitList 11 (id / 2 ^ 18) ++ [true, true] ++ bitList 18 id ++ [rtr fmt, fdf fmt]
      else bitList 11 id ++ [rtr fmt, false, fdf fmt]
    let ctl := if fdf fmt then [false, bitAt fmt 13, bitAt fmt 12] else if ide fmt then [false] else []
    head ++ ctl ++ bitList 4 (fmt % 16) ++ data

/-- A dominant bit (0) wins: `a` beats `b`. -/
def bitsBeat : List Bool → List Bool → Bool
  | x :: xs, y :: ys => if x = y then bitsBeat xs ys else !x
  | _, _ => false

/-- R170: the frame that wins arbitration; among equal ones the earlier. -/
def canBest : List CanTx → Option CanTx
  | [] => none
  | t :: ts => match canBest ts with
    | none => some t
    | some u => if bitsBeat (wireBits u.body) (wireBits t.body) then some u else some t

/-- R170: the frame offered by channel `c` at a moment: of those in its slots by then. -/
def Dev.canOffered (d : Dev) (c at_ : Nat) : Option CanTx := canBest ((d.can c).tx.filter fun t => decide (t.at_ ≤ at_))

/-- Free the slots of a transmit frame. -/
def Dev.canFree (d : Dev) (c : Nat) (t : CanTx) : Dev :=
  d.setCan c { d.can c with tx := (d.can c).tx.filter fun u => !(u.sid == t.sid && u.mem == t.mem) }

/-- R171, R242: the frame that is offered at moment `at_` is tried again, unless its lifetime has expired in that cell time;
then the next one. -/
def Dev.canAgainAt (d : Dev) (c at_ : Nat) : Nat → Dev
  | 0 => d
  | n + 1 =>
    match d.canOffered c at_ with
    | none => d
    | some t =>
      match d.sen t.sid with
      | some s =>
        if t.tried && d.expiredAt s (cellEndOf at_) then
          ((d.canFree c t).failsAt (0x20 + c) t.sid t.mem 0x03).canAgainAt c at_ n
        else d
      | none => (d.canFree c t).canAgainAt c at_ n

/-- R171, R242: every retry whose SOF was sampled at `at_`, or could be now, is tested. -/
def Dev.canTested (d : Dev) (c at_ : Nat) : Dev := d.canAgainAt c at_ 64

/-- R171: the attempt whose SOF was sampled at `at_` did not succeed: its frame is to be tried again. -/
def Dev.canRetry (d : Dev) (c at_ : Nat) : Dev :=
  match d.canOffered c at_ with
  | none => d
  | some t =>
    (d.setCan c { d.can c with
      tx := (d.can c).tx.map fun (u : CanTx) => if u.sid == t.sid && u.mem == t.mem then { u with tried := true } else u }).canTested
        c d.now

/-- CAN_TX_DONE (R171): the frame whose SOF was sampled `age` ago completes with an acknowledgement. The transmit error
counter falls (ISO 11898-1). -/
def execCanTxDone (c : Fin 32) (age : Nat) : State → Host.Outcome State Fault Refusal := onDevL fun d =>
  let c := c.val
  if !(d.can c).onBus then d
  else
  let d := d.canTested c (d.now - age)
  match d.canOffered c (d.now - age) with
  | none => d
  | some t =>
    let time := d.ago age
    let d := if t.ts then d.mramWrite c 64 (t.slot - 64) ((slotWords t.n true time t.body).take 5) else d
    let d := d.canFree c t
    let d := d.setCan c ({ d.can c with tec := (d.can c).tec - 1 } : CanCh).judge
    let d := ((d.driveXlm c (be16 t.body 0)).bump (canPage c) Reg.CAN.TX_OK).emitWire
      (.can c (BitVec.ofNat 16 (be16 t.body 0)) (BitVec.ofNat 32 (be16 t.body 2 * 65536 + be16 t.body 4)) t.body)
    (d.sentAt (0x20 + c) t.sid t.mem time).canTested c d.now

/-- ARB_LOST (R171): the attempt whose SOF was sampled `x.age` ago loses arbitration. -/
def execArbLost (x : CanStart) : State → Host.Outcome State Fault Refusal := onDevL fun d =>
  let c := x.chan.val
  if (d.can c).onBus && !(d.can c).tx.isEmpty then
    ((d.canTested c (d.now - x.age)).bump (canPage c) Reg.CAN.ARB_LOST).canRetry c (d.now - x.age)
  else d

/-- CAN_ERROR (R164, R171, R198): an error is detected in the frame whose SOF was sampled `age` ago; the counters rise as
ISO 11898-1 says. A transmitter retries: it is one when its transmit error counter rises, or neither counter does (a missing
acknowledgement while it is error passive; PRESUMED, notes/assumptions/55.md). -/
def execCanError (c : Fin 32) (inc : ErrInc) (age : Nat) : State → Host.Outcome State Fault Refusal := onDevL fun d =>
  let c := c.val
  let x := d.can c
  if !x.onBus then d
  else
    let d := d.bump (canPage c) Reg.CAN.ERR_FRAMES
    let d := d.setCan c ({ x with tec := x.tec + inc.tec, rec_ := min 255 (x.rec_ + inc.rec_) } : CanCh).judge
    if inc.tec = 0 ∧ inc.rec_ ≠ 0 then d else (d.canTested c (d.now - age)).canRetry c (d.now - age)

/-! ### Bus-off (R172) and the enable -/

/-- BUSOFF (R172): as the loss of a link, with HOLD_MS. -/
def execBusoff (c : Fin 32) : State → Host.Outcome State Fault Refusal := onDevL fun d =>
  let c := c.val
  let x := d.can c
  if !x.onBus then d
  else
    let p := canPage c
    let t := d.now + d.rd p Reg.CAN_CTRL.HOLD_MS * Config.perMs
    (d.setCan c { x with state := .busOff, holdAt := some t, recover := d.on p Reg.CAN_CTRL.AUTO_RECOV }).bump
      p Reg.CAN.BUSOFF_EVENTS

/-- R135, R172, R242: the frames held in slots and queues that have outlived their lifetime fail. -/
def Dev.canTestHeld (d : Dev) (c : Nat) : Dev :=
  let d := (d.can c).tx.foldl (fun d t =>
    match d.sen t.sid with
    | some s => if d.expires s then (d.canFree c t).failsAt (0x20 + c) t.sid t.mem 0x03 else d
    | none => d.canFree c t) d
  d.testHeld (0x20 + c)

/-- BUSOFF_RECOVERED (R172): as the return of a link. A channel whose settings are refused stays off the bus (R160, R162). -/
def execBusoffRecovered (c : Fin 32) : State → Host.Outcome State Fault Refusal := onDevL fun d =>
  let c := c.val
  let x := d.can c
  if x.state == .busOff && x.recover && !d.canBad c then
    (d.setCan c { x with state := .active, tec := 0, rec_ := 0, holdAt := none, recover := false }).canTestHeld c
  else d

/-- R172: a write of 1 to CAN_STAT.RECOVER. -/
def Dev.canRecover (d : Dev) (c : Nat) : Dev :=
  if (d.can c).state == .busOff then d.setCan c { d.can c with recover := true } else d

/-- RECOVER (R172). -/
def execRecover (via : Via) (c : Fin 32) : State → Host.Outcome State Fault Refusal :=
  onBus (.recover c) via (canPage c.val) fun d =>
  d.unlocked (canPage c.val) fun d => d.canRecover c.val

/-- R136, R172: the hold of channel `c` expires. -/
def Dev.canHoldExpiry (d : Dev) (c : Nat) : Dev :=
  match (d.can c).state, (d.can c).holdAt with
  | .busOff, some t =>
    let d := d.reach t
    let d := d.setCan c { d.can c with holdAt := none, tx := [] }
    (d.failSet (0x20 + c) 0x02).raise (canPage c) 19
  | _, _ => d

/-- R160, R162, R198: the channel leaves the bus: EN is 0, or its settings are refused. What it holds fails with LINK_DOWN. TEC and
REC are cleared (DESIGN CHOICE, notes/assumptions/55.md). -/
def Dev.canOff (d : Dev) (c : Nat) : Dev :=
  let x := d.can c
  if x.state == .disabled then d
  else (d.setCan c { x with state := .disabled, tec := 0, rec_ := 0, holdAt := none, recover := false, tx := [] }).failSet
    (0x20 + c) 0x02

/-- CAN_BUS_JOIN (R198): an enabled channel sees 11 recessive bits. -/
def execCanBusJoin (c : Fin 32) : State → Host.Outcome State Fault Refusal := onDevL fun d =>
  let c := c.val
  let x := d.can c
  if x.state == .disabled && d.on (canPage c) Reg.PG_CTRL.EN && !d.canBad c && !d.pwr.silent then
    d.setCan c { x with state := .active, tec := 0, rec_ := 0 }
  else d

end Sys2Proof.Machine
end

