-- ==== Sys2Proof/Machine/Lin.lean ====
section
/-! DEFINITION. LIN channels (R173 to R179). -/

namespace Sys2Proof.Machine

open Sys2Proof

/-! ### Entries and bytes -/

/-- R174: a frame entry. -/
structure LinEntry where
  fid     : Nat
  type    : Nat
  enh     : Bool
  dlen    : Nat
  valid   : Bool
  slotMs  : Nat
  resolve : Nat
  last    : Bool
  deriving DecidableEq, Repr

/-- R174: entry `k` of channel `l`. -/
def Dev.linEntry (d : Dev) (l k : Nat) : LinEntry :=
  let lo := d.rd (linPage l) Reg.LIN_FRM_D0.LO k
  let hi := d.rd (linPage l) Reg.LIN_FRM_D0.HI k
  ⟨lo % 64, lo / 64 % 8, bitAt lo 9, lo / 1024 % 8 + 1, bitAt hi 0, hi / 2 % 256, hi / 512 % 64, bitAt hi 15⟩

def Dev.linCommander (d : Dev) (l : Nat) : Bool := d.on (linPage l) Reg.LIN_CTRL.ROLE
def Dev.linOn (d : Dev) (l : Nat) : Bool := d.on (linPage l) Reg.PG_CTRL.EN && !d.pwr.silent

/-- R174: entry `k` publishes: TYPE 0b000, 0b011 and 0b100 on a commander, 0b000 on a responder. -/
def Dev.linPublishes (d : Dev) (l : Nat) (e : LinEntry) : Bool :=
  e.valid && (e.type == 0 || (d.linCommander l && (e.type == 3 || e.type == 4)))

/-- R174: entry `k` receives. -/
def Dev.linReceives (d : Dev) (l : Nat) (e : LinEntry) : Bool :=
  e.valid && (e.type == 1 || (d.linCommander l && (e.type == 2 || e.type == 5)))

/-- The protected identifier of a frame identifier (ISO 17987). -/
def linPid (fid : Nat) : Byte :=
  let b := fun k => bitAt fid k
  let p0 := xor (xor (b 0) (b 1)) (xor (b 2) (b 4))
  let p1 := !(xor (xor (b 1) (b 3)) (xor (b 4) (b 5)))
  BitVec.ofNat 8 (fid % 64 + 64 * b2n p0 + 128 * b2n p1)

/-- The inverted sum with carry of ISO 17987. -/
def linSum (bytes : List Byte) : Byte :=
  let s := bytes.foldl (fun acc b => let v := acc + b.toNat; if 256 ≤ v then v - 255 else v) 0
  BitVec.ofNat 8 (255 - s)

/-- R174: the checksum of a frame: enhanced covers the PID; frames 60 and 61 use classic. -/
def linCheck (e : LinEntry) (pid : Byte) (bytes : List Byte) : Byte :=
  if e.enh && e.fid != 60 && e.fid != 61 then linSum (pid :: bytes) else linSum bytes

def Dev.linBuf (d : Dev) (l fid : Nat) : LinBuf := SMap.get (fun _ => .reset) (d.lin l).bufs fid
def Dev.setLinBuf (d : Dev) (l fid : Nat) (b : LinBuf) : Dev :=
  d.setLin l { d.lin l with bufs := SMap.put (fun _ => .reset) (d.lin l).bufs fid b }

/-! ### Publishing (R177, R178, R372) -/

/-- The first VALID entry of channel `l` that satisfies `f`. -/
def Dev.linFind (d : Dev) (l : Nat) (f : LinEntry → Bool) : Option LinEntry :=
  ((List.range 64).map fun k => d.linEntry l k).find? f

/-- R177, R178, R240: channel `l` takes its next sentence into a publish buffer. -/
def Dev.linTake (d : Dev) (l : Nat) : Dev :=
  let set := 0x40 + l
  match d.linOn l, d.nextOf set with
  | true, some y =>
    d.chosen y.1 y.2 fun d =>
      let body := y.2.body
      let fid := (listGet 0 body 0).toNat % 64
      match d.linFind l fun e => d.linPublishes l e && e.fid == fid with
      | none => d.copyFails y.1 0x09 (d.placeOf set)
      | some e =>
        if body.length ≠ e.dlen + 2 then d.copyFails y.1 0x11 (d.placeOf set)
        else
          let b := d.linBuf l fid
          let d := if b.fresh then d.bump (linPage l) Reg.LIN.LIN_OVERWRITE else d
          let src := match y.2.org with | .host _ _ _ _ _ _ => none | _ => some (y.1.sid, y.2.shb)
          (d.setLinBuf l fid ⟨(body.drop 1).take e.dlen, true, true, src⟩).deliver y.1
  | _, _ => d

/-- R372, R376: the egress time of the sentence whose data a slot sends, at the end of the break delimiter of its header. -/
def Dev.linTime (d : Dev) (l : Nat) (b : LinBuf) (time : BitVec 64) : Dev :=
  match b.src with
  | none => d
  | some (sid, h) =>
    if d.capNames (0x40 + l) h.talker then
      let r := d.capture (tsqWords (0x40 + l) 0 0 15 h.talker.toNat h.seq.toNat 0 time)
      if r.1 then r.2
      else
        let d := if (match d.sen sid with | some s => s.shb.seq == h.seq && s.shb.talker == h.talker | none => false) then
          r.2.tsLost sid else r.2
        d.lossRecord { h with flags := h.flags ||| flagTsLost } 0x10 (0x40 + l) 0 0 []
    else d

/-- R177: send the data of frame `e`; the break delimiter of its header ends at moment `m`. -/
def Dev.linSend (d : Dev) (l : Nat) (e : LinEntry) (m : Nat) : Dev :=
  let b := d.linBuf l e.fid
  let pid := linPid e.fid
  let d := if b.fresh then d.linTime l b (stampOf (d.wall m)) else d
  (d.setLinBuf l e.fid { b with fresh := false, src := none }).emitWire (.lin l pid (b.data ++ [linCheck e pid b.data]))

/-- R173: `n` bits of channel `l`. -/
def Dev.linBits (d : Dev) (l n : Nat) : Nat := n * 16000000000 / d.rd (linPage l) Reg.LIN_BAUD.BAUD

/-- R173, R175, R372: when the break delimiter of a header ends whose slot starts now: a break of 13 bits and a delimiter of one
(PRESUMED, notes/assumptions/25.md) follow a start within one bit of the slot's, which is not stated (notes/assumptions/1.md). -/
def Dev.linHeaderEnd (d : Dev) (l : Nat) : Nat := d.now + d.linBits l 14 + d.freeBits.toNat % (d.linBits l 1 + 1)

/-! ### The schedule (R175 to R177) -/

/-- R175: the entry after `k` in the cycle. -/
def after (r : Nat × Nat) (k : Nat) : Nat := if k = r.2 then r.1 else (k + 1) % 64

/-- R175, R176: the entry of the slot that starts now, the schedule, and the collision list that still runs. -/
def Dev.linNext (d : Dev) (l : Nat) : Nat × (Nat × Nat) × Option Nat :=
  let x := d.lin l
  let regs := (d.rd (linPage l) Reg.LIN_SCHED.START, d.rd (linPage l) Reg.LIN_SCHED.END)
  match x.switch, x.slot with
  | some r, _ => (r.1, r, none)
  | none, none => (regs.1, regs, none)
  | none, some k =>
    let r := x.range.getD regs
    match x.coll with
    | none => (after r k, r, none)
    | some e =>
      if k = e then ((d.linEntry l e).resolve, r, some e)
      else if (d.linEntry l k).last then (after r e, r, none) else ((k + 1) % 64, r, some e)

/-- R174, R175, R177: what entry `k` makes of its slot. -/
def Dev.linSlot (d : Dev) (l k : Nat) : Dev :=
  let e := d.linEntry l k
  let b := d.linBuf l e.fid
  if d.linPublishes l e then
    if b.ever then (if e.type = 3 ∧ b.fresh = false then d else d.drawn.linSend l e (d.linHeaderEnd l))
    else d.bump (linPage l) Reg.LIN.LIN_SKIPPED
  else if d.linReceives l e then
    (d.setLin l { d.lin l with wait := some (linPid e.fid) }).emitWire (.lin l (linPid e.fid) [])
  else d

/-- LIN_SLOT_START (R175): the next slot of a commander starts. -/
def execLinSlotStart (l : Fin 16) : State → Host.Outcome State Fault Refusal := onDevL fun d =>
  let l := l.val
  if !d.linOn l || !d.linCommander l || !d.on (linPage l) Reg.LIN_CTRL.RUN || d.shut then d
  else
    let x := d.lin l
    let d := if x.slot.isSome then d.reach x.next else d
    let n := d.linNext l
    let e := d.linEntry l n.1
    let d := if x.switch.isSome then d.raise (linPage l) 18 else d
    let d := d.setLin l { x with
      slot := some n.1, range := some n.2.1, coll := n.2.2, switch := none, wait := none,
      next := d.now + e.slotMs * Config.perMs }
    d.linSlot l n.1

/-- R175: a write of LIN_SCHED with SWITCH: the new schedule waits for the end of the current slot. -/
def Dev.linSwitch (d : Dev) (l start stop : Nat) : Dev :=
  let d := (d.wr (linPage l) Reg.LIN_SCHED.START start).wr (linPage l) Reg.LIN_SCHED.END stop
  if (d.lin l).slot.isSome then d.setLin l { d.lin l with switch := some (start, stop) } else d

/-- SCHED_SWITCH (R175). -/
def execSchedSwitch (via : Via) (l : Fin 16) (start stop : BitVec 6) : State → Host.Outcome State Fault Refusal :=
  onBus (.schedSwitch l start stop) via (linPage l.val) fun d =>
    d.unlocked (linPage l.val) fun d => d.linSwitch l.val start.toNat stop.toNat

/-- R177: RUN is cleared: the schedule ends. -/
def Dev.linStop (d : Dev) (l : Nat) : Dev :=
  d.setLin l { d.lin l with slot := none, coll := none, switch := none, range := none, wait := none }

/-- R177: the channel is disabled: its publish buffers count as never written. -/
def Dev.linOff (d : Dev) (l : Nat) : Dev := (d.setLin l .reset).failSet (0x40 + l) 0x02

/-! ### Responses (R173, R176, R179) -/

/-- LIN_HEADER_RECEIVED (R173): a responder sees a header whose break delimiter ended `age` ago; one whose sync field lies outside
±15 % is ignored. The header of a published frame whose buffer was never written gets no response, and counts in LIN_SKIPPED as a
commander's slot does (R177; DESIGN CHOICE, notes/assumptions/55.md). -/
def execLinHeaderReceived (l : Fin 16) (head : LinHead) (age : Nat) : State → Host.Outcome State Fault Refusal :=
  onDevL fun d =>
    let l := l.val
    let pid := head.pid
    if !d.linOn l || d.linCommander l || !head.syncOk || d.shut then d
    else
      let fid := pid.toNat % 64
      if pid ≠ linPid fid then d.setLin l { d.lin l with wait := some pid }
      else match d.linFind l fun e => e.fid == fid && (d.linPublishes l e || d.linReceives l e) with
        | none => d.setLin l { d.lin l with wait := none }
        | some e =>
          if e.type = 0 then
            if (d.linBuf l fid).ever then d.linSend l e (d.now - age) else d.bump (linPage l) Reg.LIN.LIN_SKIPPED
          else d.setLin l { d.lin l with wait := some pid }

/-- R174: the entry that an awaited response belongs to: its index and contents. -/
def Dev.linAwaited (d : Dev) (l : Nat) (pid : Byte) : Option (Nat × LinEntry) :=
  if d.linCommander l then (d.lin l).slot.map fun k => (k, d.linEntry l k)
  else ((List.range 64).find? fun k => (d.linEntry l k).fid == pid.toNat % 64 && d.linReceives l (d.linEntry l k)).map
    fun k => (k, d.linEntry l k)

/-- R176, R179: a response in error; on an event-triggered entry the commander runs the collision list. -/
def Dev.linBad (d : Dev) (l : Nat) (a : Option (Nat × LinEntry)) : Dev :=
  let d := (d.bump (linPage l) Reg.LIN.CK_ERR).raise (linPage l) 16
  match a with
  | some (k, e) => if d.linCommander l && e.type == 2 && (d.lin l).coll.isNone then d.setLin l { d.lin l with coll := some k } else d
  | none => d

/-- LIN_RESPONSE_RECEIVED (R179): `bytes` are the data bytes and the checksum byte; the break delimiter of the header ended
`age` ago. -/
def execLinResponseReceived (l : Fin 16) (age : Nat) (bytes : List Byte) (framingOk : Bool) :
    State → Host.Outcome State Fault Refusal := onDevL fun d =>
  let l := l.val
  match (d.lin l).wait with
  | none => d
  | some pid =>
    let a := d.linAwaited l pid
    let d := d.setLin l { d.lin l with wait := none }
    if !framingOk || pid != linPid (pid.toNat % 64) then d.linBad l a
    else match a with
      | none => d
      | some (k, e) =>
        let data := bytes.take e.dlen
        if bytes.length ≠ e.dlen + 1 ∨ listGet 0 bytes e.dlen ≠ linCheck e pid data then d.linBad l a
        else
          d.capturedItem (0x40 + l) (BitVec.ofNat 14 (d.rd (linPage l) Reg.LIN_FRM_D1.TALKER k))
            (BitVec.ofNat 3 (d.rd (linPage l) Reg.LIN_FRM_D1.CLASS k)) (pid :: bytes) (d.ago age)

/-- NO_RESP (R179). -/
def execNoResp (l : Fin 16) : State → Host.Outcome State Fault Refusal := onDevL fun d =>
  let l := l.val
  match (d.lin l).wait with
  | none => d
  | some _ => ((d.setLin l { d.lin l with wait := none }).bump (linPage l) Reg.LIN.NO_RESP).raise (linPage l) 17

end Sys2Proof.Machine
end

