-- ==== Sys2Proof/Machine/Uart.lean ====
section
/-! DEFINITION. Sentence UARTs (R180 to R186). -/

namespace Sys2Proof.Machine

open Sys2Proof

/-! ### NMEA items (R182, R183) -/

def hexVal (b : Byte) : Option Nat :=
  let n := b.toNat
  if 0x30 ≤ n ∧ n ≤ 0x39 then some (n - 0x30)
  else if 0x41 ≤ n ∧ n ≤ 0x46 then some (n - 0x37)
  else if 0x61 ≤ n ∧ n ≤ 0x66 then some (n - 0x57) else none

def hexDigit (n : Nat) : Byte := BitVec.ofNat 8 (if n < 10 then 0x30 + n else 0x37 + n)

def xorAll (bs : List Byte) : Byte := bs.foldl (fun a b => a ^^^ b) 0

def star : Byte := 0x2A

/-- What stands before the last '*' and behind it. -/
def splitStar (bs : List Byte) : Option (List Byte × List Byte) :=
  if bs.contains star then
    let back := bs.reverse.takeWhile (· != star)
    some (bs.take (bs.length - back.length - 1), back.reverse)
  else none

/-- R182: the checksum of an item holds. -/
def nmeaOk (req : Bool) (chars : List Byte) : Bool :=
  match splitStar chars with
  | none => !req
  | some (before, [a, b]) =>
    (match hexVal a, hexVal b with
     | some x, some y => (xorAll (before.drop 1)).toNat == 16 * x + y
     | _, _ => false)
  | some _ => false

/-- R183: the first five characters of the address field, padded with zero. -/
def nmeaAddr (chars : List Byte) : List Byte :=
  let f := (chars.drop 1).takeWhile fun b => b != 0x2C && b != star
  (f ++ List.replicate 5 0).take 5

/-- R183: address entry `k` matches. -/
def Dev.uarHits (d : Dev) (u k : Nat) (addr : List Byte) : Bool :=
  let p := uarPage u
  let c := d.rd p Reg.UAR_ADR_D0.CHARS k
  let lo := d.rd p Reg.UAR_ADR_D1.LO k
  let pat := (List.range 4).map (fun i => c / 256 ^ i % 256) ++ [lo % 256]
  bitAt lo 8 && (List.range 5).all fun i =>
    listGet 0 pat i == 0x3F || listGet 0 pat i == (listGet 0 addr i).toNat

/-- R183, R184: TALKER, CLASS and DISCARD of an item. -/
def Dev.uarResult (d : Dev) (u : Nat) (chars : List Byte) : Nat × Nat × Bool :=
  let p := uarPage u
  let hit := if d.rd p Reg.UAR_CFG.MODE = 0 then (List.range 32).find? fun k => d.uarHits u k (nmeaAddr chars) else none
  match hit with
  | some k => let lo := d.rd p Reg.UAR_ADR_D1.LO k
              (d.rd p Reg.UAR_ADR_D1.TALKER k, lo / 1024 % 8, bitAt lo 9)
  | none => (d.rd p Reg.UAR_DEFAULT.TALKER, d.rd p Reg.UAR_DEFAULT.CLASS, d.on p Reg.UAR_DEFAULT.DISCARD)

/-! ### Reception (R180, R181, R184, R185) -/

/-- R199: 7E1 has seven data bits. -/
def Dev.uarSeven (d : Dev) (u : Nat) : Bool := d.rd (uarPage u) Reg.UAR_CFG.FORMAT == 3

/-- R180, R199: the bits of a character that the format carries. -/
def Dev.uarData (d : Dev) (u : Nat) (ch : Byte) : Byte := if d.uarSeven u then ch &&& 0x7F else ch

/-- R199: the number of stop bits. -/
def Dev.uarStops (d : Dev) (u : Nat) : Nat := 1 + b2n (d.on (uarPage u) Reg.UAR_CFG.STOP2)

/-- R180, R199: how long `n` characters last: a start bit, the data bits, a parity bit in the formats with one, the stop bits. -/
def Dev.uarTime (d : Dev) (u n : Nat) : Nat :=
  let p := uarPage u
  let bits := 1 + (if d.uarSeven u then 7 else 8) + (if d.rd p Reg.UAR_CFG.FORMAT = 0 then 0 else 1) + d.uarStops u
  n * bits * (16 * d.rd p Reg.UAR_BAUD.INT + d.rd p Reg.UAR_BAUD.FRAC) * 1000 / 3

def Dev.uarOn (d : Dev) (u : Nat) : Bool := d.on (uarPage u) Reg.PG_CTRL.EN && !d.pwr.silent

/-- The item in progress is discarded and counted. -/
def Dev.uarDrop (d : Dev) (u : Nat) (f : Fld) : Dev :=
  (d.setUart u { d.uart u with open_ := false, chars := [], cr := false }).bump (uarPage u) f

/-- R185: characters in the receive FIFO: of the items that the NRM has not accepted, and of the one in progress. -/
def Dev.uarFill (d : Dev) (u : Nat) : Nat :=
  let mine := fun (o : Origin) => o == .bus (0x50 + u)
  sumOf (fun i => if mine i.org then i.body.length else 0) d.nrm.items +
  sumOf (fun e => if e.2.waits.isSome && mine e.2.org then e.2.body.length else 0) d.swc.sens +
  (d.uart u).chars.length + b2n (d.uart u).cr

/-- R181 to R184: the item in progress is captured. -/
def Dev.uarCapture (d : Dev) (u : Nat) : Dev :=
  let p := uarPage u
  let x := d.uart u
  if d.rd p Reg.UAR_CFG.MODE = 0 ∧ nmeaOk (d.on p Reg.UAR_NMEA.CK_REQ) x.chars = false then
    (d.uarDrop u Reg.UAR.RX_CK_ERR).raise p 16
  else
    let r := d.uarResult u x.chars
    if r.2.2 then d.uarDrop u Reg.UAR.RX_FILTERED
    else (d.uarDrop u Reg.UAR.RX_SENT).capturedItem (0x50 + u) (BitVec.ofNat 14 r.1) (BitVec.ofNat 3 r.2.1) x.chars x.time

/-- R181, R184: an item begins with a character. -/
def Dev.uarBegin (d : Dev) (u : Nat) (ch : Byte) (time : BitVec 64) : Dev :=
  d.setUart u { d.uart u with open_ := true, chars := [ch], cr := false, time := time }

def Dev.uarAdd (d : Dev) (u : Nat) (ch : Byte) : Dev := d.setUart u { d.uart u with chars := (d.uart u).chars ++ [ch] }

def Dev.uarMax (d : Dev) (u : Nat) : Nat := d.rd (uarPage u) Reg.UAR_CFG.MAXLEN

/-- R181: a '$' or '!' is a start delimiter. -/
def isDelim (ch : Byte) : Bool := ch == 0x24 || ch == 0x21

/-- R181: a character in NMEA mode. A start delimiter behind the CR of an item meets two bullets of the rule: it counts in
RX_RESTART and starts a new item (DESIGN CHOICE, notes/assumptions/55.md). -/
def Dev.nmeaChar (d : Dev) (u : Nat) (ch : Byte) (time : BitVec 64) : Dev :=
  let x := d.uart u
  let start := isDelim ch
  if !x.open_ then (if start then d.uarBegin u ch time else d)
  else if start then (d.uarDrop u Reg.UAR.RX_RESTART).uarBegin u ch time
  else if d.uarMax u < x.chars.length + b2n x.cr + 1 then d.uarDrop u Reg.UAR.RX_TOOLONG
  else if x.cr then (if ch = 0x0A then d.uarCapture u else d.uarDrop u Reg.UAR.RX_BADCHAR)
  else if ch = 0x0D then d.setUart u { x with cr := true }
  else if ch.toNat < 0x20 ∨ 0x7E < ch.toNat then d.uarDrop u Reg.UAR.RX_BADCHAR
  else d.uarAdd u ch

/-- R184: an END byte. -/
def Dev.genericEnd (d : Dev) (u : Nat) (ch : Byte) : Bool :=
  d.on (uarPage u) Reg.UAR_GEN.END_EN && ch.toNat == d.rd (uarPage u) Reg.UAR_GEN.END

/-- R184: a character that begins an item when none is in progress. -/
def Dev.genericStart (d : Dev) (u : Nat) (ch : Byte) : Bool :=
  if d.on (uarPage u) Reg.UAR_GEN.START_EN then ch.toNat == d.rd (uarPage u) Reg.UAR_GEN.START else !d.genericEnd u ch

/-- R184: a character in generic mode. An END byte with no item in progress is no item (notes/assumptions/44.md). -/
def Dev.genericChar (d : Dev) (u : Nat) (ch : Byte) (time : BitVec 64) : Dev :=
  let x := d.uart u
  let isEnd := d.genericEnd u ch
  let starts := d.genericStart u ch
  if !x.open_ && !starts then d
  else if x.open_ && isEnd then d.uarCapture u
  else
    let d := if x.open_ then d.uarAdd u ch else d.uarBegin u ch time
    if d.uarMax u ≤ (d.uart u).chars.length then d.uarDrop u Reg.UAR.RX_TOOLONG else d

/-- R181, R184: a character begins an item when none is in progress. A reserved MODE has no items (DESIGN CHOICE,
notes/assumptions/55.md). -/
def Dev.uarBegins (d : Dev) (u : Nat) (ch : Byte) : Bool :=
  match d.rd (uarPage u) Reg.UAR_CFG.MODE with
  | 0 => isDelim ch
  | 1 => d.genericStart u ch
  | _ => false

/-- R158, R185: the receive FIFO has no room for a character: the item in progress, or the one that the character would begin, is
lost. -/
def Dev.uarOverrun (d : Dev) (u : Nat) (ch : Byte) : Dev :=
  if (d.uart u).open_ || d.uarBegins u ch then (d.uarDrop u Reg.UAR.RX_OVERRUN).raise (uarPage u) 17 else d

/-- UART_CHAR_RECEIVED (R181): a character whose start bit came `age` ago; `ok` says that its framing and parity are right. Under a
reserved MODE nothing is received (DESIGN CHOICE, notes/assumptions/55.md). -/
def execUartCharReceived (u : Fin 8) (age : Nat) (ch : Byte) (ok : Bool) : State → Host.Outcome State Fault Refusal :=
  onDevL fun d =>
    let u := u.val
    let ch := d.uarData u ch
    if !d.uarOn u || (d.shut && !(d.uart u).open_) then d
    else if !ok then (if (d.uart u).open_ then d.uarDrop u Reg.UAR.RX_BADCHAR else d)
    else if 2048 ≤ d.uarFill u then d.uarOverrun u ch
    else match d.rd (uarPage u) Reg.UAR_CFG.MODE with
      | 0 => d.nmeaChar u ch (d.ago age)
      | 1 => d.genericChar u ch (d.ago age)
      | _ => d

/-- UART_IDLE (R184): the line was silent for IDLE character times. -/
def execUartIdle (u : Fin 8) : State → Host.Outcome State Fault Refusal := onDevL fun d =>
  let u := u.val
  let p := uarPage u
  if d.uarOn u && d.rd p Reg.UAR_CFG.MODE == 1 && d.rd p Reg.UAR_GEN.IDLE != 0 && (d.uart u).open_ then d.uarCapture u else d

/-! ### Transmission (R186) -/

/-- R186: the characters that the UART sends for a payload, in its format. In format 7E1 a byte is sent without its bit 7, but TX_CK
covers the bytes of the payload as they are; under a reserved MODE the payload is sent as it is (DESIGN CHOICE, both,
notes/assumptions/55.md). -/
def Dev.uarBytes (d : Dev) (u : Nat) (body : List Byte) : List Byte :=
  let p := uarPage u
  List.map (d.uarData u) <| match d.rd p Reg.UAR_CFG.MODE with
  | 0 =>
    let k := (xorAll (body.drop 1)).toNat
    body ++ (if d.on p Reg.UAR_NMEA.TX_CK then [star, hexDigit (k / 16), hexDigit (k % 16)] else []) ++ [0x0D, 0x0A]
  | 1 => body ++ (if d.on p Reg.UAR_GEN.END_EN then [BitVec.ofNat 8 (d.rd p Reg.UAR_GEN.END)] else [])
  | _ => body

/-- R186, R240: the UART takes its next sentence and starts to send it. -/
def Dev.uarTake (d : Dev) (u : Nat) : Dev :=
  match d.uarOn u && (d.uart u).tx.isNone, d.nextOf (0x50 + u) with
  | true, some y =>
    d.chosen y.1 y.2 fun d =>
      let b := d.uarBytes u y.2.body
      ((d.toMedium y.1).setUart u { d.uart u with
        tx := some (y.1.sid, y.1.role.member?, stampOf d.wclk, d.now + d.uarTime u b.length) }).emitWire
          (.uart u (d.rd (uarPage u) Reg.UAR_CFG.FORMAT) (d.uarStops u) b)
  | _, _ => d

/-- UART_TX_DONE (R186): the last stop bit is sent. -/
def execUartTxDone (u : Fin 8) : State → Host.Outcome State Fault Refusal := onDevL fun d =>
  let u := u.val
  match (d.uart u).tx with
  | none => d
  | some (sid, m, t, stop) =>
    (((d.reach stop).setUart u { d.uart u with tx := none }).bump (uarPage u) Reg.UAR.TX_SENT).sentAt (0x50 + u) sid m t

/-- The UART is disabled: what it holds fails with LINK_DOWN. -/
def Dev.uarOff (d : Dev) (u : Nat) : Dev := (d.setUart u .reset).failSet (0x50 + u) 0x02

end Sys2Proof.Machine
end

