-- ==== Sys2Proof/Machine/Poll.lean ====
section
/-! DEFINITION. SPI and I²C poll schedules (R187 to R192) and side-band lines (R193 to R195). -/

namespace Sys2Proof.Machine

open Sys2Proof

/-! ### Polls (R187 to R191) -/

/-- SP0 to SP3 are buses 0 to 3, IC0 to IC3 buses 4 to 7. -/
def isSpi (b : Nat) : Bool := Nat.ble b 3

def Dev.pollRun (d : Dev) (b : Nat) : Bool :=
  if isSpi b then d.on (pollPage b) Reg.SPI_CFG.RUN else d.on (pollPage b) Reg.I2C_CFG.RUN

def Dev.pollOn (d : Dev) (b : Nat) : Bool := d.on (pollPage b) Reg.PG_CTRL.EN && !d.pwr.silent

def Dev.poll (d : Dev) (b k : Nat) : PollSt := SMap.get (fun _ => .reset) (d.bus b).polls k
def Dev.setPoll (d : Dev) (b k : Nat) (x : PollSt) : Dev :=
  d.setBus b { d.bus b with polls := SMap.put (fun _ => .reset) (d.bus b).polls k x }

/-- R188: when entry `k` comes due for the `n`-th time, counted from 0. -/
def Dev.dueAt (d : Dev) (b k n : Nat) : Nat :=
  (d.bus b).runAt.getD 0 + (d.rd (pollPage b) Reg.POLL_D2.PHASE k + n * d.rd (pollPage b) Reg.POLL_D2.PERIOD k) *
    (10 * Config.perUs)

/-- R189: the command or register address bytes of entry `k`. -/
def Dev.cmdBytes (d : Dev) (b k : Nat) : List Byte :=
  (dwordBytes [d.rd (pollPage b) Reg.POLL_D3.CMD k, d.rd (pollPage b) Reg.POLL_D4.CMD k]).take
    (d.rd (pollPage b) Reg.POLL_D1.CMD_LEN k)

/-- R189: what the controller drives when a poll starts: for SPI the chip select, the command bytes and RD_LEN zeros; for I²C the
address and register bytes, if any, and the address of the part that reads. -/
def Dev.pollOut (d : Dev) (b k : Nat) : List BusSym :=
  let p := pollPage b
  if isSpi b then
    let m := d.rd p Reg.POLL_D1.CSMODE k
    .select (m % 4) (m / 4) :: (d.cmdBytes b k ++ List.replicate (d.rd p Reg.POLL_D1.RD_LEN k) 0).map .byte
  else
    let a := d.rd p Reg.POLL_D1.ADDR k
    (if d.rd p Reg.POLL_D1.CMD_LEN k = 0 then [] else .start :: (BitVec.ofNat 8 (2 * a) :: d.cmdBytes b k).map .byte) ++
      [.start, .byte (BitVec.ofNat 8 (2 * a + 1))]

/-- R189: what it drives until the poll ends: the release of the chip select; an ACK on every byte read but the last, and STOP. -/
def Dev.pollTail (d : Dev) (b k : Nat) : List BusSym :=
  if isSpi b then [.release]
  else List.replicate (d.rd (pollPage b) Reg.POLL_D1.RD_LEN k - 1) (.ack true) ++ [.ack false, .stop]

/-- R189: poll `k` starts. -/
def Dev.pollStart (d : Dev) (b k : Nat) : Dev :=
  let d := d.setPoll b k { d.poll b k with due := false }
  (d.setBus b { d.bus b with job := some (.poll k) }).emitWire (.bus b (d.pollOut b k))

/-- R188: of the polls that wait, the one due first; the lowest entry of those due at once. -/
def Dev.pollNext (d : Dev) (b : Nat) : Option Nat :=
  (List.range 32).foldl (fun best k =>
    if (d.poll b k).due then
      match best with
      | none => some k
      | some j => if d.dueAt b k ((d.poll b k).count - 1) < d.dueAt b j ((d.poll b j).count - 1) then some k else some j
    else best) none

/-- R188: entry `k` is in use. -/
def Dev.pollValid (d : Dev) (b k : Nat) : Bool :=
  d.on (pollPage b) Reg.POLL_D0.VALID k && d.rd (pollPage b) Reg.POLL_D2.PERIOD k != 0

/-- R188: a lower entry comes due at the same instant as entry `k`, which waits, and has not yet been taken up. -/
def Dev.pollYields (d : Dev) (b k : Nat) : Bool :=
  (List.range k).any fun j => d.pollValid b j && d.dueAt b j (d.poll b j).count == d.dueAt b k ((d.poll b k).count - 1)

/-- R188: a poll that waits starts on an idle bus. -/
def Dev.pollKick (d : Dev) (b : Nat) : Dev :=
  if (d.bus b).job.isSome then d
  else match d.pollNext b with
  | some k => if d.pollYields b k then d else d.pollStart b k
  | none => d

/-- R188: the bus is free: a poll that waits starts. -/
def Dev.busFree (d : Dev) (b : Nat) : Dev := (d.setBus b { d.bus b with job := none }).pollKick b

/-- R188, R190: a poll is skipped. -/
def Dev.pollSkipped (d : Dev) (b : Nat) : Dev := (d.bump (pollPage b) Reg.POLL.POLL_OVERRUN).raise (pollPage b) 16

/-- POLL_DUE (R188): entry `k` comes due. -/
def execPollDue (b : Fin 8) (k : Fin 32) : State → Host.Outcome State Fault Refusal := onDevL fun d =>
  let b := b.val
  let k := k.val
  if !d.pollOn b || d.shut || !d.pollRun b || (d.bus b).runAt.isNone || !d.pollValid b k then d
  else
    let x := d.poll b k
    let d := d.reach (d.dueAt b k x.count)
    if x.item != 0 && d.heldItem x.item then ((d.setPoll b k { x with count := x.count + 1 }).pollSkipped b).pollKick b
    else
      let d := if x.due then d.pollSkipped b else d
      (d.setPoll b k { x with count := x.count + 1, due := true }).pollKick b

/-- R191: a poll whose data did not change makes no sentence, but for the REFRESH-th in a row. -/
def Dev.pollEmits (d : Dev) (b k : Nat) (data : List Byte) : Bool :=
  let x := d.poll b k
  let refresh := d.rd (pollPage b) Reg.POLL_D1.REFRESH k
  !d.on (pollPage b) Reg.POLL_D0.CHG_ONLY k || x.last != some data || (refresh != 0 && decide (refresh ≤ x.since + 1))

/-- POLL_CAPTURED (R190): the poll under way has read `bytes`. -/
def execPollCaptured (b : Fin 8) (bytes : List Byte) : State → Host.Outcome State Fault Refusal := onDevL fun d =>
  let b := b.val
  let p := pollPage b
  match (d.bus b).job with
  | some (.poll k) =>
    let data := bytes.take (d.rd p Reg.POLL_D1.RD_LEN k)
    let x := d.poll b k
    let d := (d.bump p Reg.POLL.POLLS_OK).emitWire (.bus b (d.pollTail b k))
    let d :=
      if d.pollEmits b k data then
        (d.setPoll b k { x with last := some data, since := 0, item := d.nrm.nextFid }).capturedItem (0x58 + b)
          (BitVec.ofNat 14 (d.rd p Reg.POLL_D0.TALKER k)) (BitVec.ofNat 3 (d.rd p Reg.POLL_D0.CLASS k)) data (stampOf d.wclk)
      else d.setPoll b k { x with since := x.since + 1 }
    d.busFree b
  | _ => d

/-! ### Writes (R192) -/

/-- R192: what the controller drives for a sentence. CPOL and CPHA of an SPI write are not stated (notes/assumptions/1.md). -/
def Dev.writeOut (d : Dev) (b : Nat) (body : List Byte) : List BusSym :=
  let x := (listGet 0 body 0).toNat
  if isSpi b then .select (x % 4) (d.freeBits.toNat % 4) :: (body.drop 1).map .byte
  else .start :: (BitVec.ofNat 8 (2 * (x % 128)) :: body.drop 1).map .byte

/-- R192: the end of a write on the bus. -/
def writeTail (b : Nat) : List BusSym := if isSpi b then [.release] else [.stop]

/-- R192: the write `j` of a payload starts. -/
def Dev.writeStart (d : Dev) (b : Nat) (j : BusJob) (body : List Byte) : Dev :=
  (d.drawn.setBus b { d.bus b with job := some j, again := none }).emitWire (.bus b (d.writeOut b body))

/-- R192: a write starts between polls; one that met a NACK goes before a new one. -/
def Dev.busWrite (d : Dev) (b : Nat) : Dev :=
  if !d.pollOn b || (d.bus b).job.isSome || (d.pollNext b).isSome then d
  else match (d.bus b).again with
    | some (.write sid m tries) =>
      (match d.sen sid with
       | some s => d.writeStart b (.write sid m tries) s.body
       | none => d.setBus b { d.bus b with again := none })
    | _ =>
      match d.nextOf (0x58 + b) with
      | none => d
      | some y =>
        d.chosen y.1 y.2 fun d => (d.toMedium y.1).writeStart b (.write y.1.sid y.1.role.member? 0) y.2.body

/-- BUS_WRITE_START (R192). -/
def execBusWriteStart (b : Fin 8) : State → Host.Outcome State Fault Refusal := onDevL fun d => d.busWrite b.val

/-- R190, R192: the transaction of controller `b` ends with `syms` on its bus, which is then free. -/
def Dev.busEnds (d : Dev) (b : Nat) (syms : List BusSym) : Dev := (d.emitWire (.bus b syms)).busFree b

/-- BUS_WRITE_DONE (R192). -/
def execBusWriteDone (b : Fin 8) : State → Host.Outcome State Fault Refusal := onDevL fun d =>
  match (d.bus b.val).job with
  | some (.write sid m _) => (d.sentAt (0x58 + b.val) sid m (stampOf d.wclk)).busEnds b.val (writeTail b.val)
  | _ => d

/-- NACK (R190, R192): an I²C poll ends without a sentence; a write is tried twice more. A STOP frees the bus (PRESUMED,
notes/assumptions/45.md). -/
def execNack (b : Fin 8) : State → Host.Outcome State Fault Refusal := onDevL fun d =>
  let b := b.val
  if isSpi b then d
  else match (d.bus b).job with
  | some (.poll _) => ((d.bump (pollPage b) Reg.POLL.NACK).raise (pollPage b) 17).busEnds b [.stop]
  | some (.write sid m tries) =>
    if 2 ≤ tries then (d.failsAt (0x58 + b) sid m 0x08).busEnds b [.stop]
    else (d.setBus b { d.bus b with again := some (.write sid m (tries + 1)) }).busEnds b [.stop]
  | none => d

/-- I2C_TIMEOUT (R190): the clock was stretched for longer than STRETCH_MS: nine clocks and a STOP follow. A write then fails
(notes/assumptions/45.md). -/
def execI2cTimeout (b : Fin 8) : State → Host.Outcome State Fault Refusal := onDevL fun d =>
  let b := b.val
  if isSpi b then d
  else match (d.bus b).job with
  | some (.poll _) => (d.bump (pollPage b) Reg.POLL.TIMEOUT).busEnds b [.clocks 9, .stop]
  | some (.write sid m _) => (d.failsAt (0x58 + b) sid m 0x08).busEnds b [.clocks 9, .stop]
  | none => d

/-- R188, R190: RUN turns to 1: every entry begins anew, but for a sentence of its that the NRM has not accepted. -/
def Dev.pollGo (d : Dev) (b : Nat) : Dev :=
  d.setBus b { d.bus b with
    runAt := some d.now
    polls := (d.bus b).polls.mapVals .reset fun x => { PollSt.reset with item := x.item } }

/-- RUN turns to 0: no further poll comes due. -/
def Dev.pollStop (d : Dev) (b : Nat) : Dev :=
  d.setBus b { d.bus b with runAt := none, polls := (d.bus b).polls.mapVals .reset fun x => { x with due := false } }

/-- The controller is disabled: what it holds fails with LINK_DOWN. -/
def Dev.pollOff (d : Dev) (b : Nat) : Dev :=
  (d.setBus b { d.bus b with job := none, again := none }).failSet (0x58 + b) 0x02

/-! ### Side-band lines (R193 to R195) -/

/-- R193: EDGE of line `i` selects a change to `level`. -/
def Dev.gpiSelects (d : Dev) (i : Nat) (level : Bool) : Bool :=
  bitAt (d.rd 0x0D0 Reg.GPI_LINE.EDGE i) (if level then 0 else 1)

/-- R194: the payload of a change. -/
def gpiBody (i : Nat) (lost level : Bool) : List Byte := [BitVec.ofNat 8 (i + 128 * b2n lost), BitVec.ofNat 8 (b2n level)]

/-- R194, R195: a reported change of line `i` is queued, or lost. -/
def Dev.gpiReport (d : Dev) (i : Nat) (level : Bool) (first : Nat) : Dev :=
  if 64 ≤ d.fbus.gpiq.length then
    let d := (d.bump 0x0D0 Reg.GPI_LOST.N).raise 0x0D0 17
    { d with fbus := { d.fbus with lost := d.fbus.lost ||| BitVec.ofNat 32 (2 ^ i) } }
  else
    let lost := bitAt d.fbus.lost.toNat i
    let d := d.raise 0x0D0 16
    let it := d.captured 0x60 (BitVec.ofNat 14 (d.rd 0x0D0 Reg.GPI_LINE.TALKER i))
      (BitVec.ofNat 3 (d.rd 0x0D0 Reg.GPI_LINE.CLASS i)) (gpiBody i lost level) (stampOf (d.wall first))
    { d.addItem it with fbus := { d.fbus with
      lost := d.fbus.lost &&& ~~~(BitVec.ofNat 32 (2 ^ i)), gpiq := d.fbus.gpiq ++ [⟨i, level, lost, it⟩] } }

def Dev.setDeb (d : Dev) (i : Nat) (x : Deb) : Dev :=
  { d with fbus := { d.fbus with debs := SMap.put (fun _ => .reset) d.fbus.debs i x } }

/-- R193: one sample of line `i`. -/
def Dev.gpiLine (d : Dev) (i : Nat) (level : Bool) : Dev :=
  let cur := d.rd 0x0D0 Reg.GPI_LEVEL.L
  if bitAt cur i == level then d.setDeb i .reset
  else
    let x := SMap.get (fun _ => Deb.reset) d.fbus.debs i
    let x : Deb := ⟨x.n + 1, if x.n = 0 then d.now else x.first⟩
    if x.n < d.rd 0x0D0 Reg.GPI_SAMPLE.DEB then d.setDeb i x
    else
      let d := (d.setDeb i .reset).wr 0x0D0 Reg.GPI_LEVEL.L (Nat.xor cur (2 ^ i))
      if d.gpiSelects i level then d.gpiReport i level x.first else d

end Sys2Proof.Machine
end

