-- ==== Sys2Proof/Machine/SlotOps.lean ====
section
/-! DEFINITION. Signal slots (R338 to R341, R350): the packed value, the fresh write, staleness, and the host's write
through GWY_SLOT_VLO and GWY_SLOT_VHI (R361). -/

namespace Sys2Proof.Machine

open Sys2Proof

/-! ### Packed values (R339, R359) -/

/-- R338: the 64-bit substitute value of slot `s` in the active bank. -/
def Dev.substitute (d : Dev) (s : Nat) : BitVec 64 :=
  let u := bitsOf (d.tab32 d.nrm.active (0x2000004 + 8 * s)) 0 13
  d.tab32 d.nrm.active (0x2100004 + 8 * u) ++ d.tab32 d.nrm.active (0x2100000 + 8 * u)

/-- R339, R360: the value that the gateway packs from slot `s`, as it stood at the start of the cycle. -/
def Dev.packed (d : Dev) (s : Nat) : BitVec 64 :=
  if !d.slotInUse d.nrm.active s then 0
  else if (d.slotSeen s).2 then (d.slotSeen s).1
  else d.substitute s

/-! ### Changes of slots (R340, R350) -/

/-- R347: the D0 and D1 of pack item `i`, modulo 16,384, in bank `b`. -/
def Dev.packItem (d : Dev) (b : BitVec 2) (i : Nat) : BitVec 32 × BitVec 32 :=
  (d.tab32 b (0x20E0000 + 8 * (i % 16384)), d.tab32 b (0x20E0004 + 8 * (i % 16384)))

/-- R346, R347: the items of list `l` in bank `b`, ascending; no list holds more than 64. -/
def Dev.listItems (d : Dev) (b : BitVec 2) (l : Nat) : List (BitVec 32 × BitVec 32) :=
  (List.range (min 64 (bitsOf (d.listHead b l 4) 16 7))).map fun i => d.packItem b (bitsOf (d.listHead b l 4) 0 14 + i)

/-- R350: an item of list `l` names slot `s`. -/
def Dev.namesSlot (d : Dev) (l s : Nat) : Bool :=
  (d.listItems d.nrm.active l).any fun it => bitsOf it.1 16 1 == 0 && bitsOf it.1 0 16 == s

/-- R350: the on-change lists that name slot `s` become dirty. -/
def Dev.markDirty (d : Dev) (s : Nat) : Dev :=
  let b := d.nrm.active
  ((d.usedIn 0x20A0000 64 4096).filter fun l => d.listSignal b l && d.listOnChange b l && d.namesSlot l s).foldl
    (fun d l => d.setPlist l { d.plist l with dirty := true }) d

/-- R540: a word that is not in the tables is rewritten: it is bad no longer. -/
def Dev.wordGood (d : Dev) (key : Nat) : Dev :=
  { d with hlt := { d.hlt with badWords := d.hlt.badWords.filter fun k => k != key } }

/-- R340, R540: a fresh write of slot `s`, whose entry is read in bank `b`. -/
def Dev.freshWrite (d : Dev) (b : BitVec 2) (s : Nat) (v : BitVec 64) : Dev :=
  if d.slotInUse b s then
    ((d.wordGood (slotKey s)).setSlot s ⟨v, true, false, some d.now, d.slotSeen s⟩).markDirty s
  else d.bump 0x048 Reg.GWY.CUT_NOSLOT

/-! ### Staleness (R341) -/

/-- Units of 62.5 ps in 10 µs. -/
abbrev per10Us : Nat := 10 * Config.perUs

/-- R338: the deadline of slot `s` in units of 10 µs; 0 for never. -/
def Dev.deadline (d : Dev) (s : Nat) : Nat :=
  let d0 := d.tab32 d.nrm.active (0x2000000 + 8 * s)
  bitsOf d0 0 16 * 10 ^ (bitsOf d0 16 2 + 1)

/-- R341: the first test, of those every 10 µs, at which a slot written at `t` has reached a deadline of `n` units. -/
def testAt (t n : Nat) : Nat := (t + n * per10Us + per10Us - 1) / per10Us * per10Us

/-- STALE (R341): slot `s` reaches its deadline. AGE saturates (R339), so a longer deadline is never reached. -/
def Dev.staleSlot (d : Dev) (s : Nat) : Dev :=
  match (d.slot s).fresh with
  | none => d
  | some t =>
    if !d.slotValid s || d.deadline s == 0 || decide (0xFFFFFF < d.deadline s) then d
    else
      let d := d.reach (testAt t (d.deadline s))
      let d := d.setSlot s { d.slot s with valid := false, stale := true }
      let d := d.bump 0x048 Reg.GWY.STALE_EVENTS
      let d := if bitsOf (d.tab32 d.nrm.active (0x2000000 + 8 * s)) 18 1 = 1 then d.raise 0x048 16 else d
      d.markDirty s

def execStale (slot : BitVec 16) : State → Host.Outcome State Fault Refusal := onDevL fun d => d.staleSlot slot.toNat

/-! ### Host writes (R361) -/

/-- R92, R361: the low half is held for the same source's next write of the high half. -/
def Dev.slotVlo (d : Dev) (via : Via) (v : BitVec 32) : Dev :=
  { d with gwy := { d.gwy with vlo := SMap.put (fun _ => 0) d.gwy.vlo (viaCode via) v } }

/-- R361: a fresh write of this value and the held low half. -/
def Dev.slotVhi (d : Dev) (via : Via) (v : BitVec 32) : Dev :=
  let lo := SMap.get (fun _ => 0) d.gwy.vlo (viaCode via)
  let d := { d with gwy := { d.gwy with vlo := SMap.put (fun _ => 0) d.gwy.vlo (viaCode via) 0 } }
  d.freshWrite d.nrm.active (d.rd 0x048 Reg.GWY_SLOT_SEL.SLOT) (v ++ lo)

/-- SLOT_VLO_WRITE (R361, R86). -/
def execSlotVloWrite (via : Via) (data : BitVec 32) : State → Host.Outcome State Fault Refusal :=
  onBus (.slotVloWrite data) via 0x048 fun d =>
  d.unlocked 0x048 fun d => d.slotVlo via data

/-- SLOT_VHI_WRITE (R361, R340, R86). -/
def execSlotVhiWrite (via : Via) (data : BitVec 32) : State → Host.Outcome State Fault Refusal :=
  onBus (.slotVhiWrite data) via 0x048 fun d =>
  d.unlocked 0x048 fun d => d.slotVhi via data

end Sys2Proof.Machine
end

