-- ==== Sys2Proof/Machine/Flags.lean ====
section
/-! DEFINITION. Flags of sentence programs (R320, R321, R326): results and their flags as exact integers narrowed at the
end. -/

namespace Sys2Proof.Machine

open Sys2Proof

/-- R320: Z and N of the result, E and X from the tag of the same word. -/
def Flags.ofWord (f : Flags) (w : Word) : Flags :=
  { f with z := w.data == 0, n := w.data.msb, e := w.tag == 3, x := w.tag == 0 }

/-- A computed word carries tag 0b01 (R326). -/
abbrev dataWord (x : BitVec 16) : Word := Word.mk 1 x

/-- The result lies outside the signed 16-bit range. -/
def outside16 (x : Int) : Bool := decide (x < -32768) || decide (32767 < x)

/-- R326: s + t + C. -/
def sum16 (x y : BitVec 16) (cin : Bool) : BitVec 16 := BitVec.ofNat 16 (x.toNat + y.toNat + b2n cin)

/-- R320: an addition carries out of bit 15; it overflows as a signed operation. -/
def Flags.ofSum (f : Flags) (x y : BitVec 16) (cin : Bool) : Flags :=
  { f.ofWord (dataWord (sum16 x y cin)) with
    c := decide (65536 ≤ x.toNat + y.toNat + b2n cin), v := outside16 (x.toInt + y.toInt + b2n cin) }

/-- R326: s − t, less one more for a borrow. -/
def diff16 (x y : BitVec 16) (borrow : Bool) : BitVec 16 := BitVec.ofNat 16 (x.toNat + 65536 - y.toNat + 65536 - b2n borrow)

/-- R320: a subtraction borrows nothing; it overflows as a signed operation. -/
def Flags.ofDiff (f : Flags) (x y : BitVec 16) (borrow : Bool) : Flags :=
  { f.ofWord (dataWord (diff16 x y borrow)) with
    c := decide (y.toNat + b2n borrow ≤ x.toNat), v := outside16 (x.toInt - y.toInt - b2n borrow) }

/-- R326: Z and N of the result, C and V cleared. -/
def Flags.ofLogic (f : Flags) (x : BitVec 16) : Flags := { f.ofWord (dataWord x) with c := false, v := false }

/-- R326: Z and N of the result, C the last bit moved out, V cleared. A shift by 0 moves none out. -/
def Flags.ofShift (f : Flags) (x : BitVec 16) (c : Bool) : Flags := { f.ofWord (dataWord x) with c := c, v := false }

/-- R320: the last bit that a left shift by `n` moves out. -/
def outLeft (x : BitVec 16) (n : Nat) : Bool := n != 0 && x.getLsbD (16 - n)

/-- R320: the last bit that a right shift by `n` moves out. -/
def outRight (x : BitVec 16) (n : Nat) : Bool := n != 0 && x.getLsbD (n - 1)

/-- R326: Z and N of the 32-bit product; C when bits 31:16 are not zero; V = 0. -/
def Flags.ofProduct (f : Flags) (p : BitVec 32) : Flags :=
  { f with z := p == 0, n := p.msb, c := p.extractLsb' 16 16 != 0, v := false, e := false, x := false }

/-- R326: after SLD, Z for a slot that is not valid, the others cleared. -/
def Flags.ofSlot (valid : Bool) : Flags := ⟨!valid, false, false, false, false, false⟩

/-- R321: condition `k` holds. -/
def Flags.holds (f : Flags) (k : BitVec 4) : Bool :=
  match k.toNat with
  | 0 => true
  | 1 => f.z
  | 2 => !f.z
  | 3 => f.c
  | 4 => !f.c
  | 5 => f.n
  | 6 => !f.n
  | 7 => f.v
  | 8 => !f.v
  | 9 => f.c && !f.z
  | 10 => !f.c || f.z
  | 11 => f.n == f.v
  | 12 => f.n != f.v
  | 13 => f.z || f.n != f.v
  | 14 => f.e
  | _ => !f.e

end Sys2Proof.Machine
end

