-- ==== Sys2Proof/Machine/Operands.lean ====
section
/-! DEFINITION. Operands of sentence programs: the encoding (R325), registers (R319), the word addresses of an engine
(R322 to R324) and of the watch engine (R501), bytes (R329), staged outputs (R330) and slots (R331). `none` is an address
out of range or a staging limit exceeded (R306). -/

namespace Sys2Proof.Machine

open Sys2Proof

/-! ### Encoding (R325) -/

/-- R325: an instruction word from its OP and the fields it uses. -/
def encode (op d s t tg imm : Nat) : BitVec 36 :=
  BitVec.ofNat 36 (op * 2 ^ 30 + d * 2 ^ 26 + s * 2 ^ 22 + t * 2 ^ 18 + tg * 2 ^ 16 + imm)

/-- R325: A and INC lie in the place of T. -/
def encodeA (a : Nat) (inc : Bool) : Nat := a * 4 + 2 * b2n inc

/-- R325: bits of D, S, T, A, INC, TG and IMM. -/
def bitsD : Nat := 0x3C000000
def bitsS : Nat := 0x3C00000
def bitsT : Nat := 0x3C0000
def bitsA : Nat := 0x300000
def bitsInc : Nat := 0x80000
def bitsTg : Nat := 0x30000

/-- R326: the bits that instruction `op` uses, IMM included. -/
def usedBits (op : Nat) : Nat :=
  listGet 0
    [0, bitsD + bitsS, bitsD + bitsTg + 0xFFFF, bitsD + bitsS + bitsTg,
     bitsD + bitsA + bitsInc + 0xFFFF, bitsD + bitsA + bitsInc + 0xFFFF, bitsD + bitsA + bitsInc + 0xFFFF,
     bitsD + bitsA + bitsInc + 0xFFFF, bitsA + 0xFFFF, bitsA + 0xFFFF, bitsA + bitsS, bitsD + bitsA,
     bitsD + bitsS + bitsT, bitsD + bitsS + bitsT, bitsD + bitsS + bitsT, bitsD + bitsS + bitsT,
     bitsD + bitsS + bitsT, bitsD + bitsS + bitsT, bitsD + bitsS + bitsT, bitsD + bitsS,
     bitsD + bitsS + 0xFFFF, bitsD + bitsS + 0xFFFF, bitsD + bitsS + 0xFFFF, bitsD + bitsS + 0xFFFF, bitsD + bitsS + 0xFFFF,
     bitsS + bitsT, bitsS + 0xFFFF, bitsD + bitsS + 0xF, bitsD + bitsS + 0xF, bitsD + bitsS + 0xF,
     bitsD + bitsS + bitsT, bitsD + bitsS + 0xFF, bitsD + bitsS + 0xFF,
     bitsD + 0xFFF, bitsS + bitsTg + 0xFFF, bitsA + 0xFFF, 0, bitsA, bitsA + bitsS, bitsD + bitsS, bitsD + bitsS, bitsD] op

/-- R334: the OPs that the watch engine executes. -/
def wakeOps : List Nat :=
  [0x00, 0x01, 0x02, 0x04, 0x05, 0x08, 0x09, 0x0C, 0x0E, 0x10, 0x11, 0x12, 0x13, 0x14, 0x15, 0x16, 0x17, 0x19, 0x1A, 0x1B,
   0x1C, 0x21, 0x23, 0x24]

/-- R325, R326, R333, R334: an encoding that is not reserved. -/
def legal (w : BitVec 36) (watch : Bool) : Bool :=
  let x := w.toNat
  let op := x / 2 ^ 30
  let d := x / 2 ^ 26 % 16
  decide (op ≤ 0x29) && Nat.land (x % 2 ^ 30) (usedBits op) == x % 2 ^ 30 &&
  (op != 0x1E || d % 2 == 0) && (!(op == 0x27 || op == 0x28 || op == 0x29) || d % 4 == 0) &&
  (!watch || wakeOps.contains op)

/-! ### Registers (R319) -/

def Core.wreg (c : Core) (i : WReg) : Word := listGet 0 c.w i.val
def Core.dat (c : Core) (i : WReg) : BitVec 16 := (c.wreg i).data
def Core.areg (c : Core) (i : AReg) : BitVec 16 := listGet 0 c.a i.val
def Core.setW (c : Core) (i : Nat) (v : Word) : Core := { c with w := listSet c.w i v }
def Core.setA (c : Core) (i : AReg) (v : BitVec 16) : Core := { c with a := listSet c.a i.val v }
def Core.setF (c : Core) (f : Flags) : Core := { c with fl := f }

/-- The next slot, after `n` cycles (R327). -/
def Core.next (c : Core) (n : Nat) : Core := { c with pc := c.pc + 1, cycles := c.cycles + n }

/-- R326: the branch is taken to `target`, or not. -/
def Core.branch (c : Core) (taken : Bool) (target : Nat) : Core :=
  if taken then { c with pc := target, cycles := c.cycles + 2 } else c.next 1

/-- R326: the address register of an access, after it. -/
def Core.incA (c : Core) (a : AReg) (inc : Bool) : Core := if inc then c.setA a (c.areg a + 1) else c

/-- R331: bits 15:0 in `i` and upward. -/
def Core.set64 (c : Core) (i : Nat) (v : BitVec 64) : Core :=
  (((c.setW i (dataWord (v.extractLsb' 0 16))).setW (i + 1) (dataWord (v.extractLsb' 16 16))).setW (i + 2)
    (dataWord (v.extractLsb' 32 16))).setW (i + 3) (dataWord (v.extractLsb' 48 16))

/-- R331: the 64 bits in `i` to `i + 3`. -/
def Core.get64 (c : Core) (i : Nat) : BitVec 64 :=
  (listGet 0 c.w (i + 3)).data ++ (listGet 0 c.w (i + 2)).data ++ (listGet 0 c.w (i + 1)).data ++ (listGet 0 c.w i).data

/-! ### The word addresses of an engine (R322 to R324) -/

/-- R323: IN word `i` of a run. -/
def Dev.inWord (d : Dev) (r : Run) (i : Nat) : Word :=
  match d.sen r.ent.sid with
  | some s => listGet 0 (sentenceWords s.shb s.body) i
  | none => 0

/-- R323: OUT word `i` of a run. -/
def Run.outWord (r : Run) (i : Nat) : Word := SMap.get (fun _ => 0) r.out i

/-- R330: OUT words that an output of length `len` occupies. -/
def outWords (len : Nat) : Nat := 8 + payWords len

/-- R330: OUT words `i` to `i + n − 1` overlap an emitted sentence. -/
def Run.emitted (r : Run) (i n : Nat) : Bool :=
  r.staged.any fun s => decide (i < s.at_ + outWords s.len) && decide (s.at_ < i + n)

/-- R324: the members of the input's resolved list. -/
def Dev.runMembers (d : Dev) (r : Run) : List Member :=
  match (d.sen r.ent.sid).bind fun s => d.acct s.acct with
  | some x => x.members
  | none => []

/-- R33, R324: LMASK. -/
def Dev.lmask (d : Dev) (r : Run) : BitVec 32 := BitVec.ofNat 32 (maskOf ((d.runMembers r).map (·.idx)))

/-- R324: run information word `i`. -/
def Dev.runInfo (d : Dev) (r : Run) (i : Nat) : Word :=
  dataWord (match i with
    | 0 => BitVec.ofNat 16 (d.runMembers r).length
    | 1 => (d.lmask r).extractLsb' 0 16
    | 2 => (d.lmask r).extractLsb' 16 16
    | 3 => r.emask.extractLsb' 0 16
    | 4 => r.emask.extractLsb' 16 16
    | 5 => BitVec.ofNat 16 r.staged.length
    | 6 => BitVec.ofNat 16 r.ent.prog
    | _ => BitVec.ofNat 16 r.ent.inst)

/-- R323, R300: talker-state word `i` as the run sees it. -/
def Dev.runState (d : Dev) (r : Run) (i : Nat) : Word :=
  match SMap.get (fun _ => none) r.tsw i with
  | some w => w
  | none => SMap.get (fun _ => 0) d.eng.ts (r.ent.talker.toNat * 16 + i)

/-- R314: constant word `i` of the bank of a run. -/
def Dev.constant (d : Dev) (r : Run) (i : Nat) : Word := (d.tab32 r.ent.bank (0x209000 + 4 * i)).setWidth 18

/-- R322, R326: a load by engine `k`: the word, and the cycles it takes. -/
def Dev.loadSpe (d : Dev) (k : Nat) (r : Run) (a : Nat) : Option (Word × Nat) :=
  if a ≤ 0x1FFF then some (SMap.get (fun _ => 0) d.eng.dmem (k * 8192 + a), 1)
  else if between 0x2000 0x247F a then some (d.inWord r (a - 0x2000), 1)
  else if between 0x3000 0x347F a then some (r.outWord (a - 0x3000), 1)
  else if between 0x4000 0x47FF a then some (d.constant r (a - 0x4000), 1)
  else if between 0x5000 0x500F a then some (d.runState r (a - 0x5000), 4)
  else if between 0x5010 0x5017 a then some (d.runInfo r (a - 0x5010), 1)
  else none

def Dev.setRun (d : Dev) (k : Nat) (r : Run) : Dev := d.setSpe k { d.spe k with run := some r }

/-- R322: write OUT word `i`, which is not emitted. -/
def Run.putOut (r : Run) (i : Nat) (w : Word) : Run := { r with out := SMap.put (fun _ => 0) r.out i w }

/-- R322 to R324: a store by engine `k`. -/
def Dev.storeSpe (d : Dev) (k : Nat) (r : Run) (a : Nat) (w : Word) : Option Dev :=
  if a ≤ 0x1FFF then some { d with eng := { d.eng with dmem := SMap.put (fun _ => 0) d.eng.dmem (k * 8192 + a) w } }
  else if between 0x3000 0x347F a && !r.emitted (a - 0x3000) 1 then some (d.setRun k (r.putOut (a - 0x3000) w))
  else if between 0x5000 0x500F a then
    some (d.setRun k { r with tsw := SMap.put (fun _ => none) r.tsw (a - 0x5000) (some w) })
  else if a = 0x5013 then some (d.setRun k { r with emask := r.emask.extractLsb' 16 16 ++ w.data })
  else if a = 0x5014 then some (d.setRun k { r with emask := w.data ++ r.emask.extractLsb' 0 16 })
  else none

/-! ### The word addresses of the watch engine (R501) -/

/-- R501: the working clock, kept in steps of 250 ns (R364). -/
def Dev.watchClock (d : Dev) : BitVec 64 := stampOf (d.wclk / 4000 * 4000)

/-- R501: an event word. -/
def WakeEv.word (e : WakeEv) (i : Nat) : BitVec 16 :=
  match i with
  | 0 => BitVec.ofNat 16 (e.src % 16 + 256 * (e.unit % 32))
  | 1 => e.data.w1
  | 2 => e.data.w2
  | 3 => e.data.w3
  | 4 => e.data.d0
  | 5 => e.data.d1
  | 6 => e.data.d2
  | _ => e.data.d3

/-- R501: a load by the watch engine. -/
def Dev.loadWatch (d : Dev) (e : WakeEv) (a : Nat) : Option Word :=
  if a ≤ 0x3F then some (dataWord (BitVec.ofNat 16 (d.rd 0x002 Reg.PCH_WW_DATA.W a)))
  else if between 0x1000 0x1007 a then some (dataWord (e.word (a - 0x1000)))
  else if a = 0x1010 ∨ a = 0x1011 then
    some (dataWord (BitVec.ofNat 16 (d.rd 0x0D0 Reg.GPI_LEVEL.L / 65536 ^ (a - 0x1010))))
  else if a = 0x1012 then some (dataWord (BitVec.ofNat 16 (sumOf (fun z => d.tc10 (4 + z) * 4 ^ z) (List.range 8))))
  else if between 0x1014 0x1017 a then some (dataWord (BitVec.ofNat 16 (bitsOf d.watchClock (16 * (a - 0x1014)) 16)))
  else none

/-- R501: a store by the watch engine. -/
def Dev.storeWatch (d : Dev) (a : Nat) (w : Word) : Option Dev :=
  if a ≤ 0x3F then some (d.wr 0x002 Reg.PCH_WW_DATA.W w.toNat a) else none

/-! ### Bytes (R329) -/

/-- The byte of a word: bits 15:8 of an even address. -/
def byteOf (w : Word) (b : Nat) : Byte := if b % 2 = 0 then w.extractLsb' 8 8 else w.extractLsb' 0 8

/-- A word with one byte replaced. -/
def withByte (w : Word) (b : Nat) (v : Byte) : Word :=
  if b % 2 = 0 then w.tag ++ v ++ (w.extractLsb' 0 8 : Byte) else w.tag ++ (w.extractLsb' 8 8 : Byte) ++ v

/-- R329: LDB of byte address `b`. -/
def Dev.loadByte (d : Dev) (r : Run) (b : Nat) : Option Word :=
  if 2303 < b then none
  else
    let w := d.inWord r (b / 2)
    some (Word.mk w.tag ((byteOf w b).setWidth 16))

/-- R329: STB to byte address `b`. -/
def Run.storeByte (r : Run) (b : Nat) (v : Byte) : Option Run :=
  if 2303 < b || r.emitted (b / 2) 1 then none else some (r.putOut (b / 2) (withByte (r.outWord (b / 2)) b v))

/-! ### Outputs (R330) -/

/-- R330: OUT words `i` to `i + 7` become IN words 0 to 7. -/
def Dev.headerTo (d : Dev) (r : Run) (i : Nat) : Run :=
  (List.range 8).foldl (fun r j => r.putOut (i + j) (d.inWord r j)) r

/-- R330: the header words that EMIT writes, given W1 as the program left it. -/
def Dev.emitHeader (d : Dev) (r : Run) (i len : Nat) : List Word :=
  let src := fun j => (d.inWord r j).data
  (List.range 8).map fun j => Word.mk 2 (match j with
    | 1 => BitVec.ofNat 16 ((src 1).toNat / 16 * 16 + (r.outWord (i + 1)).data.toNat % 16)
    | 3 => BitVec.ofNat 16 ((src 3).toNat / 16384 * 16384 + len)
    | _ => src j)

/-- R330: the payload words of an output: tags, and the pad byte zero. -/
def emitPayload (len : Nat) (ws : List Word) : List Word :=
  let n := ws.length
  (List.range n).map fun j =>
    let x := (listGet 0 ws j).data
    let x := if len = 0 then 0 else if j + 1 = n ∧ len % 2 = 1 then x &&& 0xFF00 else x
    Word.mk (if j + 1 = n then 3 else 1) x

/-- R330: stage an output at OUT word `i` with length `len`; `none` where the run faults. With a zero mask it stages nothing, and
rewrites no OUT word (DEDUCED, notes/assumptions/51.md). -/
def Dev.stageOutput (d : Dev) (r : Run) (i len : Nat) : Option Run :=
  let mask := r.emask &&& d.lmask r
  let n := outWords len
  if 1152 < i + n || r.emitted i n then none
  else if mask = 0 then some r
  else if 8 ≤ r.staged.length then none
  else
    let ws := d.emitHeader r i len ++ emitPayload len ((List.range (n - 8)).map fun j => r.outWord (i + 8 + j))
    let r := (List.range n).foldl (fun (r : Run) j => r.putOut (i + j) (listGet 0 ws j)) r
    some { r with staged := r.staged ++ [⟨i, len, mask⟩] }

/-- The OUT word that a word address names, if it lies in OUT. -/
def outIndex (a : Nat) (n : Nat) : Option Nat := if 0x3000 ≤ a ∧ a + n ≤ 0x3480 then some (a - 0x3000) else none

/-! ### Slots (R331) -/

/-- R331: SLD of slot `s`: the value, and whether it is valid, as they stood at the start of the cycle. -/
def Dev.slotLoad (d : Dev) (r : Run) (s : Nat) : BitVec 64 × Bool :=
  match r.sst.reverse.find? fun x => x.1 == s with
  | some x => (x.2, true)
  | none => (d.packed s, (d.slotSeen s).2 && d.slotInUse d.nrm.active s)

/-- R331, R303: SST of slot `s`. -/
def Run.slotStage (r : Run) (s : Nat) (v : BitVec 64) : Option Run :=
  if 32 ≤ r.sst.length then none else some { r with sst := r.sst ++ [(s, v)] }

end Sys2Proof.Machine
end

