-- ==== Sys2Proof/Machine/EngRun.lean ====
section
/-! DEFINITION. How a run ends (R299, R301 to R312): locks, debits, faults and re-execution, retirement and self-test, the
outputs, and the wake that the watch engine decides (R501). -/

namespace Sys2Proof.Machine

open Sys2Proof

/-! ### Locks and credits (R299, R301) -/

/-- R301: credits are kept while EN is 1. -/
def Dev.setCredit (d : Dev) (n : Nat) (v : Int) : Dev :=
  { d with eng := { d.eng with credits := SMap.put (fun _ => 0) d.eng.credits n v } }
def Dev.credit (d : Dev) (n : Nat) : Int := SMap.get (fun _ => 0) d.eng.credits n

/-- R301, R460: a run that ends debits its instance by its cycles plus 256. -/
def Dev.debit (d : Dev) (r : Run) : Dev :=
  let n := r.core.cycles + 256
  let d := d.bumpSat64 (instPage r.ent.inst) Reg.INST.ENG_CYCLES_LO Reg.INST.ENG_CYCLES_HI n
  if d.on 0x050 Reg.ENG_SHARE_CFG.EN then d.setCredit r.ent.inst (d.credit r.ent.inst - n) else d

/-! ### Engines leaving service (R291, R308 to R310) -/

/-- R291, R540: the fault of an array that falls below 64 engines. -/
def Dev.degraded (before d : Dev) : Dev :=
  if 64 ≤ before.inService ∧ d.inService < 64 then d.fault 0x050 0x06 0x78 else d

/-- R244, R540: a sentence of the array fails with ENGINE_FAULT. -/
def Dev.engineFault (d : Dev) (e : Entry) : Dev :=
  (((d.bump 0x050 Reg.ENG.ENGINE_FAULTS).raise 0x050 21).unlockTalker e).inputFails e.sid 0x01 0x78

/-- R291: with no engine in service, an entry fails. -/
def Dev.entryFails (d : Dev) (e : Entry) : Dev :=
  ((d.bump 0x050 Reg.ENG.ENGINE_FAULTS).raise 0x050 21).dropInput e.sid 0x01 0x78

/-- R295, R308: the deque of engine `k` moves, in order, to the tail of its stand-in's, and pending entries find the room they can.
With no engine in service, they fail with it (R291). -/
def Dev.moveDeque (d : Dev) (k : Nat) : Dev :=
  let es := (d.spe k).deque
  match d.standIn k with
  | some j => ((d.setSpe j { d.spe j with deque := (d.spe j).deque ++ es }).setSpe k { d.spe k with deque := [] }).drainPending
  | none => (es ++ d.eng.pending).foldl (fun d e => d.entryFails e) d

/-- R308, R309: engine `k` is RETIRED. One that the rotation had picked ends the rotation's hold of the token. -/
def Dev.retire (d : Dev) (k : Nat) : Dev :=
  let d := if (d.spe k).rotating then d.maintEnd 0x050 4 else d
  let d := d.setSpe k { d.spe k with state := .retired, retired := true, rotating := false, returning := false,
                                     retiring := false }
  (d.raise 0x050 17).fault 0x050 0x05 k

/-- R310: engine `k`, which runs nothing, is retired by command. -/
def Dev.retireNow (d : Dev) (k : Nat) : Dev :=
  let e := d.setSpe k { d.spe k with state := .retired }
  (d.degraded ((e.moveDeque k).retire k)).wr 0x050 Reg.ENG_SVC.RESULT 1

/-- R309: engine `k`, which runs nothing, leaves service for its self-test. -/
def Dev.startTest (d : Dev) (k : Nat) : Dev :=
  let e := d.setSpe k { d.spe k with state := .selfTest }
  d.degraded (e.moveDeque k)

/-- What engine `k` does when its run has ended: it is idle, or leaves service as it was told to. -/
def Dev.engineFree (d : Dev) (k : Nat) : Dev :=
  let d := d.setSpe k { d.spe k with run := none, state := .idle }
  if (d.spe k).retiring then d.retireNow k else if (d.spe k).rotating then d.startTest k else d

/-! ### Outputs (R302, R305) -/

/-- Bytes of OUT words. -/
def wordsBytes (len : Nat) (ws : List Word) : List Byte :=
  (ws.flatMap fun w => [w.extractLsb' 8 8, w.extractLsb' 0 8]).take len

/-- R305: the sentence that a staged output becomes. -/
def Run.shbOf (r : Run) (s : Shb) (x : Staged) : Shb :=
  let w1 := (r.outWord (x.at_ + 1)).data
  { s with cls := w1.extractLsb' 0 3, de := w1.getLsbD 3, len := BitVec.ofNat 14 x.len }

def Run.bodyOf (r : Run) (x : Staged) : List Byte :=
  wordsBytes x.len ((List.range (outWords x.len - 8)).map fun j => r.outWord (x.at_ + 8 + j))

/-- R228, R46: the crossbar port of engine `k`. -/
def spePort (k : Nat) : Nat := 12 + k / 18

/-- R209, R245: one more output is sent to member `m`, or it can take none. -/
def Dev.sendTo (d : Dev) (m : Member) : Member :=
  match d.memberBad m.dest with
  | some f => { m with fail := m.fail.or (some f) }
  | none => { m with open_ := m.open_ + 1 }

/-- R270, R302, step 4: an output sentence asks admission; members that can take no copy fail. -/
def Dev.askOutput (d : Dev) (k : Nat) (r : Run) (s : Sen) (x : Staged) : Dev :=
  let id := d.swc.nextSid
  let inMask := fun (m : Member) => bitAt x.mask.toNat m.idx
  let ms := ((d.acct s.acct).map (·.members)).getD []
  let mine := (ms.filter inMask).map fun m => { m with fail := d.memberBad m.dest }
  let ts := d.targetsOf s.shb.talker mine []
  let d := match d.acct s.acct with
    | none => d
    | some a =>
      let all := a.members.map fun m => if inMask m then d.sendTo m else m
      d.setAcct s.acct { a with members := all }
  let d := { d with swc := { d.swc with nextSid := id + 1 } }
  if ts.isEmpty then d
  else d.setSen id { s with
    shb := r.shbOf s.shb x, body := r.bodyOf x, inp := spePort k, cells := [], whole := true, waits := some (.engine k),
    waited := false, targets := ts, adm := 0, tickets := [], reserve := false, bytes := 0, prog := 0, serial := false }

/-- R302, steps 3 and 4: the program has ended; its outputs ask admission. -/
def Dev.programEnds (d : Dev) (k : Nat) (r : Run) : Dev :=
  match d.sen r.ent.sid with
  | none => d.setRun k { r with ended := true }
  | some s =>
    let first := d.swc.nextSid
    let e := r.staged.foldl (fun d x => d.askOutput k r s x) d
    e.setRun k { r with ended := true, outs := (List.range (e.swc.nextSid - first)).map (first + ·) }

/-- R303: the outputs of a run that does not commit leave no trace. -/
def Dev.dropOutputs (d : Dev) (r : Run) : Dev :=
  let mine := fun sid => r.outs.contains sid
  let d := { d with swc := { d.swc with sens := d.swc.sens.filter fun e => !mine e.1
                                        copies := d.swc.copies.filter fun c => !mine c.sid } }
  match (d.sen r.ent.sid).map (·.acct) with
  | none => d
  | some a => match d.acct a with
    | none => d
    | some x => d.setAcct a { x with members := x.members.map fun m => Member.fresh m.idx m.dest }

/-! ### Faults (R306, R307) -/

/-- R302: the input goes back to the pool: its copy has crossed to no engine. -/
def Dev.backToPool (d : Dev) (sid : Nat) : Dev :=
  { d with swc := { d.swc with
      voq := d.swc.voq.filter fun x => x.sid != sid
      copies := d.swc.copies.map fun (c : Copy) => if c.sid = sid ∧ c.role = .engine then { c with place := .pool } else c } }

/-- R307, R312: the sentence of a faulted run of engine `k` goes to the head of a deque, or fails on its third run. One of an
instance that is being reset is removed. -/
def Dev.reexecute (d : Dev) (k : Nat) (e : Entry) : Dev :=
  let e := { e with faults := e.faults + 1 }
  if d.on (instPage e.inst) Reg.INST_STAT.RESETTING then
    ((d.unlockTalker e).inputFails e.sid 0x07 0x78).bump 0x050 Reg.ENG.CANCELLED
  else if 3 ≤ e.faults then (d.engineFault e).fault 0x050 0x07 k 0 e.talker
    (match d.sen e.sid with | some s => s.shb.seq | none => 0)
  else match (d.standIn k).or (if d.inSvc k then some k else none) with
  | some j => ((d.backToPool e.sid).setSpe j { d.spe j with deque := e :: (d.spe j).deque }).bump 0x050 Reg.ENG.REEXEC
  | none => d.engineFault e

/-- A run of engine `k` that ends without a commit: staging is discarded and the instance debited. -/
def Dev.discardRun (d : Dev) (r : Run) : Dev := (d.dropOutputs r).debit r

/-- R306: a program fault ends the run and fails the sentence. -/
def Dev.programFault (d : Dev) (k : Nat) : Dev :=
  match (d.spe k).run with
  | none => d
  | some r =>
    let d := (d.discardRun r).engineFree k
    ((d.bump 0x050 Reg.ENG.PROG_FAULTS).raise 0x050 20).engineFault r.ent

/-! ### The wake decision (R501, R502, R510) -/

/-- R501: event `e` wakes the device to Reefed or Full. A wake is a reset of R504, which leaves the safe state (R551). -/
def Dev.wake (d : Dev) (e : WakeEv) (reefed : Bool) (reason : Nat) : Dev :=
  let d := d.wr 0x000 Reg.PCH_WAKE_STAT.SRC e.src
  let d := d.wr 0x000 Reg.PCH_WAKE_STAT.UNIT e.unit
  let d := d.wr 0x000 Reg.PCH_WAKE_STAT.REASON reason
  let d := d.wr 0x000 Reg.PCH_WAKE_STAT.VALID 1
  let d := d.wr 0x000 Reg.PCH_PWR_CTRL.TARGET (b2n reefed)
  let struck := d.pwr.power == .struck
  let d := d.wr 0x000 Reg.PCH_BOOT_STAT.CAUSE (if struck then 5 else 6)
  let d := { d with pwr := { d.pwr with
    power := .waking, wakeTo := b2n reefed, bootAt := d.now, wakeq := [], run := none, wakeOut := true,
    boot := if struck then .waitRails else d.pwr.boot } }
  (d.wr 0x001 Reg.PCH_SAFE.ACTIVE 0).raise 0x000 16

/-- R501: a run that meets a limit, a reserved encoding or a wrong address wakes the device to Full. -/
def Dev.watchFault (d : Dev) : Dev :=
  match d.pwr.run with
  | none => d
  | some w => ((d.wr 0x002 Reg.PCH_WW_STAT.FAULT 1).raise 0x002 16).wake w.ev false 0xFF

/-- R501: the decision at END, from w0. -/
def Dev.watchEnds (d : Dev) (w : WatchRun) : Dev :=
  let x := (listGet 0 w.core.w 0).data.toNat
  let d := d.wr 0x002 Reg.PCH_WW_STAT.PC w.core.pc
  let d := { d with pwr := { d.pwr with run := none } }
  if x % 4 = 0 then d else d.wake w.ev (x % 4 == 2) (x / 256)

/-! ### Executing an instruction -/

/-- The core of a unit that executes a program now: an engine whose input is loaded and whose program has not ended. -/
def Dev.coreOf (d : Dev) : PUnit → Option Core
  | .spe k =>
    (match (d.spe k.val).run with
     | some r =>
       if !d.clocked || r.ended || d.swc.voq.any (fun x => x.sid == r.ent.sid) || decide (r.limit ≤ r.core.cycles) then none
       else some r.core
     | none => none)
  | .watch => (match d.pwr.run with | some w => if 512 ≤ w.core.cycles then none else some w.core | none => none)

/-- R314, R501: the slot that the program counter names; `none` at or above the end of the program. -/
def Dev.slotAt (d : Dev) : PUnit → Nat → Option (BitVec 36)
  | .spe k, pc =>
    (match (d.spe k.val).run with
     | some r =>
       if pc < r.len then
         let a := 0x200000 + 8 * (r.start + pc)
         some ((d.tab32 r.ent.bank (a + 4)).extractLsb' 0 4 ++ d.tab32 r.ent.bank a)
       else none
     | none => none)
  | .watch, pc =>
    if pc < 128 then
      some (BitVec.ofNat 4 (d.rd 0x002 Reg.PCH_WW_SLOT_HI.SLOT pc) ++ BitVec.ofNat 32 (d.rd 0x002 Reg.PCH_WW_SLOT_LO.SLOT pc))
    else none

/-- R306, R501: a program fault of a unit. -/
def Dev.unitFault (d : Dev) : PUnit → Dev
  | .spe k => d.programFault k.val
  | .watch => d.watchFault

/-- Store the core of a unit. -/
def Dev.setCore (d : Dev) (u : PUnit) (c : Core) : Dev :=
  match u with
  | .spe k => (match (d.spe k.val).run with | some r => d.setRun k.val { r with core := c } | none => d)
  | .watch => (match d.pwr.run with | some w => { d with pwr := { d.pwr with run := some { w with core := c } } } | none => d)

/-- R328: execution that reaches the end of the program faults. -/
def Dev.atEnd (d : Dev) (u : PUnit) (c : Core) : Dev :=
  if (d.coreOf u).isSome && (d.slotAt u c.pc).isNone then d.unitFault u else d

def isWatch : PUnit → Bool
  | .watch => true
  | .spe _ => false

/-- R331, R540: a bad word that the packed value of slot `s` is read from: its entry, its substitute value, or its live word. -/
def Dev.slotBad (d : Dev) (s : Nat) : Option Nat :=
  let b := d.nrm.active
  let e := 0x2000000 + 8 * s
  let u := 0x2100000 + 8 * bitsOf (d.tab32 b (e + 4)) 0 13
  if d.badAt b e then some e
  else if !d.slotInUse b s then none
  else if d.hlt.badWords.contains (slotKey s) then some (slotKey s)
  else if (d.slotSeen s).2 then none
  else [e + 4, u, u + 4].find? fun a => d.badAt b a

/-- R322, R540: the word of talker state that a load from address `x` of a run reads is bad. -/
def Dev.stateBad (d : Dev) (r : Run) (x : Nat) : Option Nat :=
  let key := stateKey (r.ent.talker.toNat * 16 + (x - 0x5000))
  if between 0x5000 0x500F x && (SMap.get (fun _ => (none : Option Word)) r.tsw (x - 0x5000)).isNone && d.hlt.badWords.contains key then
    some key else none

/-- R540: the bad word that executing the word `w` of slot `c.pc` reads: the slot, the constant or the word of talker state of
an LD, or what an SLD reads. -/
def Dev.badRead (d : Dev) (u : PUnit) (c : Core) (w : BitVec 36) : Option (BitVec 2 × Nat) :=
  match u with
  | .watch => none
  | .spe k =>
    match (d.spe k.val).run with
    | none => none
    | some r =>
      let a := 0x200000 + 8 * (r.start + c.pc)
      let x := (c.areg ⟨w.toNat / 2 ^ 20 % 4, Nat.mod_lt _ (by decide)⟩ + w.extractLsb' 0 16).toNat
      let q := 0x209000 + 4 * (x - 0x4000)
      if d.badAt r.ent.bank a then some (r.ent.bank, a)
      else if d.badAt r.ent.bank (a + 4) then some (r.ent.bank, a + 4)
      else if w.toNat / 2 ^ 30 = 4 ∧ between 0x4000 0x47FF x = true ∧ d.badAt r.ent.bank q = true then some (r.ent.bank, q)
      else if w.toNat / 2 ^ 30 = 4 then (d.stateBad r x).map fun k => (r.ent.bank, k)
      else if w.toNat / 2 ^ 30 = 0x27 then
        let s := (c.dat ⟨w.toNat / 2 ^ 20 % 16, Nat.mod_lt _ (by decide)⟩).toNat
        if r.sst.any fun y => y.1 == s then none else (d.slotBad s).map fun k => (d.nrm.active, k)
      else none

/-- R540: the run of engine `k` read the bad dword at image address `a` of bank `b`: its sentence fails with MEM_FAULT. -/
def Dev.runMemFault (d : Dev) (u : PUnit) (b : BitVec 2) (a : Nat) : Dev :=
  match u with
  | .watch => d
  | .spe k =>
    match (d.spe k.val).run with
    | none => d
    | some r =>
      let seq := match d.sen r.ent.sid with | some s => s.shb.seq | none => 0
      let d := ((d.discardRun r).engineFree k.val).tableFault b a r.ent.talker seq
      (d.unlockTalker r.ent).inputFails r.ent.sid 0x06 0x78

/-- R302, step 2: unit `u` executes the instruction encoded as `code`, which its program counter names; `f` is its effect,
`none` a program fault. A slot that holds a reserved encoding faults. -/
def Dev.execute (d : Dev) (u : PUnit) (code : BitVec 36) (f : Dev → Core → Option (Dev × Core)) : Dev :=
  match d.coreOf u with
  | none => d
  | some c =>
    match d.slotAt u c.pc with
    | none => d.unitFault u
    | some w =>
      match d.badRead u c w with
      | some x => d.runMemFault u x.1 x.2
      | none =>
        if !legal w (isWatch u) then d.unitFault u
        else if w ≠ code then d
        else match f d c with
          | none => d.unitFault u
          | some x => (x.1.setCore u x.2).atEnd u x.2

/-- An instruction that changes registers and flags alone. -/
def Dev.compute (d : Dev) (u : PUnit) (code : BitVec 36) (f : Core → Core) : Dev :=
  d.execute u code fun d c => some (d, f c)

end Sys2Proof.Machine
end

