-- ==== Sys2Proof/Machine/Isa.lean ====
section
/-! DEFINITION. The sentence-program instructions (R326 to R331), executed by an engine or by the watch engine. -/

namespace Sys2Proof.Machine

open Sys2Proof

/-! ### Moves -/

/-- NOP (R326). -/
def execNop (u : PUnit) : State → Host.Outcome State Fault Refusal := onAon fun d =>
  d.compute u (encode 0x00 0 0 0 0 0) fun c => c.next 1

/-- R326: write a word with its flags Z, N, E and X. -/
def Core.putWord (c : Core) (d : WReg) (w : Word) : Core := (c.setW d.val w).setF (c.fl.ofWord w)

/-- MOV (R326): the tag is copied too. -/
def execMov (u : PUnit) (d s : WReg) : State → Host.Outcome State Fault Refusal := onAon fun dev =>
  dev.compute u (encode 0x01 d.val s.val 0 0 0) fun c => (c.putWord d (c.wreg s)).next 1

/-- LDI (R326). -/
def execLdi (u : PUnit) (d : WReg) (tg : Tag) (imm : BitVec 16) : State → Host.Outcome State Fault Refusal := onAon fun dev =>
  dev.compute u (encode 0x02 d.val 0 0 tg.toNat imm.toNat) fun c => (c.putWord d (Word.mk tg imm)).next 1

/-- TAG (R326). -/
def execTag (u : PUnit) (d s : WReg) (tg : Tag) : State → Host.Outcome State Fault Refusal := onAon fun dev =>
  dev.compute u (encode 0x03 d.val s.val 0 tg.toNat 0) fun c => (c.putWord d (Word.mk tg (c.dat s))).next 1

/-- LDA (R326). -/
def execLda (u : PUnit) (a : AReg) (imm : BitVec 16) : State → Host.Outcome State Fault Refusal := onAon fun dev =>
  dev.compute u (encode 0x08 0 0 (encodeA a.val false) 0 imm.toNat) fun c => (c.setA a imm).next 1

/-- ADDA (R326, R319). -/
def execAdda (u : PUnit) (a : AReg) (imm : BitVec 16) : State → Host.Outcome State Fault Refusal := onAon fun dev =>
  dev.compute u (encode 0x09 0 0 (encodeA a.val false) 0 imm.toNat) fun c => (c.setA a (c.areg a + imm)).next 1

/-- MOVA (R326). -/
def execMova (u : PUnit) (a : AReg) (s : WReg) : State → Host.Outcome State Fault Refusal := onAon fun dev =>
  dev.compute u (encode 0x0A 0 s.val (encodeA a.val false) 0 0) fun c => (c.setA a (c.dat s)).next 1

/-- MOVW (R326). -/
def execMovw (u : PUnit) (d : WReg) (a : AReg) : State → Host.Outcome State Fault Refusal := onAon fun dev =>
  dev.compute u (encode 0x0B d.val 0 (encodeA a.val false) 0 0) fun c => (c.putWord d (dataWord (c.areg a))).next 1

/-! ### Loads and stores (R322 to R324, R329, R501) -/

/-- R322, R501: a load by unit `u` at word address `x`: the word, and the cycles it takes. -/
def Dev.loadAt (d : Dev) (u : PUnit) (x : Nat) : Option (Word × Nat) :=
  match u with
  | .spe k => (d.spe k.val).run.bind fun r => d.loadSpe k.val r x
  | .watch => (d.pwr.run.bind fun w => d.loadWatch w.ev x).map fun w => (w, 1)

/-- R322, R501: a store by unit `u`. -/
def Dev.storeAt (d : Dev) (u : PUnit) (x : Nat) (w : Word) : Option Dev :=
  match u with
  | .spe k => (d.spe k.val).run.bind fun r => d.storeSpe k.val r x w
  | .watch => d.storeWatch x w

/-- LD (R326). -/
def execLd (u : PUnit) (d : WReg) (a : AReg) (inc : Bool) (imm : BitVec 16) : State → Host.Outcome State Fault Refusal :=
  onAon fun dev => dev.execute u (encode 0x04 d.val 0 (encodeA a.val inc) 0 imm.toNat) fun e c =>
    (e.loadAt u (c.areg a + imm).toNat).map fun x => (e, ((c.putWord d x.1).incA a inc).next x.2)

/-- ST (R326). -/
def execSt (u : PUnit) (d : WReg) (a : AReg) (inc : Bool) (imm : BitVec 16) : State → Host.Outcome State Fault Refusal :=
  onAon fun dev => dev.execute u (encode 0x05 d.val 0 (encodeA a.val inc) 0 imm.toNat) fun e c =>
    (e.storeAt u (c.areg a + imm).toNat (c.wreg d)).map fun e' => (e', (c.incA a inc).next 1)

/-- R329: a byte load by an engine; the watch engine has none (R334). -/
def Dev.byteAt (d : Dev) (u : PUnit) (b : Nat) : Option Word :=
  match u with
  | .spe k => (d.spe k.val).run.bind fun r => d.loadByte r b
  | .watch => none

/-- R329: a byte store by an engine. -/
def Dev.putByteAt (d : Dev) (u : PUnit) (b : Nat) (v : Byte) : Option Dev :=
  match u with
  | .spe k => ((d.spe k.val).run.bind fun r => r.storeByte b v).map fun r => d.setRun k.val r
  | .watch => none

/-- LDB (R329). -/
def execLdb (u : PUnit) (d : WReg) (a : AReg) (inc : Bool) (imm : BitVec 16) : State → Host.Outcome State Fault Refusal :=
  onAon fun dev => dev.execute u (encode 0x06 d.val 0 (encodeA a.val inc) 0 imm.toNat) fun e c =>
    (e.byteAt u (c.areg a + imm).toNat).map fun w => (e, ((c.putWord d w).incA a inc).next 1)

/-- STB (R329). -/
def execStb (u : PUnit) (d : WReg) (a : AReg) (inc : Bool) (imm : BitVec 16) : State → Host.Outcome State Fault Refusal :=
  onAon fun dev => dev.execute u (encode 0x07 d.val 0 (encodeA a.val inc) 0 imm.toNat) fun e c =>
    (e.putByteAt u (c.areg a + imm).toNat ((c.wreg d).extractLsb' 0 8)).map fun e' => (e', (c.incA a inc).next 1)

/-! ### Arithmetic and logic -/

/-- R326: write a sum with its flags. -/
def Core.putSum (c : Core) (d : WReg) (x y : BitVec 16) (cin : Bool) : Core :=
  (c.setW d.val (dataWord (sum16 x y cin))).setF (c.fl.ofSum x y cin)

/-- R326: write a difference with its flags. -/
def Core.putDiff (c : Core) (d : WReg) (x y : BitVec 16) (borrow : Bool) : Core :=
  (c.setW d.val (dataWord (diff16 x y borrow))).setF (c.fl.ofDiff x y borrow)

/-- R326: write a logical result with its flags. -/
def Core.putLogic (c : Core) (d : WReg) (x : BitVec 16) : Core := (c.setW d.val (dataWord x)).setF (c.fl.ofLogic x)

/-- R326: write a shifted value with its flags. -/
def Core.putShift (c : Core) (d : WReg) (x : BitVec 16) (out : Bool) : Core :=
  (c.setW d.val (dataWord x)).setF (c.fl.ofShift x out)

/-- ADD (R326). -/
def execAdd (u : PUnit) (d s t : WReg) : State → Host.Outcome State Fault Refusal := onAon fun dev =>
  dev.compute u (encode 0x0C d.val s.val t.val 0 0) fun c => (c.putSum d (c.dat s) (c.dat t) false).next 1

/-- ADC (R326). -/
def execAdc (u : PUnit) (d s t : WReg) : State → Host.Outcome State Fault Refusal := onAon fun dev =>
  dev.compute u (encode 0x0D d.val s.val t.val 0 0) fun c => (c.putSum d (c.dat s) (c.dat t) c.fl.c).next 1

/-- SUB (R326). -/
def execSub (u : PUnit) (d s t : WReg) : State → Host.Outcome State Fault Refusal := onAon fun dev =>
  dev.compute u (encode 0x0E d.val s.val t.val 0 0) fun c => (c.putDiff d (c.dat s) (c.dat t) false).next 1

/-- SBC (R326): a clear C borrows. -/
def execSbc (u : PUnit) (d s t : WReg) : State → Host.Outcome State Fault Refusal := onAon fun dev =>
  dev.compute u (encode 0x0F d.val s.val t.val 0 0) fun c => (c.putDiff d (c.dat s) (c.dat t) (!c.fl.c)).next 1

/-- AND (R326). -/
def execAnd (u : PUnit) (d s t : WReg) : State → Host.Outcome State Fault Refusal := onAon fun dev =>
  dev.compute u (encode 0x10 d.val s.val t.val 0 0) fun c => (c.putLogic d (c.dat s &&& c.dat t)).next 1

/-- OR (R326). -/
def execOr (u : PUnit) (d s t : WReg) : State → Host.Outcome State Fault Refusal := onAon fun dev =>
  dev.compute u (encode 0x11 d.val s.val t.val 0 0) fun c => (c.putLogic d (c.dat s ||| c.dat t)).next 1

/-- XOR (R326). -/
def execXor (u : PUnit) (d s t : WReg) : State → Host.Outcome State Fault Refusal := onAon fun dev =>
  dev.compute u (encode 0x12 d.val s.val t.val 0 0) fun c => (c.putLogic d (c.dat s ^^^ c.dat t)).next 1

/-- NOT (R326). -/
def execNot (u : PUnit) (d s : WReg) : State → Host.Outcome State Fault Refusal := onAon fun dev =>
  dev.compute u (encode 0x13 d.val s.val 0 0 0) fun c => (c.putLogic d (~~~(c.dat s))).next 1

/-- ADDI (R326). -/
def execAddi (u : PUnit) (d s : WReg) (imm : BitVec 16) : State → Host.Outcome State Fault Refusal := onAon fun dev =>
  dev.compute u (encode 0x14 d.val s.val 0 0 imm.toNat) fun c => (c.putSum d (c.dat s) imm false).next 1

/-- SUBI (R326). -/
def execSubi (u : PUnit) (d s : WReg) (imm : BitVec 16) : State → Host.Outcome State Fault Refusal := onAon fun dev =>
  dev.compute u (encode 0x15 d.val s.val 0 0 imm.toNat) fun c => (c.putDiff d (c.dat s) imm false).next 1

/-- ANDI (R326). -/
def execAndi (u : PUnit) (d s : WReg) (imm : BitVec 16) : State → Host.Outcome State Fault Refusal := onAon fun dev =>
  dev.compute u (encode 0x16 d.val s.val 0 0 imm.toNat) fun c => (c.putLogic d (c.dat s &&& imm)).next 1

/-- ORI (R326). -/
def execOri (u : PUnit) (d s : WReg) (imm : BitVec 16) : State → Host.Outcome State Fault Refusal := onAon fun dev =>
  dev.compute u (encode 0x17 d.val s.val 0 0 imm.toNat) fun c => (c.putLogic d (c.dat s ||| imm)).next 1

/-- XORI (R326). -/
def execXori (u : PUnit) (d s : WReg) (imm : BitVec 16) : State → Host.Outcome State Fault Refusal := onAon fun dev =>
  dev.compute u (encode 0x18 d.val s.val 0 0 imm.toNat) fun c => (c.putLogic d (c.dat s ^^^ imm)).next 1

/-- CMP (R326): nothing is written. -/
def execCmp (u : PUnit) (s t : WReg) : State → Host.Outcome State Fault Refusal := onAon fun dev =>
  dev.compute u (encode 0x19 0 s.val t.val 0 0) fun c => (c.setF (c.fl.ofDiff (c.dat s) (c.dat t) false)).next 1

/-- CMPI (R326). -/
def execCmpi (u : PUnit) (s : WReg) (imm : BitVec 16) : State → Host.Outcome State Fault Refusal := onAon fun dev =>
  dev.compute u (encode 0x1A 0 s.val 0 0 imm.toNat) fun c => (c.setF (c.fl.ofDiff (c.dat s) imm false)).next 1

/-- SHL (R326). -/
def execShl (u : PUnit) (d s : WReg) (n : BitVec 4) : State → Host.Outcome State Fault Refusal := onAon fun dev =>
  dev.compute u (encode 0x1B d.val s.val 0 0 n.toNat) fun c =>
    (c.putShift d (c.dat s <<< n.toNat) (outLeft (c.dat s) n.toNat)).next 1

/-- SHR (R326): zero fill. -/
def execShr (u : PUnit) (d s : WReg) (n : BitVec 4) : State → Host.Outcome State Fault Refusal := onAon fun dev =>
  dev.compute u (encode 0x1C d.val s.val 0 0 n.toNat) fun c =>
    (c.putShift d (c.dat s >>> n.toNat) (outRight (c.dat s) n.toNat)).next 1

/-- SAR (R326): bit 15 fill. -/
def execSar (u : PUnit) (d s : WReg) (n : BitVec 4) : State → Host.Outcome State Fault Refusal := onAon fun dev =>
  dev.compute u (encode 0x1D d.val s.val 0 0 n.toNat) fun c =>
    (c.putShift d ((c.dat s).sshiftRight n.toNat) (outRight (c.dat s) n.toNat)).next 1

/-- R326: the unsigned product. -/
def product (x y : BitVec 16) : BitVec 32 := x.setWidth 32 * y.setWidth 32

/-- MUL (R326): bits 15:0 go to d, bits 31:16 to d + 1. -/
def execMul (u : PUnit) (d s t : WReg) : State → Host.Outcome State Fault Refusal := onAon fun dev =>
  dev.compute u (encode 0x1E d.val s.val t.val 0 0) fun c =>
    let p := product (c.dat s) (c.dat t)
    (((c.setW d.val (dataWord (p.extractLsb' 0 16))).setW (d.val + 1) (dataWord (p.extractLsb' 16 16))).setF
      (c.fl.ofProduct p)).next 2

/-- R326: `w + 1` low bits. -/
def lowBits (w : BitVec 4) : BitVec 16 := BitVec.ofNat 16 (2 ^ (w.toNat + 1) - 1)

/-- EXT (R326): a field of `w + 1` bits at `p`. -/
def execExt (u : PUnit) (d s : WReg) (p w : BitVec 4) : State → Host.Outcome State Fault Refusal := onAon fun dev =>
  dev.compute u (encode 0x1F d.val s.val 0 0 (w.toNat * 16 + p.toNat)) fun c =>
    (c.putLogic d ((c.dat s >>> p.toNat) &&& lowBits w)).next 1

/-- INS (R326): bits above 15 are dropped, the other bits of d kept. -/
def execIns (u : PUnit) (d s : WReg) (p w : BitVec 4) : State → Host.Outcome State Fault Refusal := onAon fun dev =>
  dev.compute u (encode 0x20 d.val s.val 0 0 (w.toNat * 16 + p.toNat)) fun c =>
    (c.putLogic d ((c.dat d &&& ~~~(lowBits w <<< p.toNat)) ||| ((c.dat s &&& lowBits w) <<< p.toNat))).next 1

/-! ### Control flow (R321, R328) -/

/-- BR (R326). A target at or above LEN faults when it is taken. -/
def execBr (u : PUnit) (cond : BitVec 4) (target : BitVec 12) : State → Host.Outcome State Fault Refusal := onAon fun dev =>
  dev.compute u (encode 0x21 cond.toNat 0 0 0 target.toNat) fun c => c.branch (c.fl.holds cond) target.toNat

/-- BTAG (R326). -/
def execBtag (u : PUnit) (s : WReg) (tg : Tag) (target : BitVec 12) : State → Host.Outcome State Fault Refusal :=
  onAon fun dev => dev.compute u (encode 0x22 0 s.val 0 tg.toNat target.toNat) fun c =>
    c.branch ((c.wreg s).tag == tg) target.toNat

/-- DBNZ (R326). -/
def execDbnz (u : PUnit) (a : AReg) (target : BitVec 12) : State → Host.Outcome State Fault Refusal := onAon fun dev =>
  dev.compute u (encode 0x23 0 0 (encodeA a.val false) 0 target.toNat) fun c =>
    (c.setA a (c.areg a - 1)).branch (c.areg a - 1 != 0) target.toNat

/-- R302, step 3, R501: the program of unit `u` ends. -/
def Dev.unitEnds (d : Dev) (u : PUnit) : Dev :=
  match u with
  | .spe k => (match (d.spe k.val).run with | some r => d.programEnds k.val r | none => d)
  | .watch => (match d.pwr.run with | some w => d.watchEnds w | none => d)

/-- END (R302, R311, R501). -/
def execEndProg (u : PUnit) : State → Host.Outcome State Fault Refusal := onAon fun dev =>
  dev.execute u (encode 0x24 0 0 0 0 0) fun e c => some (e.unitEnds u, c.next 1)

/-! ### Outputs, slots and time (R330, R331) -/

/-- Change the run of an engine; the watch engine executes none of these (R334). -/
def Dev.onRun (d : Dev) (u : PUnit) (f : Run → Option Run) : Option Dev :=
  match u with
  | .spe k => ((d.spe k.val).run.bind f).map fun r => d.setRun k.val r
  | .watch => none

/-- HDR (R326, R330). -/
def execHdr (u : PUnit) (a : AReg) : State → Host.Outcome State Fault Refusal := onAon fun dev =>
  dev.execute u (encode 0x25 0 0 (encodeA a.val false) 0 0) fun e c =>
    (e.onRun u fun r => match outIndex (c.areg a).toNat 8 with
      | some i => if r.emitted i 8 then none else some (e.headerTo r i)
      | none => none).map fun e' => (e', c.next 4)

/-- EMIT (R330). -/
def execEmit (u : PUnit) (a : AReg) (s : WReg) : State → Host.Outcome State Fault Refusal := onAon fun dev =>
  dev.execute u (encode 0x26 0 s.val (encodeA a.val false) 0 0) fun e c =>
    let len := (c.dat s).toNat % 16384
    (e.onRun u fun r =>
      match outIndex (c.areg a).toNat (outWords len) with
        | some i => e.stageOutput r i len
        | none => none).map fun e' => (e', c.next 4)

/-- SLD (R331). -/
def execSld (u : PUnit) (d s : WReg) : State → Host.Outcome State Fault Refusal := onAon fun dev =>
  dev.execute u (encode 0x27 d.val s.val 0 0 0) fun e c =>
    match u with
    | .spe k => (e.spe k.val).run.map fun r =>
      let x := e.slotLoad r (c.dat s).toNat
      (e, ((c.set64 d.val x.1).setF (Flags.ofSlot x.2)).next 6)
    | .watch => none

/-- SST (R331, R303). -/
def execSst (u : PUnit) (d s : WReg) : State → Host.Outcome State Fault Refusal := onAon fun dev =>
  dev.execute u (encode 0x28 d.val s.val 0 0 0) fun e c =>
    (e.onRun u fun r => r.slotStage (c.dat s).toNat (c.get64 d.val)).map fun e' => (e', c.next 2)

/-- TIME (R331). -/
def execTime (u : PUnit) (d : WReg) : State → Host.Outcome State Fault Refusal := onAon fun dev =>
  dev.execute u (encode 0x29 d.val 0 0 0 0) fun e c => some (e, (c.set64 d.val (stampOf e.wclk)).next 2)

end Sys2Proof.Machine
end

