-- ==== Sys2Proof/Machine/Eng.lean ====
section
/-! DEFINITION. The engine array (spec/09_engine_array.md): taking work, commit, faults, service and talker state. -/

namespace Sys2Proof.Machine

open Sys2Proof

/-! ### Taking work (R296, R297, R299, R301) -/

/-- R299: an entry that an engine may take; a re-execution holds its lock, which makes it eligible to its engine. -/
def Dev.eligibleEntry (d : Dev) (own : Bool) (e : Entry) : Bool :=
  !e.serial || (own && e.faults != 0) ||
  (e.faults == 0 && e.dnum == (d.tctl e.talker.toNat).next && !(d.tctl e.talker.toNat).lock)

/-- R301: an entry that shares do not skip: its instance has weight and credit of zero or more. -/
def Dev.preferred (d : Dev) (e : Entry) : Bool :=
  !d.on 0x050 Reg.ENG_SHARE_CFG.EN ||
  (decide (0 ≤ d.credit e.inst) && d.on 0x051 Reg.ENG_SHARE.WEIGHT e.inst)

/-- R296: the first eligible entry of a scan, an entry that shares prefer before the others. -/
def Dev.scan (d : Dev) (own : Bool) (q : List Entry) : Option Entry :=
  let es := q.filter (d.eligibleEntry own)
  (es.find? d.preferred).or es.head?

/-- Put an engine number in order of deque depth, deepest first, lowest number first among equals. -/
def insertDepth (x : Nat × Nat) : List (Nat × Nat) → List (Nat × Nat)
  | [] => [x]
  | y :: ys => if x.1 ≤ y.1 then y :: insertDepth x ys else x :: y :: ys

/-- R296: the other engines in the order in which a thief tries them. -/
def Dev.victims (d : Dev) (k : Nat) : List Nat :=
  (((List.range 72).filter (· != k)).foldl (fun acc j => insertDepth ((d.spe j).deque.length, j) acc) []).map (·.2)

/-- R296: what engine `k` takes, and whether it is stolen. A re-execution comes first wherever it stands, also in a deque to
which R308 moved it (DESIGN CHOICE, notes/assumptions/55.md). -/
def Dev.workFor (d : Dev) (k : Nat) : Option (Entry × Bool) :=
  let own := (d.spe k).deque
  match (own.find? fun e => e.faults != 0).or (d.scan true own) with
  | some e => some (e, false)
  | none => ((d.victims k).findSome? fun j => d.scan false (d.spe j).deque.reverse).map fun e => (e, true)

/-- R294, R295: entry `sid` leaves the deques; pending entries move up. -/
def Dev.leaveDeque (d : Dev) (sid : Nat) : Dev :=
  { d with eng := { d.eng with spes := d.eng.spes.mapVals .reset fun x =>
      { x with deque := x.deque.filter fun e => e.sid != sid } } }.drainPending

/-- R297: the cells of sentence `sid` enter the VOQ toward crossbar output `o`. -/
def Dev.toEngine (d : Dev) (sid o : Nat) : Dev :=
  match d.sen sid with
  | none => d
  | some s =>
    { d with swc := { d.swc with
        copies := d.swc.copies.map fun (c : Copy) => if c.sid = sid ∧ c.role = .engine then { c with place := .medium, out := o } else c
        voq := d.swc.voq ++ [⟨sid, s.inp, o, s.shb.cls.toNat, s.cells.length, false, false⟩] } }

/-- R319: the registers at the start of a run. -/
def startCore (w : List Word) (a : List (BitVec 16)) : Core :=
  ⟨(List.range 16).map fun i => if i < 4 then listGet 0 w i else 0, a, .reset, 0, 0⟩

/-- R302, step 1, R311, R314: the run of entry `e`. A program that is no longer loaded has no slots. -/
def Dev.newRun (d : Dev) (e : Entry) : Run :=
  let d0 := d.tab32 e.bank (0x208000 + 8 * e.prog)
  let wd := bitsOf (d.tab32 e.bank (0x208004 + 8 * e.prog)) 0 8
  let ws := match d.sen e.sid with | some s => sentenceWords s.shb s.body | none => []
  let r : Run := ⟨e, startCore ws [0x2008, 0x3000, 0x0010, 0x0000], bitsOf d0 0 12,
    if d.progLoaded e.bank e.prog then bitsOf d0 12 13 else 0, if wd = 0 then 65536 else wd * 256, [], [], 0, [], [], false, []⟩
  { r with emask := d.lmask r }

/-- R299: an engine that takes a serial entry sets its talker's lock. -/
def Dev.lockFor (d : Dev) (e : Entry) : Dev :=
  if e.serial then d.setTctl e.talker.toNat { d.tctl e.talker.toNat with lock := true } else d

/-- R242: the input of an entry that is handed to an engine in the cell time of its expiry or later. -/
def Dev.entryExpires (d : Dev) (e : Entry) : Option Sen :=
  match d.sen e.sid with | some s => if d.expires s then some s else none | none => none

/-- ENGINE_TAKE (R296, R302, step 1): engine `k`, which is idle, takes an entry and starts its run. An input whose lifetime
has expired fails instead (R242), unless a loss record of the dispatcher waits (R276). -/
def execEngineTake (k : Fin 72) : State → Host.Outcome State Fault Refusal := onDevL fun d =>
  if (d.spe k.val).state != .idle then d
  else match d.workFor k.val with
    | none => d
    | some x =>
      match d.entryExpires x.1 with
      | some s => if d.stageWaits 0x78 then d else d.inputExpires x.1.sid s
      | none =>
      let d := if x.2 then d.bump 0x050 Reg.ENG.STOLEN else d
      let d := ((d.leaveDeque x.1.sid).lockFor x.1).toEngine x.1.sid (spePort k.val)
      let r := d.newRun x.1
      let d := d.setSpe k.val { d.spe k.val with state := .running, run := some r }
      if r.len = 0 then d.programFault k.val else d

/-! ### Commit (R302, step 5) -/

/-- Every output was admitted, or is gone. -/
def Dev.outputsReady (d : Dev) (r : Run) : Bool :=
  r.outs.all fun sid => match d.sen sid with | some s => s.waits.isNone | none => true

/-- R228, R249: output `sid` enters its VOQs, and arrives for the tickets of its number. -/
def Dev.enterVoqs (d : Dev) (tickets : List Nat) (sid : Nat) : Dev :=
  match d.sen sid with
  | none => d
  | some s =>
    let outs := (List.range 20).filter fun o => d.swc.copies.any fun c => c.sid == sid && c.out == o
    let d := d.setSen sid { s with tickets := outs.filter tickets.contains }
    { d with swc := { d.swc with
        copies := d.swc.copies.map fun (c : Copy) => if c.sid = sid ∧ c.place = .pool then { c with place := .voq } else c
        voq := d.swc.voq ++ outs.map fun o => ⟨sid, s.inp, o, s.shb.cls.toNat, s.cells.length, false, false⟩ } }

/-- R249, R302, R305: what will arrive for the input's ticket at output `o`: nothing cancels it. -/
def Dev.ticketAtCommit (d : Dev) (r : Run) (s : Sen) (o : Nat) : Dev :=
  let n := (r.outs.filter fun sid => d.swc.copies.any fun c => c.sid == sid && c.out == o).length
  if n = 0 then d.cancelTicket o s.shb.talker s.shb.seq else d.setNeed o s.shb.talker s.shb.seq n

/-- R300: the staged talker-state words apply. -/
def Dev.applyState (d : Dev) (r : Run) : Dev :=
  r.tsw.foldl (fun d x => match x.2 with | some w => d.putState (r.ent.talker.toNat * 16 + x.1) w | none => d) d

/-- R331: of the staged writes of a slot, the later one. -/
def lastWrites : List (Nat × BitVec 64) → List (Nat × BitVec 64)
  | [] => []
  | x :: xs => if xs.any fun y => y.1 == x.1 then lastWrites xs else x :: lastWrites xs

/-- R331: the staged slot writes apply as fresh values. -/
def Dev.applySlots (d : Dev) (r : Run) : Dev :=
  (lastWrites r.sst).foldl (fun d x => d.freshWrite r.ent.bank x.1 x.2) d

/-- R302, R305: the input's reference is released and its account closed: a member to which no output is sent is in
neither mask. -/
def Dev.releaseInput (d : Dev) (r : Run) : Dev :=
  match d.sen r.ent.sid with
  | none => d
  | some s =>
    let d := d.dropSen r.ent.sid
    match d.acct s.acct with
    | none => d
    | some a =>
      let sent := fun (m : Member) => r.staged.any fun x => bitAt x.mask.toNat m.idx
      (d.setAcct s.acct { a with sealed := true, members := a.members.filter sent }).settle s.acct

/-- R313, R449, R451: a run of an instance that is being reset commits. -/
def Dev.countCompleted (d : Dev) (n : Nat) : Dev :=
  if d.on (instPage n) Reg.INST_STAT.RESETTING then d.setInst n { d.inst n with completed := (d.inst n).completed + 1 }
  else d

/-- RUN_COMMIT (R302, step 5). -/
def Dev.commitRun (d : Dev) (k : Nat) : Dev :=
  match (d.spe k).run with
  | none => d
  | some r =>
    if !r.ended || !d.outputsReady r then d
    else
      let d : Dev := match d.sen r.ent.sid with
        | none => d
        | some s =>
          let e : Dev := s.tickets.foldl (fun (d : Dev) o => d.ticketAtCommit r s o) d
          r.outs.foldl (fun (d : Dev) sid => d.enterVoqs s.tickets sid) e
      let d := (((d.applyState r).applySlots r).releaseInput r).unlockTalker r.ent
      let d := d.countCompleted r.ent.inst
      let d := (d.bump 0x050 Reg.ENG.COMMITTED).bump 0x050 Reg.ENG.EMITTED r.staged.length
      (d.debit r).engineFree k

def execRunCommit (k : Fin 72) : State → Host.Outcome State Fault Refusal := onDevL fun d => d.commitRun k.val

/-! ### Faults (R306 to R308, R311) -/

/-- R306, R308: engine `k` leaves service for QUARANTINE, moves its deque and starts its self-test at once. -/
def Dev.quarantine (d : Dev) (k : Nat) : Dev :=
  let x := d.spe k
  let e := d.setSpe k { x with state := .selfTest, run := none, faults := min 3 (x.faults + 1), rotating := false }
  let e := if x.rotating then e.maintEnd 0x050 4 else e
  let e := ((e.bump 0x050 Reg.ENG.SPE_FAULTS).raise 0x050 16).fault 0x050 0x04 k
  d.degraded (e.moveDeque k)

/-- SPE_HW_FAULT (R306 to R308): a hardware fault of an engine in service. -/
def execSpeHwFault (k : Fin 72) : State → Host.Outcome State Fault Refusal := onDevL fun d =>
  if !d.inSvc k.val then d
  else match (d.spe k.val).run with
    | none => d.quarantine k.val
    | some r => ((d.discardRun r).quarantine k.val).reexecute k.val r.ent

/-- WDOG_EXPIRED (R306, R307, R311): the cycles of a run reach its limit before its end instruction. -/
def execWdogExpired (k : Fin 72) : State → Host.Outcome State Fault Refusal := onDevL fun d =>
  match (d.spe k.val).run with
  | none => d
  | some r =>
    if r.ended || decide (r.core.cycles < r.limit) then d
    else (((d.discardRun r).bump 0x050 Reg.ENG.WDOG_EXPIRED).engineFree k.val).reexecute k.val r.ent

/-! ### Memory faults (R282) -/

/-- The engine whose run has the sentence as its input. -/
def Dev.takenBy (d : Dev) (sid : Nat) : Option (Nat × Run) :=
  d.eng.spes.findSome? fun x => match x.2.run with | some r => if r.ent.sid = sid then some (x.1, r) else none | none => none

/-- R282: a cell of sentence `sid` could not be read. An input that an engine is loading fails, and its run ends. -/
def Dev.cellUnread (d : Dev) (sid : Nat) : Dev :=
  match d.takenBy sid with
  | some x => (((d.discardRun x.2).engineFree x.1).unlockTalker x.2.ent).memFails sid
  | none => d.memFails sid

/-- R241, R242: an engine-path input that waits at the head of its VOQ toward the engine that took it has outlived its lifetime. -/
def Dev.takenExpires (d : Dev) (sid : Nat) (s : Sen) : Dev :=
  match d.takenBy sid with
  | some x => ((((d.discardRun x.2).engineFree x.1).unlockTalker x.2.ent).countLifetime s).inputFails sid 0x03 0x7C
  | none => d.inputExpires sid s

/-- LIFETIME_EXPIRY (R241, R242): a copy of member `m`, or of the engine-path input that stands for it, at the head of its queue
has outlived its lifetime. A place of which a loss record waits fails none (R276). -/
def execLifetimeExpiry (sid member : Nat) : State → Host.Outcome State Fault Refusal := onDevL fun d =>
  match d.sen sid with
  | none => d
  | some s =>
    if !d.expired s then d
    else match d.swc.copies.find? fun c => c.sid == sid && c.role == .engine && d.atHead c s with
    | some c =>
      if c.place == .medium then (if d.stageWaits 0x7C then d else d.takenExpires sid s)
      else if d.stageWaits 0x78 then d else d.inputExpires sid s
    | none =>
      (d.swc.copies.filter fun c => c.sid == sid && c.role == .member member && d.atHead c s &&
          !d.stageWaits (d.expiryPlace c)).foldl
        (fun d c => d.copyFails c 0x03 (d.expiryPlace c)) d

/-- MEM_FAULT (R282): the read of cell `cell` of sentence `sid` meets an uncorrectable error. The cells of an input that its
engine has loaded are not read again. -/
def execMemFault (sid cell : Nat) : State → Host.Outcome State Fault Refusal := onDevL fun d =>
  match d.sen sid with
  | none => d
  | some s =>
    let cells := d.cellsOf s
    if cells.length ≤ cell || ((d.takenBy sid).isSome && !(d.swc.voq.any fun x => x.sid == sid)) then d
    else
      let c := listGet (.ext 0) cells cell
      let cause := match c with | .chip _ => 0x02 | .spilling _ _ => 0x02 | _ => 0x09
      let d := if cause = 0x02 then d.bump 0x001 Reg.PCH.SRAM_UNCORR else d
      (d.cellUnread sid).fault 0x040 cause 0x7B c.handle s.shb.talker s.shb.seq

/-! ### Self-test (R308 to R310) -/

/-- SELF_TEST_DONE (R295, R308 to R310): the self-test of engine `k` ends; an engine that is in service again takes what is
pending. One told to retire before its run faulted retires. -/
def execSelfTestDone (k : Fin 72) (pass : Bool) : State → Host.Outcome State Fault Refusal := onDevL fun d =>
  let x := d.spe k.val
  if x.state != .selfTest then d
  else
    let d := if x.rotating then d.maintEnd 0x050 4 else d
    let idle : Spe := { x with state := .idle, rotating := false, returning := false }
    if x.returning then
      if pass then
        ((d.setSpe k.val { idle with retired := false, faults := 0 }).drainPending.raise 0x050 18).wr 0x050 Reg.ENG_SVC.RESULT 1
      else ((d.setSpe k.val { idle with state := .retired }).raise 0x050 22).wr 0x050 Reg.ENG_SVC.RESULT 3
    else if pass && !x.retiring && (x.rotating || decide (x.faults ≤ 2)) then (d.setSpe k.val idle).drainPending
    else
      let d := if x.retiring then d.wr 0x050 Reg.ENG_SVC.RESULT 1 else d
      if pass then d.retire k.val else (d.raise 0x050 22).retire k.val

/-- R309: the engine that the rotation tests next. -/
def Dev.nextTested (d : Dev) : Option Nat :=
  let n := d.rd 0x050 Reg.ENG_ST_CFG.NEXT
  ((List.range 72).map fun i => (n + i) % 72).find? d.inSvc

/-- SELF_TEST_ROTATION (R309): a period of the rotation ends. -/
def execSelfTestRotation : State → Host.Outcome State Fault Refusal := onDevL fun d =>
  if !d.on 0x050 Reg.ENG_ST_CFG.EN || decide (d.inService < 65) then d
  else
    let r := d.maintTake 0x050 4 0
    if !r.1 then r.2
    else match r.2.nextTested with
      | none => r.2.maintEnd 0x050 4
      | some e =>
        let d := r.2.wr 0x050 Reg.ENG_ST_CFG.NEXT ((e + 1) % 72)
        let d := d.setSpe e { d.spe e with rotating := true }
        if (d.spe e).run.isSome then d else d.startTest e

/-! ### ENG_SVC (R310) -/

/-- R310: a write of 1 to RETURN. -/
def Dev.engReturn (d : Dev) : Dev :=
  let k := d.rd 0x050 Reg.ENG_SVC.ENGINE
  if 72 ≤ k || (d.spe k).state != .retired then d.wr 0x050 Reg.ENG_SVC.RESULT 2
  else (d.setSpe k { d.spe k with state := .selfTest, returning := true }).wr 0x050 Reg.ENG_SVC.RESULT 0

/-- R310: a write of 1 to RETIRE. -/
def Dev.engRetire (d : Dev) : Dev :=
  let k := d.rd 0x050 Reg.ENG_SVC.ENGINE
  if 72 ≤ k || !d.inSvc k then d.wr 0x050 Reg.ENG_SVC.RESULT 2
  else
    let d := d.wr 0x050 Reg.ENG_SVC.RESULT 0
    if (d.spe k).run.isSome then d.setSpe k { d.spe k with retiring := true } else d.retireNow k

/-- ENG_RETURN (R310, R86). -/
def execEngReturn (via : Via) : State → Host.Outcome State Fault Refusal := onBus .engReturn via 0x050 fun d =>
  d.unlocked 0x050 fun d => d.toEngines.engReturn

/-- ENG_RETIRE (R310, R86). -/
def execEngRetire (via : Via) : State → Host.Outcome State Fault Refusal := onBus .engRetire via 0x050 fun d =>
  d.unlocked 0x050 fun d => d.toEngines.engRetire

/-! ### Shares (R301) -/

/-- R301: the weight of instance `n`, if it exists. -/
def Dev.weightOf (d : Dev) (n : Nat) : Nat :=
  if d.on (instPage n) Reg.INST_STAT.EXISTS then d.rd 0x051 Reg.ENG_SHARE.WEIGHT n else 0

/-- CREDIT_REFILL (R301): a microsecond of credit. -/
def execCreditRefill : State → Host.Outcome State Fault Refusal := onDevL fun d =>
  if !d.on 0x050 Reg.ENG_SHARE_CFG.EN then d
  else
    let total := sumOf d.weightOf (List.range 64)
    let s := d.inService
    let cap : Int := d.rd 0x050 Reg.ENG_SHARE_CFG.BURST_KC * 1024
    (List.range 64).foldl (fun e n =>
      if d.weightOf n = 0 then e
      else e.setCredit n (min cap (d.credit n + (d.weightOf n * s * 800 / total : Nat)))) d

/-! ### Talker state (R316) -/

/-- R316: the word that ENG_TS_SEL names. -/
def Dev.tsKey (d : Dev) : Nat := d.rd 0x050 Reg.ENG_TS_SEL.TALKER * 16 + d.rd 0x050 Reg.ENG_TS_SEL.WORD

/-- R316: a host write of ENG_TS_DATA. One that waits holds the LHP. -/
def Dev.tsWrite (d : Dev) (via : Via) (w : Word) : Dev :=
  if (d.tctl (d.tsKey / 16)).lock || d.eng.tsWait.any (fun x => x.1 == d.tsKey) then
    let d' := { d with eng := { d.eng with tsWait := d.eng.tsWait ++ [(d.tsKey, w, viaCode via)] } }
    if via == .lhp then d'.lhpHold else d'
  else d.putState d.tsKey w

/-- TS_WRITE (R316, R86). -/
def execTsWrite (via : Via) (data : Word) : State → Host.Outcome State Fault Refusal :=
  onBus (.tsWrite data) via 0x050 fun d =>
  d.unlocked 0x050 fun d => d.toEngines.tsWrite via data

/-- TS_WRITE_APPLY (R316). -/
def execTsWriteApply : State → Host.Outcome State Fault Refusal := onDevL Dev.tsApply

/-! ### Cancellation (R312) -/

/-- R312: the run of engine `k` is cancelled. -/
def Dev.cancelRun (d : Dev) (k : Nat) (r : Run) : Dev :=
  let d := ((d.discardRun r).unlockTalker r.ent).inputFails r.ent.sid 0x07 0x78
  (d.bump 0x050 Reg.ENG.CANCELLED).engineFree k

/-- Cells that sentences hold. -/
def Dev.heldCells (d : Dev) : Nat := sumOf (fun e => e.2.cells.length) d.swc.sens

/-- R451: the cells that a part of the reset of instance `n` returned to the pool. -/
def Dev.countFreed (d : Dev) (n before : Nat) : Dev :=
  d.setInst n { d.inst n with freed := (d.inst n).freed + (before - d.heldCells) }

/-- R312, R449: the remaining runs of instance `n` are cancelled. -/
def Dev.cancelRuns (d : Dev) (n : Nat) : Dev :=
  ((List.range 72).foldl (fun d k =>
    match (d.spe k).run with
    | some r => if r.ent.inst = n then d.cancelRun k r else d
    | none => d) d).countFreed n d.heldCells

/-- RUN_CANCEL (R312, R449): 50 µs after the reset of instance `n`, its remaining runs are cancelled. -/
def execRunCancel (n : Fin 64) : State → Host.Outcome State Fault Refusal := onDevL fun d =>
  match (d.inst n.val).resetAt with
  | none => d
  | some t => (d.reach (t + 50 * Config.perUs)).cancelRuns n.val

end Sys2Proof.Machine
end

