-- ==== Sys2Proof/Machine/StayBase.lean ====
section
/-! DEFINITION. Stay links below the messages (spec/15_stay_fabric.md): flits, credits, acknowledgement and replay (R463,
R465, R468), requests that fail (R481), the choice of paths (R473) and what it moves (R475, R487). -/

namespace Sys2Proof.Machine

open Sys2Proof

/-! ### Flits and credits -/

/-- R463: the first 16 bits of a flit. -/
def flitHead (vc kind : Nat) (last : Bool) (nw cvc crn : Nat) : BitVec 16 :=
  BitVec.ofNat 16 (vc * 16384 + kind * 4096 + b2n last * 2048 + nw * 32 + cvc * 8 + crn)

/-- R463: one bit of the CRC-16. -/
def crc16Bit (c : BitVec 16) (b : Bool) : BitVec 16 := if c.msb != b then (c <<< 1) ^^^ 0x1021 else c <<< 1

/-- R463: the CRC-16 over bits 0 to 1,007, in that order; its start value is not stated (notes/assumptions/2.md). -/
def flitCrc (ws : List (BitVec 16)) : BitVec 16 :=
  ((ws.take 63).flatMap fun w => (List.range 16).map fun i => bitAt w.toNat i).foldl crc16Bit Config.crc16Init

/-- R463: the 64 groups of 16 bits of a flit, bits 0 to 15 first. -/
def flitBits (vc kind : Nat) (last : Bool) (ws : List (BitVec 16)) (cvc crn : Nat) : List (BitVec 16) :=
  let b := flitHead vc kind last ws.length cvc crn :: (List.range 62).map fun i => listGet 0 ws i
  b ++ [flitCrc b]

/-- R463, R485: block `k` of a flit goes on lane 0 when `k` is even and on lane 1 when it is odd, or on the lane that is left. -/
def blockLane (lanes : BitVec 2) (k : Nat) : Nat := if lanes = 3 then k % 2 else if bitAt lanes.toNat 0 then 0 else 1

/-- R463: the 16 blocks of 64 bits of a flit on the wire, each with its lane. -/
def flitBlocks : Wire → List (Nat × BitVec 64)
  | .flit _ lanes vc kind last ws cvc crn =>
    let b := flitBits vc kind last ws cvc crn
    (List.range 16).map fun k =>
      let w := fun i => listGet (0 : BitVec 16) b (4 * k + i)
      (blockLane lanes k, w 3 ++ w 2 ++ w 1 ++ w 0)
  | _ => []

/-- R463: the flits of a message of these words. -/
def flitsOf (ws : List (BitVec 16)) : Nat := max 1 ((ws.length + 61) / 62)

def StayMsg.unsent (m : StayMsg) : Nat := flitsOf m.words - m.sent

/-- R466: VC3 messages pass from step 3 of training on. -/
def StayLink.live (x : StayLink) : Bool := x.isUp || decide (3 ≤ x.step)

/-- The link's page is enabled, and its pins do not stand at the safe level (R466, R509). -/
def Dev.linkOn (d : Dev) (l : Nat) : Bool := d.on (linkPage l) Reg.PG_CTRL.EN_link && !d.pwr.silent

/-- R468: a flit of message `m` may be sent at moment `now`. VC3 has no credits and does not wait for the window of R465. -/
def StayLink.mayFlit (x : StayLink) (now : Nat) (m : StayMsg) : Bool :=
  m.unsent != 0 && decide (m.after ≤ now) && (m.vc == 3 || (x.isUp && decide (0 < listGet 0 x.cred (4 * m.vc + m.hc)) &&
  decide (x.unacked.length < 128)))

/-- The message of channel `v` whose flit goes next: one that is begun, else the first that may begin. -/
def StayLink.nextOf (x : StayLink) (now v : Nat) : Option StayMsg :=
  match x.queue.find? fun m => m.vc == v && m.sent != 0 && m.unsent != 0 with
  | some m => if x.mayFlit now m then some m else none
  | none => x.queue.find? fun m => m.vc == v && x.mayFlit now m

/-- What the link sends next. -/
def StayLink.nextMsg (x : StayLink) (now : Nat) : Option StayMsg := [3, 2, 1, 0].findSome? (x.nextOf now)

/-- Replace the first message that equals `m`. -/
def putMsg (m n : StayMsg) : List StayMsg → List StayMsg
  | [] => []
  | x :: xs => if x = m then n :: xs else x :: putMsg m n xs

/-- Remove the first message that equals `m`. -/
def dropMsg (m : StayMsg) : List StayMsg → List StayMsg
  | [] => []
  | x :: xs => if x = m then xs else x :: dropMsg m xs

/-- R276, R469: VC0 flits of link `l` that still fill its receive buffer. -/
def Dev.heldFlits (d : Dev) (l : Nat) : Nat :=
  let x := d.link l
  (SMap.get (fun _ => []) x.part 0).length / 62 + sumOf (fun m => flitsOf m.2) x.inbox +
    sumOf (fun e => if e.2.org == .stay l && e.2.waits.isSome then (11 + payWords e.2.shb.len.toNat + 61) / 62 else 0) d.swc.sens

/-- R468, R482: flits of VC1 or VC2 of link `l` that still fill its receive buffers: those of messages to be passed on, and of
requests that wait for the register bus. -/
def Dev.passFlits (d : Dev) (l v : Nat) : Nat :=
  sumOf (fun k => sumOf (fun m => if m.vc == v && m.inl == some l then StayMsg.unsent m else 0) (d.link k).queue) (List.range 4) +
    sumOf (fun q => match q with | .far k _ => b2n (v == 1 && k.val == l) | _ => 0) d.sty.busQ

/-- R468: credits of channel `v` that can be returned: the receiver has freed their flits. -/
def Dev.creditsDue (d : Dev) (l v : Nat) : Nat :=
  listGet 0 (d.link l).due v - (if v = 0 then d.heldFlits l else d.passFlits l v)

/-- R463: the credits that the next flit returns, and the state after it. -/
def Dev.takeDue (d : Dev) (l : Nat) : (Nat × Nat) × Dev :=
  match [2, 1, 0].find? fun v => d.creditsDue l v != 0 with
  | none => ((0, 0), d)
  | some v =>
    let n := min 7 (d.creditsDue l v)
    let x := d.link l
    ((v, n), d.setLink l { x with due := listSet x.due v (listGet 0 x.due v - n) })

/-- R463, R465: send the next flit of message `m`. -/
def Dev.sendFlit (d : Dev) (l : Nat) (m : StayMsg) : Dev :=
  let r := d.takeDue l
  let d := r.2
  let x := d.link l
  let i := m.sent
  let ws := (m.words.drop (62 * i)).take 62
  let last := i + 1 == flitsOf m.words
  let kind := if i = 0 then 1 else 2
  let n : StayMsg := { m with sent := i + 1 }
  let cred := if m.vc = 3 then x.cred else listSet x.cred (4 * m.vc + m.hc) (listGet 0 x.cred (4 * m.vc + m.hc) - 1)
  let queue := if last && m.vc != 0 then dropMsg m x.queue else putMsg m n x.queue
  let f : StayFlit := ⟨x.txCount + 1, m.vc, kind, last, ws, m.copy, r.1.1, r.1.2⟩
  let d := d.setLink l { x with cred := cred, queue := queue, txCount := x.txCount + 1, unacked := x.unacked ++ [f] }
  (d.emitWire (.flit l x.lanes m.vc kind last ws r.1.1 r.1.2)).bump (linkPage l) Reg.STYL.FLITS_TX

/-- R463: an idle flit that returns credits. -/
def Dev.sendIdle (d : Dev) (l : Nat) : Dev :=
  let r := d.takeDue l
  if r.1.2 = 0 then d else r.2.emitWire (.flit l (d.link l).lanes 0 0 false [] r.1.1 r.1.2)

/-- Send what may be sent on link `l`. -/
def Dev.pumpN (d : Dev) (l : Nat) : Nat → Dev
  | 0 => d
  | n + 1 =>
    match (d.link l).nextMsg d.now with
    | some m => (d.sendFlit l m).pumpN l n
    | none => d

def Dev.idles (d : Dev) (l : Nat) : Nat → Dev
  | 0 => d
  | n + 1 => (d.sendIdle l).idles l n

/-- Send what may be sent on link `l`, and return the credits that are left. -/
def Dev.pump (d : Dev) (l : Nat) : Dev :=
  if !d.linkOn l || !(d.link l).live then d
  else (d.pumpN l (sumOf StayMsg.unsent (d.link l).queue)).idles l 32

/-- Send what may be sent on every link, and return the credits that this frees (R468). -/
def Dev.pumpAll (d : Dev) : Dev := (List.range 8).foldl (fun d i => d.pump (i % 4)) d

/-- Put a message in the queue of link `l` and send what may be sent. -/
def Dev.sendMsg (d : Dev) (l : Nat) (m : StayMsg) : Dev :=
  let x := d.link l
  (d.setLink l { x with queue := x.queue ++ [m] }).pump l

/-! ### Messages on VC3 (R471) -/

def w16 (n : Nat) : BitVec 16 := BitVec.ofNat 16 n

/-- R471: a time in the form of W4 to W7. -/
def timeWords (t : BitVec 64) : List (BitVec 16) := (List.range 4).map fun i => w16 (bitsOf t (16 * i) 16)

/-- R471: send a VC3 message of a type with a sequence number of its own or an echoed one. -/
def Dev.sendVc3 (d : Dev) (l type : Nat) (echo : Option (BitVec 8)) (ws : List (BitVec 16)) : Dev :=
  let x := d.link l
  let seq := SMap.get (fun _ => (0 : BitVec 8)) x.seqs type
  let d := if echo.isSome then d
    else d.setLink l { x with seqs := SMap.put (fun _ => (0 : BitVec 8)) x.seqs type (seq + 1) }
  let m0 := w16 (type + 16 * d.pwr.devId + 256 * (echo.getD seq).toNat)
  d.sendMsg l ⟨3, 0, none, m0 :: ws, 0, none, 0⟩

/-- R471: tell the peer which lanes are good. When LANE_STAT is sent is not stated (notes/assumptions/36.md). -/
def Dev.sendLaneStat (d : Dev) (l : Nat) : Dev := d.sendVc3 l 8 none [w16 (d.link l).lanes.toNat]

/-! ### Acknowledgement (R465, R475) -/

/-- R475: a copy whose message is acknowledged is delivered. -/
def Dev.copyAcked (d : Dev) (l : Nat) (c : Nat × Nat) : Dev :=
  let x := d.link l
  let d := match x.queue.find? fun m => m.vc == 0 && m.copy == some c && m.unsent == 0 with
    | some m => d.setLink l { x with queue := dropMsg m x.queue }
    | none => d
  match d.swc.copies.find? fun y => y.sid == c.1 && y.role == .member c.2 && y.set == 0x18 + l with
  | some y => d.deliver y
  | none => d

/-- R489: link `l` failed in this cell time, and the flits up to `count` had arrived: their sentences are delivered, and not sent
again. -/
def Dev.lateAck (d : Dev) (l : Nat) (count : BitVec 8) : Dev :=
  let x := d.link l
  if x.lostAt / Config.cellTime = d.now / Config.cellTime ∧ (x.lost.any fun f => f.count == count) = true then
    let rest := ((x.lost.dropWhile fun f => f.count != count).drop 1)
    let gone := x.lost.take (x.lost.length - rest.length)
    let d := d.setLink l { x with lost := rest }
    gone.foldl (fun (d : Dev) f => match f.copy with
      | some c =>
        if f.last then
          let d := (List.range 4).foldl (fun (d : Dev) k =>
            d.setLink k { d.link k with queue := (d.link k).queue.filter fun m => !(m.vc == 0 && m.copy == some c) }) d
          match d.swc.copies.find? fun y => y.sid == c.1 && y.role == .member c.2 && between 0x18 0x1B y.set with
          | some y => d.deliver y
          | none => d
        else d
      | none => d) d
  else d

/-- R465: the flits up to `count` are acknowledged. -/
def Dev.ackTo (d : Dev) (l : Nat) (count : BitVec 8) : Dev :=
  let x := d.link l
  if x.unacked.any fun f => f.count == count then
    let rest := ((x.unacked.dropWhile fun f => f.count != count).drop 1)
    let gone := x.unacked.take (x.unacked.length - rest.length)
    let d := d.setLink l { x with unacked := rest, replays := 0 }
    gone.foldl (fun d f => match f.copy with | some c => if f.last then d.copyAcked l c else d | none => d) d
  else d

/-- R465: replay the flits that are not acknowledged, as they were sent. -/
def Dev.replay (d : Dev) (l : Nat) : Dev :=
  let x := d.link l
  if x.unacked.isEmpty then d
  else
    let d := (d.setLink l { x with replays := x.replays + 1 }).bump (linkPage l) Reg.STYL.REPLAYS
    x.unacked.foldl (fun d f =>
      (d.emitWire (.flit l (d.link l).lanes f.vc f.kind f.last f.words f.cvc f.crn)).bump (linkPage l) Reg.STYL.FLITS_TX) d

/-! ### Credits that come back (R468) -/

/-- The first class from `h` on (modulo 4) of channel `v` that holds fewer credits than were granted. -/
def StayLink.classFor (x : StayLink) (v h : Nat) : Option Nat :=
  ((List.range 4).map fun i => (h + i) % 4).find? fun c => decide (listGet 0 x.cred (4 * v + c) < listGet 0 x.cmax v)

/-- R468: `n` credits of channel `v` return. A flit does not name their hop class (notes/assumptions/1.md). -/
def Dev.creditsBack (d : Dev) (l v : Nat) : Nat → Dev
  | 0 => d
  | n + 1 =>
    let x := d.link l
    let d := match if v = 3 then none else x.classFor v (d.freeBits.toNat % 4) with
      | some c => d.drawn.setLink l { x with cred := listSet x.cred (4 * v + c) (listGet 0 x.cred (4 * v + c) + 1) }
      | none => d
    d.creditsBack l v n

/-! ### Remote requests that end (R481, R484, R491) -/

/-- R481: the codes of STY_REM_ERR.CODE. -/
inductive RemFail where
  | noPath
  | timeout
  | locked
  | retry
  | unsupported
  | linkLost
  deriving DecidableEq, Repr

def RemFail.code : RemFail → Nat
  | .noPath => 1 | .timeout => 2 | .locked => 3 | .retry => 4 | .unsupported => 5 | .linkLost => 6

/-- R490: STY_ATOM_STAT.RESULT. A lost link leaves no completion, as a timeout does. -/
def RemFail.result : RemFail → Nat
  | .retry => 1 | .locked => 2 | .unsupported => 3 | .noPath => 4 | .timeout => 5 | .linkLost => 5

def ReqOp.isRead : ReqOp → Bool
  | .read => true | _ => false

/-- R491: log a failure. -/
def Dev.logRemote (d : Dev) (q : StayReq) (why : RemFail) : Dev :=
  let d := d.bump 0x060 Reg.STY.REM_ERRORS
  let old := d.rd 0x060 Reg.STY_REM_ERR.ALL
  let d := if d.on 0x060 Reg.STY_REM_ERR.VALID then d.wr 0x060 Reg.STY_REM_ERR.ALL (Nat.lor old (2 ^ 30))
    else (d.wr 0x060 Reg.STY_REM_ERR.ALL (q.off % 2 ^ 20 + q.dev * 2 ^ 20 + why.code * 2 ^ 24 + viaCode q.via * 2 ^ 27 +
      b2n (!ReqOp.isRead q.op) * 2 ^ 29)).wr 0x060 Reg.STY_REM_ERR.VALID 1
  d.raise 0x060 16

/-- R482, R484: an AtomicOp completes with a result; the own register bus is released. -/
def Dev.atomEnds (d : Dev) (q : StayReq) (result : Nat) (val : Option (BitVec 64)) : Dev :=
  let d := (d.wr 0x060 Reg.STY_ATOM_STAT.RESULT result).wr 0x060 Reg.STY_ATOM_STAT.DEV q.dev
  let d := if result = 1 then d.bump 0x060 Reg.STY.ATOM_RETRIES else d
  let d := { d with sty := { d.sty with busBy := none } }
  match q.via with
  | .pcie fn => d.emitWire (.atomic fn.val val)
  | _ => d

/-- R91, R481: return a read of 32 bits to its source; over the LHP all 32 bits are latched. -/
def Dev.readBack (d : Dev) (via : Via) (addr : Nat) (tag : Tag) (v : BitVec 32) (high : Bool := false) : Dev :=
  match via with
  | .lhp =>
    if high then { d with hbr := { d.hbr with latch := none, lwait := none } }.emitWire (.read .lhp tag (v >>> 16))
    else { d with hbr := { d.hbr with latch := some (addr, v), lwait := none } }.emitWire (.read .lhp tag (v &&& 0xFFFF))
  | _ => d.emitWire (.read via 0 v)

/-- R90, R99: the LHP address of an offset of a remote window. -/
def remoteAddr (dev off : Nat) : Nat := 0x1000000 + dev * 0x100000 + off

/-- R481: request `q` fails. -/
def Dev.remoteFails (d : Dev) (q : StayReq) (why : RemFail) : Dev :=
  let d := d.logRemote q why
  match q.op with
  | .read => d.readBack q.via (remoteAddr q.dev q.off) 3 0xFFFFFFFF q.high
  | .write _ => (match q.via with | .lhp => { d with hbr := { d.hbr with lwait := none } } | _ => d)
  | .atom _ _ => d.atomEnds q why.result none

/-- R478: reads that have completed and that no earlier write of their source to their device holds back; `before` are the
requests issued before. -/
def readsFree : List StayReq → List StayReq → List StayReq
  | _, [] => []
  | before, r :: rs =>
    let waits := before.any fun o =>
      viaCode o.via == viaCode r.via && o.dev == r.dev && !ReqOp.isRead o.op && o.got.isNone
    if r.got.isSome && !waits then r :: readsFree before rs else readsFree (before ++ [r]) rs

/-- Take a request off the list. -/
def Dev.dropReq (d : Dev) (q : StayReq) : Dev :=
  { d with sty := { d.sty with reqs := d.sty.reqs.filter fun r => r.num != q.num } }

/-- R90: LD[17:16] of the read of a far register: its tag, when the register holds a word. -/
def StayReq.tagOf (r : StayReq) : Tag :=
  if !r.high && regWord (r.off / 0x1000) (r.off % 0x1000 / 4 * 4) then (r.got.getD 0).extractLsb' 16 2 else 0

/-- R478, R481: reads that waited for an earlier write alone return their values. -/
def Dev.readsReturn (d : Dev) : Dev :=
  (readsFree [] d.sty.reqs).foldl (fun (d : Dev) r =>
    (d.dropReq r).readBack r.via (remoteAddr r.dev r.off) r.tagOf ((r.got.getD 0).setWidth 32) r.high) d

/-- R481: request `q` is outstanding and fails. -/
def Dev.reqFails (d : Dev) (q : StayReq) (why : RemFail) : Dev := ((d.dropReq q).remoteFails q why).readsReturn

/-! ### Issuing requests (R470, R478, R479) -/

/-- R470: the words of a value, least significant first. -/
def valueWords (n : Nat) (v : BitVec 64) : List (BitVec 16) := (List.range n).map fun i => w16 (bitsOf v (16 * i) 16)

/-- R470: OP, WIDE and the data words of a request. -/
def ReqOp.code : ReqOp → Nat
  | .read => 0
  | .write _ => 1
  | .atom op wide => (match op with | .fetchAdd _ => 2 | .swap _ => 3 | .cas _ _ => 4) + 8 * b2n wide

def ReqOp.words : ReqOp → List (BitVec 16)
  | .read => []
  | .write v => valueWords 2 (v.setWidth 64)
  | .atom op wide =>
    let n := if wide then 4 else 2
    match op with
    | .fetchAdd v => valueWords n v
    | .swap v => valueWords n v
    | .cas a b => valueWords n a ++ valueWords n b

/-- R470: the message of request `q` with tag `t`. -/
def Dev.reqWords (d : Dev) (q : StayReq) (t : Nat) : List (BitVec 16) :=
  [w16 (q.dev + 16 * d.pwr.devId + 1024 * ReqOp.code q.op + 16384 * viaCode q.via), w16 (t + 256 * q.be.toNat), w16 q.off,
   w16 (q.off / 65536)] ++ ReqOp.words q.op

/-- R490: requests issued. -/
def Dev.countReq (d : Dev) (op : ReqOp) : Dev :=
  match op with
  | .read => d.bump 0x060 Reg.STY.REM_READS
  | .write _ => d.bump 0x060 Reg.STY.REM_WRITES
  | .atom _ _ => d.bump 0x060 Reg.STY.ATOM_OPS

/-- R479: a tag that is not in use. -/
def Dev.freeTag (d : Dev) : Option Nat :=
  (List.range 64).find? fun t => !(d.sty.reqs.any fun q => q.tag == some t && q.got.isNone)

/-- R468, R469: VC2 of link `l` has room for one more completion of device `n`, of one flit, in a hop class of 8 flits. The
completions of the neighbour come in hop class 0; the class of the others is not known, so that they share the room of one. -/
def Dev.replyRoom (d : Dev) (l n : Nat) : Bool :=
  let near := fun (m : Nat) => m == (d.link l).peerDev
  decide ((d.sty.reqs.filter fun q => q.tag.isSome && q.link == l && q.got.isNone && near q.dev == near n).length < 8)

/-- R478: an earlier request of the source of `q` to its device is outstanding on a link other than `l`. -/
def Dev.elsewhere (d : Dev) (q : StayReq) (l : Nat) : Bool :=
  d.sty.reqs.any fun r => r.tag.isSome && r.got.isNone && r.dev == q.dev && viaCode r.via == viaCode q.via && r.link != l

/-- R469, R478, R479: a tag for request `q`, if it may leave: there is a free one, room for its completion, and no earlier request
that it could overtake. -/
def Dev.tagFor (d : Dev) (q : StayReq) : Option Nat :=
  match d.pathOf q.dev with
  | some (l, _) => if d.replyRoom l q.dev && !d.elsewhere q l then d.freeTag else none
  | none => d.freeTag

/-- R478, R479: request `q` leaves with tag `t`. -/
def Dev.reqLeaves (d : Dev) (q : StayReq) (t : Nat) : Dev :=
  match d.pathOf q.dev with
  | none => d.reqFails q .noPath
  | some (l, _) =>
    let n : StayReq := { q with tag := some t, link := l, at_ := d.now }
    let reqs := d.sty.reqs.map fun r => if r.num = q.num then n else r
    ({ d with sty := { d.sty with reqs := reqs } }.countReq q.op).sendMsg l ⟨1, 0, none, d.reqWords q t, 0, none, 0⟩

/-- R469, R479: requests that wait for a tag, or for room for their completion, leave in order. -/
def Dev.reqsLeave (d : Dev) : Dev :=
  (d.sty.reqs.filter fun q => q.tag.isNone).foldl (fun (d : Dev) q =>
    match d.tagFor q with | some t => d.reqLeaves q t | none => d) d

/-- R479, R99: a new request. -/
def Dev.reqNew (d : Dev) (via : Via) (dev off : Nat) (be : BitVec 4) (op : ReqOp) (high : Bool) : Dev :=
  let num := 1 + maxOf (d.sty.reqs.map fun q => q.num)
  let q : StayReq := ⟨num, none, via, dev, off, be, op, 0, d.now, none, high⟩
  let d := { d with sty := { d.sty with reqs := d.sty.reqs ++ [q] } }.reqsLeave
  if d.sty.reqs.any fun r => r.num == num && r.tagless then d.bump 0x010 Reg.HBR.HOLDS else d

/-! ### Paths (R473) -/

/-- R473: the path of the entry of device `n`. -/
def Dev.pathFor (d : Dev) (n : Nat) : Option (Nat × Nat) := d.pathBy (fun f => d.rd 0x060 f n) n

/-- R534: the path to worker `n`, to which a session of the manager is passed, has failed: the session ends with ABORTED. The
worker's ends when its 10 s have passed (R532). -/
def Dev.relayLost (d : Dev) (n : Nat) : Dev :=
  let s := d.mst.sess
  if s.st == .idle || !d.pwr.manager || s.target == d.pwr.devId || s.target != n then d
  else
    ({ d with mst := { d.mst with sess := { Session.reset with result := 0xB } } }.wr 0x008 Reg.MST_DOWNGRADE.PERMIT 0).maintEnd
      0x008 8

/-- R473: device number `n` chooses again. -/
def Dev.choosePath (d : Dev) (n : Nat) : Dev :=
  let old := d.pathOf n
  let new := d.pathFor n
  if old = new then d
  else
    let d := { d with sty := { d.sty with path := SMap.put (fun _ => none) d.sty.path n new } }
    match old, new with
    | some _, some _ => d.bump 0x060 Reg.STY.REROUTES
    | some l, none =>
      let d := d.relayLost n
      if d.on 0x060 Reg.STY_TOPO.VALID n && n != d.pwr.devId then d.fault 0x060 0x10 (0x18 + l.1) else d
    | none, _ => d

/-- The device toward which a Stay copy goes, and its path. -/
def Dev.stayPath (d : Dev) (sid m : Nat) : Option Nat :=
  match (d.sen sid).bind fun s => (d.acct s.acct).bind fun x => x.members.find? fun y => y.idx == m with
  | some y => (match y.dest with | .stay n _ _ => (d.pathOf n).map (·.1) | _ => none)
  | none => none

/-- R475, R487: the link that copy `c` moves to, when that is not the one it is queued toward. -/
def Dev.movesTo (d : Dev) (c : Copy) : Option Nat :=
  match c.role with
  | .member m =>
    if between 0x18 0x1B c.set then
      (match d.stayPath c.sid m with | some l => if 0x18 + l = c.set then none else some l | none => none)
    else none
  | .engine => none
  | .record => none

/-- A copy on its way to another link: one held for order stands in the egress queue there. -/
def Copy.toLink (c : Copy) (l : Nat) : Copy :=
  { c with set := 0x18 + l, out := 8 + l, place := if c.place = .reseq then .egress else c.place }

/-- R229, R487: take copy `c` to the end of the queue of link `l`. What had not crossed enters the VOQ to the new output behind what
entered it before, and its number is no longer awaited at the old one. -/
def Dev.moveCopy (d : Dev) (c : Copy) (l : Nat) : Dev :=
  let n := c.toLink l
  let copies := (d.swc.copies.filter fun x => !c.is x) ++ [n]
  let stays := copies.any fun x => x.sid == c.sid && x.out == c.out
  let here := copies.any fun x => x.sid == c.sid && x.out == n.out && !n.is x
  let mine := fun (x : Cross) => x.sid == c.sid && x.out == c.out && c.place == .voq
  let left := d.swc.voq.filter fun x => !mine x || stays
  let came := if here then [] else (d.swc.voq.filter mine).map fun x => { x with out := n.out }
  let d := { d with swc := { d.swc with copies := copies, voq := left ++ came } }
  match d.sen c.sid with
  | some s =>
    if !stays && s.tickets.contains c.out && c.place != .egress then
      (d.setSen c.sid { s with tickets := s.tickets.filter (· != c.out) }).ticketLess c.out c.sid s
    else d
  | none => d

/-- R475, R487: a message that is not acknowledged moves with its copy, unless its link still carries it. -/
def Dev.moveMsg (d : Dev) (l : Nat) (m : StayMsg) : Dev :=
  match m.copy with
  | none => d
  | some (sid, mem) =>
    match d.stayPath sid mem with
    | none => d
    | some k =>
      if k = l then d
      else
        let x := d.link l
        let d := d.setLink l { x with queue := dropMsg m x.queue }
        let y := d.link k
        let d := d.setLink k { y with queue := y.queue ++ [{ m with sent := 0 }] }
        match d.swc.copies.find? fun c => c.sid == sid && c.role == .member mem && c.set == 0x18 + l with
        | some c => d.moveCopy c k
        | none => d

/-- R487: move what is queued toward link `l` and has another path now, the unacknowledged messages first. -/
def Dev.moveFrom (d : Dev) (l : Nat) : Dev :=
  let d := if (d.link l).isUp then d
    else ((d.link l).queue.filter fun m => m.vc == 0).foldl (fun d m => d.moveMsg l m) d
  (d.swc.copies.filter fun c => c.set == 0x18 + l && c.place != .medium && c.place != .pool).foldl (fun d c =>
    match d.movesTo c with | some k => d.moveCopy c k | none => d) d

/-- R391, R473: the upstream link of a worker. -/
def Dev.upstream (d : Dev) : Option Nat := if d.pwr.manager then none else (d.pathOf 0).map (·.1)

/-- R473: a change of link state or of an entry: every entry chooses again, and what is queued follows. -/
def Dev.choosePaths (d : Dev) : Dev :=
  let d := (List.range 16).foldl (fun d n => d.choosePath n) d
  let d := match d.upstream with
    | some l => { d with tbu := { d.tbu with link := l } }
    | none => d
  let d := (List.range 4).foldl (fun d l => d.moveFrom l) d
  (List.range 4).foldl (fun d l => d.pump l) d

/-! ### A link that fails, is held, or is switched (R466, R487) -/

/-- What a link keeps when it no longer carries flits: accepted messages, and the VC0 messages to be sent again. -/
def StayLink.cut (x : StayLink) : StayLink :=
  { x with step := 0, lanes := 0, cred := StayLink.reset.cred, cmax := StayLink.reset.cmax, due := StayLink.reset.due,
           txCount := 0, rxCount := 0, nak := false, unacked := [], part := [], timeReq := none, replays := 0, peerLanes := 3,
           retrain := false, sinceAck := 0,
           queue := (x.queue.filter fun m => m.vc == 0).map fun m => { m with sent := 0 } }

/-- R486: a retraining under way ends. -/
def Dev.retrainEnds (d : Dev) (l result : Nat) : Dev :=
  if (d.link l).retrain then
    let d := d.setLink l { d.link l with retrain := false }
    ((d.wr (linkPage l) Reg.STY_LINK_RETRAIN.RESULT result).wr (linkPage l) Reg.STY_LINK_RETRAIN.START 0).maintEnd (linkPage l) 5
  else d

/-- R481: requests that left on link `l` and have no completion fail. -/
def Dev.failReqs (d : Dev) (l : Nat) : Dev :=
  (d.sty.reqs.filter fun q => q.tag.isSome && q.link == l && q.got.isNone).foldl (fun d q => d.reqFails q .linkLost) d

/-- R487: link `l`, which was UP or DEGRADED, enters HOLD. R489: what it did not see acknowledged is sent again after this cell
time. -/
def Dev.stayHold (d : Dev) (l : Nat) : Dev :=
  let d := d.retrainEnds l 3
  let t := d.now + d.rd (linkPage l) Reg.STY_LINK_CFG.HOLD_US * Config.perUs
  let next := (d.now / Config.cellTime + 1) * Config.cellTime
  let x := (d.link l).cut
  let d := d.setLink l { x with
    state := .hold, holdAt := some t, lost := (d.link l).unacked, lostAt := d.now
    queue := x.queue.map fun m => { m with after := next } }
  ((d.failReqs l).choosePaths).reqsLeave

/-- R485, R487: link `l` fails, with its last lane `k` if one is named. R558: the records of page 0x060 come first, then those of
the link in the order of their causes. -/
def Dev.linkFailsBy (d : Dev) (l : Nat) (k : Option Nat) : Dev :=
  if (d.link l).isUp then
    let d := ((d.raise (linkPage l) 17).bump (linkPage l) Reg.STYL.LINK_DOWNS).stayHold l
    let d := match k with | some k => d.fault (linkPage l) 0x0E (0x18 + l) k | none => d
    d.fault (linkPage l) 0x0F (0x18 + l)
  else d.setLink l (d.link l).cut

/-- R487: link `l` fails. -/
def Dev.linkFails (d : Dev) (l : Nat) : Dev := d.linkFailsBy l none

/-- R133, R136, R487: the hold of link `l` expires: everything held for it fails with LINK_DOWN. -/
def Dev.stayHoldExpiry (d : Dev) (l : Nat) : Dev :=
  match (d.link l).state, (d.link l).holdAt with
  | .hold, some t =>
    let d := d.reach t
    let x := d.link l
    let st : StayState := if d.on (linkPage l) Reg.PG_CTRL.EN_link then .down else .disabled
    let d := d.setLink l { x with state := st, holdAt := none, queue := x.queue.filter fun m => m.vc != 0 }
    (d.swc.copies.filter fun c => c.set == 0x18 + l && c.place != .pool).foldl (fun d c => d.copyFails c 0x02 (0x18 + l)) d
  | _, _ => d

/-- R466: EN of link page `l` turns to 1. -/
def Dev.stayOn (d : Dev) (l : Nat) : Dev :=
  let d := d.wr (linkPage l) Reg.PG_CTRL.EN_link 1
  if (d.link l).state == .disabled then d.setLink l { d.link l with state := .train, refuse := 0 } else d

/-- R133, R487: EN of link page `l` turns to 0. -/
def Dev.stayOff (d : Dev) (l : Nat) : Dev :=
  let d := d.wr (linkPage l) Reg.PG_CTRL.EN_link 0
  match (d.link l).state with
  | .up => d.stayHold l
  | .degraded => d.stayHold l
  | .hold => d.setLink l { d.link l with step := 0 }
  | _ => d.setLink l { (d.link l).cut with state := .disabled }

end Sys2Proof.Machine
end

