-- ==== Sys2Proof/Machine/Tbu.lean ====
section
/-! DEFINITION. The time base (spec/12_time_base.md): snapshots (R365), domains (R367 to R370), their relay over a board
(R396), event inputs (R381), periodic outputs (R382, R383), and the discipline of a worker's clock (R392 to R395). -/

namespace Sys2Proof.Machine

open Sys2Proof

/-! ### Snapshots (R365) -/

/-- R365: latch the working clock and the domain times for a source. -/
def Dev.snap (d : Dev) (src : Nat) : Dev :=
  let s : Snap := ⟨d.wclk, (List.range 4).map d.domTime⟩
  { d with tbu := { d.tbu with snaps := SMap.put (fun _ => .reset) d.tbu.snaps src s } }

/-- SNAPSHOT (R365, R86). -/
def execSnapshot (via : Via) : State → Host.Outcome State Fault Refusal := onBus .snapshot via 0x020 fun d =>
  d.unlocked 0x020 fun d => d.snap (viaCode via)

/-! ### Periodic outputs (R382, R383) -/

def Dev.tso (d : Dev) (o : Nat) : Tso := SMap.get (fun _ => .reset) d.tbu.tsos o
def Dev.setTso (d : Dev) (o : Nat) (x : Tso) : Dev :=
  { d with tbu := { d.tbu with tsos := SMap.put (fun _ => .reset) d.tbu.tsos o x } }

/-- R382, R383: PERIOD_NS and HIGH_NS of output `o`, in units of 2^-44 ns. -/
def Dev.tsoPeriod (d : Dev) (o : Nat) : Nat := (if o = 4 then 1000000000 else d.rd 0x022 Reg.TSO_PERIOD_NS.PERIOD o) * perNs
def Dev.tsoHigh (d : Dev) (o : Nat) : Nat := d.rd 0x022 Reg.TSO_HIGH_NS.HIGH o * perNs

/-- R384: START of output `o`. -/
def Dev.tsoStartTime (d : Dev) (o : Nat) : Nat :=
  instantOf (d.rd 0x022 Reg.TSO_START_S_HI.S o) (d.rd 0x022 Reg.TSO_START_S.S o)
    (if o = 4 then 0 else d.rd 0x022 Reg.TSO_START_NS.NS o)

def Dev.tsoClock (d : Dev) (o : Nat) : Nat := d.rd 0x022 Reg.TSO_CTRL.CLOCK o

/-- R502, R509: the device has started as far as its forwarding, and is not asleep. -/
def Dev.timeRuns (d : Dev) : Bool :=
  (match d.pwr.boot with | .waitFwd => true | .running => true | _ => false) &&
  (match d.pwr.power with | .furled => false | .struck => false | .waking => false | _ => true)

/-- R382, R505, R509: the output may run: its settings are good and the device has started. In a soft reset and in the safe state
it runs on. -/
def Dev.tsoRuns (d : Dev) (o : Nat) : Bool := d.on 0x022 Reg.TSO_CTRL.EN o && !d.tsoBad o && d.timeRuns

/-- R382: the time of rising edge `n`. -/
def Dev.tsoEdge (d : Dev) (o n : Nat) : Nat := d.tsoStartTime o + n * d.tsoPeriod o

/-- The first rising edge that does not lie before the output's clock. -/
def Dev.tsoFirst (d : Dev) (o : Nat) : Nat :=
  let u := d.clockTime (d.tsoClock o)
  if u ≤ d.tsoStartTime o then 0 else (u - d.tsoStartTime o + d.tsoPeriod o - 1) / d.tsoPeriod o

/-- R382: what the edges of output `o` are counted under. -/
def Dev.tsoBase (d : Dev) (o : Nat) : Nat × Nat × Nat := (d.tsoStartTime o, d.tsoPeriod o, d.tsoClock o)

/-- Drive output `o` to a level. -/
def Dev.tsoDrive (d : Dev) (o : Nat) (level : Bool) : Dev :=
  if (d.tso o).level = level then d else (d.setTso o { d.tso o with level := level }).emitWire (.tso o level)

/-- R382, R509: output `o` takes its settings: one that runs under the same START, PERIOD_NS and CLOCK runs on; else it stands low,
or at its idle level while it does not run, and begins with the next edge to come that it has not produced. -/
def Dev.tsoRestart (d : Dev) (o : Nat) : Dev :=
  let x := d.tso o
  let runs := d.tsoRuns o
  if runs && x.armed && x.base == d.tsoBase o then d else
  let next := if !runs then x.next else if x.base = d.tsoBase o then max x.next (d.tsoFirst o) else d.tsoFirst o
  let base := if runs then d.tsoBase o else x.base
  (d.setTso o ⟨next, false, x.level, runs, base, x.risen⟩).tsoDrive o (!runs && d.on 0x022 Reg.TSO_CTRL.IDLE o)

/-- R382: after a step of its clock, edges that it passed are skipped. -/
def Dev.tsoSkips (d : Dev) (o : Nat) : Dev :=
  if (d.tso o).armed = true ∧ (d.tso o).next < d.tsoFirst o then
    let k := d.tsoFirst o - (d.tso o).next
    ((d.setTso o { d.tso o with next := d.tsoFirst o }).bump 0x020 Reg.TBU.TSO_SKIPPED k).raise 0x020 22
  else d

/-- R382: every output whose clock satisfies `f` was stepped. -/
def Dev.tsoStepped (d : Dev) (f : Nat → Bool) : Dev :=
  (List.range 5).foldl (fun d o => if f (d.tsoClock o) then d.tsoSkips o else d) d

/-- TSO_RISE (R382). -/
def execTsoRise (o : Fin 5) : State → Host.Outcome State Fault Refusal := onDevL fun d =>
  let o := o.val
  if !(d.tso o).armed || (d.tso o).high then d
  else
    let t := d.tsoEdge o (d.tso o).next
    let d := d.reach (d.momentAt (d.tsoClock o) t)
    (d.setTso o { d.tso o with next := (d.tso o).next + 1, high := true, risen := t }).tsoDrive o true

/-- TSO_FALL (R382): HIGH_NS after the rising edge that was produced. -/
def execTsoFall (o : Fin 5) : State → Host.Outcome State Fault Refusal := onDevL fun d =>
  let o := o.val
  if !(d.tso o).armed || !(d.tso o).high then d
  else
    let d := d.reach (d.momentAt (d.tsoClock o) ((d.tso o).risen + d.tsoHigh o))
    (d.setTso o { d.tso o with high := false }).tsoDrive o false

/-! ### Relays of the manager (R396) -/

/-- R396, R471: the words of a DOM_RELAY message after M0. -/
def relayWords (m : DomRelayMsg) : List (BitVec 16) :=
  [w16 (m.dom.val + 4 * b2n m.sync + 8 * b2n m.step)] ++ timeWords m.at_ ++
    [m.rate, m.stepS, m.stepNs].flatMap fun v => [v.extractLsb' 0 16, v.extractLsb' 16 16]

/-- R396: the manager relays a change of domain `n`, for the board-time instant 100 µs ahead. -/
def Dev.relay (d : Dev) (n : Nat) (step : Bool) : Dev :=
  if !d.pwr.manager then d
  else
    let s := fun (f : Fld) => if step then BitVec.ofNat 32 (d.rd 0x021 f n) else 0
    let m : DomRelayMsg := ⟨d.tbu.relaySeq, Fin.ofNat 4 n, d.on 0x021 Reg.TBU_DOM_CFG.SYNC n, step,
      stampOf (d.wclk + 100 * Config.perUs), (d.dom n).rate, s Reg.TBU_DOM_STEP_S.STEP_S, s Reg.TBU_DOM_STEP_NS.STEP_NS⟩
    let d := { d with tbu := { d.tbu with relaySeq := d.tbu.relaySeq + 1 } }
    (List.range 4).foldl (fun d l => if (d.link l).isUp then d.sendVc3 l 7 (some m.seq) (relayWords m) else d) d

/-! ### Domains (R367 to R370) -/

/-- The elapsed moment of the next whole microsecond of the working clock. -/
def Dev.nextUs (d : Dev) : Nat := d.whenWall ((d.wclk / Config.perUs + 1) * Config.perUs)

/-- Bring domain `n` up to now. -/
def Dev.domNow (d : Dev) (n : Nat) : Domain := { d.dom n with time := d.domTime n, at_ := d.wclk }

/-- R369: a host write that keeps SYNC of domain `n`. -/
def Dev.domKept (d : Dev) (n : Nat) : Dev := d.setDom n { d.dom n with holdAt := some d.now }

/-- R367, R369: a write of RATE. -/
def Dev.rateWrite (d : Dev) (n v : Nat) : Dev :=
  let d := (d.wr 0x021 Reg.TBU_DOM_RATE.RATE v n).domKept n
  d.setDom n { d.dom n with rateAt := some d.nextUs }

/-- RATE_APPLY (R367, R396). -/
def execRateApply (n : Fin 4) : State → Host.Outcome State Fault Refusal := onDevL fun d =>
  match (d.dom n.val).rateAt with
  | none => d
  | some t =>
    let d := d.reach t
    let v := BitVec.ofNat 32 (d.rd 0x021 Reg.TBU_DOM_RATE.RATE n.val)
    (d.setDom n.val { d.domNow n.val with rate := v, rateAt := none }).relay n.val false

/-- R368, R369: what SYNC reads as in a role, when it is written or held as `v`. -/
def syncIn (role : Nat) (v : Bool) : Bool := if role = 0 then false else if role = 1 then true else v

/-- R368: a write of TBU_DOM_CFG sets SYNC as the role allows; the host does not set it on a board follower. -/
def Dev.domCfg (d : Dev) (n : Nat) (sync : Bool) : Dev :=
  let role := d.rd 0x021 Reg.TBU_DOM_CFG.ROLE n
  let old := d.on 0x021 Reg.TBU_DOM_CFG.SYNC n
  let d := d.wrB 0x021 Reg.TBU_DOM_CFG.SYNC (syncIn role (if role = 3 then old else sync)) n
  if role == 2 && sync then d.domKept n else d

/-- R369: SYNC of a follower is cleared. -/
def Dev.syncGone (d : Dev) (n : Nat) : Dev := (d.wr 0x021 Reg.TBU_DOM_CFG.SYNC 0 n).raise 0x020 20

/-- R369: SYNC of every follower clears when class V fields return to their defaults, and on wake. -/
def Dev.syncsGone (d : Dev) : Dev :=
  (List.range 4).foldl (fun d n =>
    match d.rd 0x021 Reg.TBU_DOM_CFG.ROLE n with
    | 1 => d.wr 0x021 Reg.TBU_DOM_CFG.SYNC 1 n
    | 2 => d.syncGone n
    | _ => d.wr 0x021 Reg.TBU_DOM_CFG.SYNC 0 n) d

/-- SYNC_LOST (R369). -/
def execSyncLost (n : Fin 4) : State → Host.Outcome State Fault Refusal := onDevL fun d =>
  let h := d.rd 0x021 Reg.TBU_DOM_CFG.HOLD_MS n.val
  match (d.dom n.val).holdAt with
  | none => d
  | some t =>
    if h == 0 || d.rd 0x021 Reg.TBU_DOM_CFG.ROLE n.val != 2 || !d.on 0x021 Reg.TBU_DOM_CFG.SYNC n.val then d
    else (d.reach (t + h * Config.perMs)).syncGone n.val

/-- R370: a write of GO. -/
def Dev.domStep (d : Dev) (n src : Nat) : Dev :=
  let role := d.rd 0x021 Reg.TBU_DOM_CFG.ROLE n
  if role = 0 ∨ role = 3 then d.wr 0x021 Reg.TBU_DOM_STEP_CTRL.RESULT 3 n
  else
    let r := d.maintTake 0x021 10 src
    if r.1 then
      let d := (r.2.wr 0x021 Reg.TBU_DOM_STEP_CTRL.GO 1 n).domKept n
      d.setDom n { d.dom n with stepAt := some d.nextUs }
    else r.2.wr 0x021 Reg.TBU_DOM_STEP_CTRL.RESULT 2 n

/-- DOMAIN_STEP (R370, R86). -/
def execDomainStep (via : Via) (n : Fin 4) : State → Host.Outcome State Fault Refusal :=
  onBus (.domainStep n) via 0x021 fun d =>
  d.unlocked 0x021 fun d => d.domStep n.val (viaCode via)

/-- R370: add signed seconds and nanoseconds to domain `n`. -/
def Dev.domAdd (d : Dev) (n s ns : Nat) : Dev :=
  let x := d.domNow n
  let by_ : Int := (signed 32 s * 1000000000 + signed 32 ns) * (perNs : Int)
  let t := (((x.time : Int) + by_) % ((2 ^ 48 * 10 ^ 9 * 2 ^ 44 : Nat) : Int)).toNat
  (d.setDom n { x with time := t }).tsoStepped fun c => c == 4 + n

/-- DOMAIN_STEP_APPLY (R370, R382, R396). -/
def execDomainStepApply (n : Fin 4) : State → Host.Outcome State Fault Refusal := onDevL fun d =>
  match (d.dom n.val).stepAt with
  | none => d
  | some t =>
    let d := d.reach t
    let d := d.domAdd n.val (d.rd 0x021 Reg.TBU_DOM_STEP_S.STEP_S n.val) (d.rd 0x021 Reg.TBU_DOM_STEP_NS.STEP_NS n.val)
    let d := d.setDom n.val { d.dom n.val with stepAt := none }
    let d := (d.wr 0x021 Reg.TBU_DOM_STEP_CTRL.RESULT 1 n.val).wr 0x021 Reg.TBU_DOM_STEP_CTRL.GO 0 n.val
    (d.maintEnd 0x021 10).relay n.val true

/-! ### Board followers (R396) -/

/-- How far board time `t` lies ahead of the working clock, in units of 62.5 ps. -/
def Dev.aheadBy (d : Dev) (t : BitVec 64) : Int :=
  signed 52 ((t - stampOf d.wclk).toNat / 4096)

/-- R367, R396: the first relay that waits on domain `n` applies; the rate stands in the register of the domain. -/
def Dev.relayApply (d : Dev) (n : Nat) : Dev :=
  match (d.dom n).relay with
  | [] => d
  | m :: ms =>
    let d := d.reach (d.whenWall (d.wclk + (d.aheadBy m.at_).toNat))
    let d := d.setDom n { d.domNow n with relay := ms }
    if d.rd 0x021 Reg.TBU_DOM_CFG.ROLE n = 3 then
      let d := (d.setDom n { d.dom n with rate := m.rate }).wr 0x021 Reg.TBU_DOM_RATE.RATE m.rate.toNat n
      let d := if m.step then d.domAdd n m.stepS.toNat m.stepNs.toNat else d
      d.wrB 0x021 Reg.TBU_DOM_CFG.SYNC (m.sync && d.tbu.locked) n
    else d

/-- DOM_RELAY_APPLY (R396). -/
def execDomRelayApply (n : Fin 4) : State → Host.Outcome State Fault Refusal := onDevL fun d => d.relayApply n.val

/-! ### Event inputs (R381) -/

/-- R381: the register entry of an input, and E0's INPUT and KIND. -/
def inputIndex : TimeInput → Nat
  | .tsi n => n.val | .pps => 4

/-- R377: KIND of an edge. -/
def edgeKind (i : TimeInput) (rising : Bool) : Nat :=
  match i with | .pps => 3 | .tsi _ => if rising then 1 else 2

/-- An edge at moment `t` is captured. -/
def Dev.edge (d : Dev) (i : TimeInput) (rising : Bool) (t : Nat) : Dev :=
  let k := inputIndex i
  let d := { d with tbu := { d.tbu with lastEdge := SMap.put (fun _ => none) d.tbu.lastEdge k (some t) } }
  let time := corrected (d.wall t) (-(signed 16 (d.rd 0x022 Reg.TBU_TSI_CFG.DLY k)))
  let r := d.capture (tsqWords 0x7A (if k = 4 then 0 else k) (edgeKind i rising) 0xF 0 0 0 time)
  if r.1 then r.2 else r.2.bump 0x020 Reg.TBU.TSI_LOST

/-- R49, R509: the clock of the time domain runs, so that an input is captured: not in Furled or Struck, nor before the PLLs
lock. -/
def Dev.captures (d : Dev) : Bool :=
  (match d.pwr.power with | .furled => false | .struck => false | _ => true) &&
  (match d.pwr.boot with | .waitRails => false | .waitPll => false | _ => true)

/-- EVENT_INPUT (R381, R377, R378). -/
def execEventInput (i : TimeInput) (rising : Bool) (age : Nat) : State → Host.Outcome State Fault Refusal := onDevL fun d =>
  let k := inputIndex i
  let t := d.now - age
  if !d.captures || !bitAt (d.rd 0x022 Reg.TBU_TSI_CFG.EDGE k) (if rising then 0 else 1) then d
  else
    match SMap.get (fun _ => none) d.tbu.lastEdge k with
    | some u =>
      if t < u + 320 then d.bump 0x020 Reg.TBU.TSI_LOST
      else d.edge i rising t
    | none => d.edge i rising t

/-! ### Board time (R391 to R395) -/

/-- R364, R392: the working clock moved by an offset. An exchange carries 48 bits of nanoseconds, so that a difference that would
take the clock below zero is one of a clock that has come round (notes/assumptions/35.md). -/
def Dev.clockBy (d : Dev) (off : Int) : Nat :=
  ((d.wclk : Int) + off + (if (d.wclk : Int) + off < 0 then ((2 ^ 52 : Nat) : Int) else 0)).toNat

/-- R393, R395: the working clock of a worker steps by its offset. -/
def Dev.boardStep (d : Dev) (off : Int) : Dev :=
  let d := d.clockFrom (d.clockBy off) d.clockRate 1
  let d := { d with tbu := { d.tbu with stepTry := none, locked := true, everLocked := true } }
  (d.bump 0x020 Reg.TBU.BRD_STEPS).tsoStepped fun _ => true

/-- R392: the rate with which a worker removes an offset, in parts of 10^9: up when its clock is behind and down when it is
ahead, by at most 100 ppm, and unchanged when it has none. How much it takes is not stated (notes/assumptions/1.md). -/
def Dev.slewRate (d : Dev) : Int :=
  let by_ : Int := ((d.freeBits.toNat % 100000 : Nat) : Int) + 1
  if 0 < d.tbu.offset then by_ else if d.tbu.offset < 0 then -by_ else d.clockRate

/-- R392, R395: the worker removes its offset by changing its rate. -/
def Dev.boardSlew (d : Dev) (lock : Bool) : Dev :=
  let d := d.drawn.clockFrom d.wclk d.slewRate 1
  { d with tbu := { d.tbu with locked := lock, stepTry := if lock then none else d.tbu.stepTry } }

/-- R395: a step that needs the token. -/
def Dev.boardTryStep (d : Dev) (off : Int) : Dev :=
  let r := d.maintTake 0x023 10 0
  if r.1 then (r.2.maintEnd 0x023 10).boardStep off
  else
    let d := r.2.boardSlew false
    { d with tbu := { d.tbu with stepTry := some (d.now + Config.perMs) } }

/-- R392 to R395: what an exchange on the upstream link says of the offset. -/
def Dev.boardExchange (d : Dev) (off : Int) : Dev :=
  let d := { d with tbu := { d.tbu with offset := off, lastEx := d.now } }
  if d.tbu.locked then d.boardSlew true
  else if !d.tbu.everLocked then d.boardStep off
  else if off.natAbs ≤ Config.perUs then d.boardSlew true
  else if d.tbu.stepTry.isSome then d.boardSlew false
  else d.boardTryStep off

/-- R394, R396: the lock is lost. -/
def Dev.boardLost (d : Dev) : Dev :=
  let d := ({ d with tbu := { d.tbu with locked := false } }).raise 0x020 21
  (List.range 4).foldl (fun d n =>
    if d.rd 0x021 Reg.TBU_DOM_CFG.ROLE n = 3 then d.wr 0x021 Reg.TBU_DOM_CFG.SYNC 0 n else d) d

/-- BOARD_LOCK_LOST (R394): a worker has had no exchange with the manager for 1 ms. -/
def execBoardLockLost : State → Host.Outcome State Fault Refusal := onDevL fun d =>
  if d.pwr.manager || !d.tbu.locked then d
  else (d.reach (d.tbu.lastEx + Config.perMs)).boardLost

/-- BOARD_STEP_RETRY (R395). -/
def execBoardStepRetry : State → Host.Outcome State Fault Refusal := onDevL fun d =>
  match d.tbu.stepTry with
  | none => d
  | some t => (d.reach t).boardTryStep d.tbu.offset

/-- TIME_EXCHANGE (R392): a time exchange starts on link `l`. -/
def execTimeExchange (l : Fin 4) : State → Host.Outcome State Fault Refusal := onDevL fun d =>
  let l := l.val
  if !d.linkOn l || !((d.link l).isUp || (d.link l).step == 5) then d
  else
    let x := d.link l
    let seq := SMap.get (fun _ => (0 : BitVec 8)) x.seqs 5
    (d.setLink l { x with timeReq := some (seq, d.wclk) }).sendVc3 l 5 none (timeWords (stampOf d.wclk))

end Sys2Proof.Machine
end

