-- ==== Sys2Proof/Machine/Stay.lean ====
section
/-! DEFINITION. Stay links (spec/15_stay_fabric.md): training and its messages (R466 to R468), reception of flits (R463 to
R465), link control and time messages (R471, R472), sentences between devices (R475 to R477), lanes (R485, R486) and link
failure (R487). -/

namespace Sys2Proof.Machine

open Sys2Proof

/-! ### Training (R466 to R468) -/

/-- R466: training runs: the page is enabled and the link is not UP or DEGRADED. -/
def Dev.trains (d : Dev) (l : Nat) : Bool := d.linkOn l && !(d.link l).isUp

/-- R490: the STAY_LEVEL of the running protocol. -/
def Dev.stayLevel (d : Dev) : Nat := bitsOf d.mst.levels 8 8

/-- R466, R467: steps 1 and 2 are done, and step 3 sends IDENT. -/
def Dev.toStep3 (d : Dev) (l : Nat) : Dev :=
  let x := (d.link l).cut
  let d := d.setLink l { x with step := 3, state := if x.state == .disabled then .train else x.state }
  d.sendVc3 l 1 none [w16 (d.pwr.devId + 16 * b2n d.pwr.manager + 256 * d.stayLevel)]

/-- LINK_TRAINING (R466). -/
def execLinkTraining (l : Fin 4) : State → Host.Outcome State Fault Refusal := onDevL fun d =>
  if d.trains l.val then d.toStep3 l.val else d

/-- R467: why a link is refused; 0 when it is not. -/
def Dev.refusal (d : Dev) (dev : Nat) (manager : Bool) (level : Nat) : Nat :=
  if level + 1 < d.stayLevel ∨ d.stayLevel + 1 < level then 1
  else if manager ∧ d.pwr.manager then 2
  else if dev = d.pwr.devId then 3 else 0

/-- R468: the flits per hop class that this device grants. -/
def creditGrants : List Nat := [32, 8, 8]

/-- IDENT (R467). -/
def execIdent (l : Fin 4) (dev : Fin 16) (manager : Bool) (level : BitVec 8) : State → Host.Outcome State Fault Refusal :=
  onDevL fun d =>
    let l := l.val
    if !d.trains l || (d.link l).step != 3 then d
    else
      let why := d.refusal dev.val manager level.toNat
      let x := { d.link l with peerDev := dev.val, peerMgr := manager, peerLevel := level, refuse := why }
      if why != 0 then (d.setLink l { x with step := 0, retryAt := d.now + 10 * Config.perMs }).raise (linkPage l) 20
      else
        (d.setLink l { x with step := 4, level := BitVec.ofNat 8 (min level.toNat d.stayLevel) }).sendVc3 l 2 none
          (creditGrants.map w16)

/-- IDENT_RETRY (R467): training of a refused link starts again. -/
def execIdentRetry (l : Fin 4) : State → Host.Outcome State Fault Refusal := onDevL fun d =>
  if d.trains l.val && (d.link l.val).refuse != 0 && (d.link l.val).step == 0 then
    (d.reach (d.link l.val).retryAt).toStep3 l.val
  else d

/-- CREDIT_INIT (R468): the other end grants its credits, the same number to each hop class of a channel. -/
def execCreditInit (l : Fin 4) (c0 c1 c2 : Nat) : State → Host.Outcome State Fault Refusal := onDevL fun d =>
  let l := l.val
  if !d.trains l || (d.link l).step != 4 then d
  else d.setLink l { d.link l with step := 5, cmax := [c0, c1, c2],
                                   cred := [c0, c0, c0, c0, c1, c1, c1, c1, c2, c2, c2, c2] }

/-- STAY_LINK_UP (R466): step 5 ends. `lanes` are the lanes that locked, `asym` the calibrated asymmetry. -/
def execStayLinkUp (l : Fin 4) (lanes : BitVec 2) (asym : BitVec 16) : State → Host.Outcome State Fault Refusal := onDevL fun d =>
  let l := l.val
  if !d.trains l || (d.link l).step != 5 || lanes == 0 then d
  else
    let st : StayState := if lanes = 3 then .up else .degraded
    let d := d.setLink l { d.link l with state := st, step := 6, lanes := lanes, asym := asym, holdAt := none }
    (d.raise (linkPage l) 16).choosePaths

/-! ### Messages that pass through (R470, R473, R474) -/

def hdrDest (w : BitVec 16) : Nat := bitsOf w 0 4
def hdrSrc (w : BitVec 16) : Nat := bitsOf w 4 4
def hdrHc (w : BitVec 16) : Nat := bitsOf w 8 2

/-- R476: a header word with HC raised by one. -/
def raiseHc (w : BitVec 16) : BitVec 16 := w + 0x100

/-- R474: the topology table holds a VALID entry. -/
def Dev.hasTopo (d : Dev) : Bool := (List.range 16).any fun n => d.on 0x060 Reg.STY_TOPO.VALID n

/-- The link toward device `n`: its path, else the link that carried the request (R474). -/
def Dev.linkTo (d : Dev) (n l : Nat) : Nat := match d.pathOf n with | some (k, _) => k | none => l

/-- R470: send a completion of a request of device `src`, which came in on link `l`. -/
def Dev.sendCompletion (d : Dev) (l src tag status : Nat) (vals : List (BitVec 16)) : Dev :=
  d.sendMsg (d.linkTo src l) ⟨2, 0, none, [w16 (src + 16 * d.pwr.devId + 1024 * status), w16 tag] ++ vals, 0, none, 0⟩

/-- R473: a VC1 request that cannot be passed on returns NO_PATH. -/
def Dev.returnNoPath (d : Dev) (l : Nat) (ws : List (BitVec 16)) : Dev :=
  d.sendCompletion l (hdrSrc (listGet 0 ws 0)) (bitsOf (listGet 0 ws 1) 0 6) 4 []

/-- R473, R474: pass a VC1 or VC2 message for another device on. -/
def Dev.passOn (d : Dev) (l vc : Nat) (ws : List (BitVec 16)) : Dev :=
  let h := listGet 0 ws 0
  if !d.hasTopo then d
  else if hdrHc h = 3 then
    if vc = 1 then (d.bump 0x060 Reg.STY.HOP_DISCARDS).returnNoPath l ws else d
  else match d.pathOf (hdrDest h) with
    | some (k, _) => d.sendMsg k ⟨vc, hdrHc h + 1, none, raiseHc h :: ws.drop 1, 0, some l, 0⟩
    | none => if vc = 1 then d.returnNoPath l ws else d

/-! ### Reception (R463 to R465, R470) -/

/-- R470: a header word for which the message is discarded. -/
def badHeader (vc : Nat) (h : BitVec 16) : Bool :=
  match vc with
  | 0 => bitsOf h 12 4 != 0
  | 1 => decide (4 < bitsOf h 10 3)
  | 2 => bitsOf h 13 3 != 0 || decide (4 < bitsOf h 10 3)
  | _ => false

/-- R470, R476: a message is complete. One on VC1 to VC3 for this device itself acts by a command of its own. -/
def Dev.msgIn (d : Dev) (l vc : Nat) (ws : List (BitVec 16)) : Dev :=
  let h := listGet 0 ws 0
  if badHeader vc h then d.bump (linkPage l) Reg.STYL.BAD_MSG
  else if vc = 0 then d.setLink l { d.link l with inbox := (d.link l).inbox ++ [(d.now, ws)] }
  else if vc ≤ 2 && hdrDest h != d.pwr.devId then d.passOn l vc ws
  else d

/-- R463: the words of a flit go to the message of its channel. -/
def Dev.wordsIn (d : Dev) (l : Nat) (f : Flit) : Dev :=
  let x := d.link l
  let v := f.vc.toNat
  let old := SMap.get (fun _ => []) x.part v
  let ws := f.words.take 62
  if f.kind = 3 ∨ (f.kind = 2 ∧ old.isEmpty = true) then d
  else
    let now := if f.kind = 1 then ws else old ++ ws
    if f.last then (d.setLink l { x with part := SMap.put (fun _ => []) x.part v [] }).msgIn l v now
    else d.setLink l { x with part := SMap.put (fun _ => []) x.part v now }

/-- R465: a flit with a bad CRC. -/
def Dev.flitBad (d : Dev) (l : Nat) : Dev :=
  let d := (d.setLink l { d.link l with nak := true }).bump (linkPage l) Reg.STYL.CRC_ERR
  (d.sendVc3 l 4 none [w16 (d.link l).rxCount.toNat]).fault (linkPage l) 0x0D (0x18 + l)

/-- R465: send ACK for the newest good flit. -/
def Dev.sendAck (d : Dev) (l : Nat) : Dev :=
  (d.setLink l { d.link l with sinceAck := 0 }).sendVc3 l 3 none [w16 (d.link l).rxCount.toNat]

/-- R465, R468: a good flit; every 64 of them are acknowledged. -/
def Dev.flitGood (d : Dev) (l : Nat) (f : Flit) : Dev :=
  let d := d.setLink l { d.link l with nak := false }
  let d := d.creditsBack l f.cvc.toNat f.crn.toNat
  let d :=
    if f.kind = 0 then d
    else
      let x := d.link l
      let v := f.vc.toNat
      let due := if v = 3 then x.due else listSet x.due v (listGet 0 x.due v + 1)
      ((d.setLink l { x with rxCount := x.rxCount + 1, due := due, sinceAck := x.sinceAck + 1 }).bump
        (linkPage l) Reg.STYL.FLITS_RX).wordsIn l f
  (if 64 ≤ (d.link l).sinceAck then d.sendAck l else d).pumpAll

/-- FLIT_RECEIVE (R465). After an error, flits are discarded until the replay arrives. -/
def execFlitReceive (l : Fin 4) (f : Flit) : State → Host.Outcome State Fault Refusal := onDevL fun d =>
  let x := d.link l.val
  if !d.linkOn l.val || !x.live || (x.nak && !f.replay) then d
  else if f.good then d.flitGood l.val f else d.flitBad l.val

/-! ### Acknowledgement and lanes (R465, R475, R485) -/

def laneBit (lanes : BitVec 2) (k : Nat) : Bool := bitAt lanes.toNat k

/-- R485, R487: lane `k` of link `l` fails; the peer is told which lanes are left. -/
def Dev.laneFails (d : Dev) (l k : Nat) : Dev :=
  let x := d.link l
  if !x.isUp || !laneBit x.lanes k then d
  else
    let d := d.bump (linkPage l) Reg.STYL.LANE_FAULTS
    if x.lanes = 3 then
      let d := d.fault (linkPage l) 0x0E (0x18 + l) k
      (d.setLink l { d.link l with state := .degraded, lanes := BitVec.ofNat 2 (3 - 2 ^ k) }).replay l |>.sendLaneStat l
    else d.linkFailsBy l (some k)

/-- R485: a lane that the peer reports at fault fails once a flit was replayed 8 times in a row. -/
def Dev.laneJudge (d : Dev) (l : Nat) : Dev :=
  let x := d.link l
  if x.isUp && decide (8 ≤ x.replays) then
    match [0, 1].find? fun k => laneBit x.lanes k && !laneBit x.peerLanes k with
    | some k => d.laneFails l k
    | none => d
  else d

/-- ACK (R465, R475, R489). -/
def execAck (l : Fin 4) (count : BitVec 8) : State → Host.Outcome State Fault Refusal := onDevL fun d =>
  if d.linkOn l.val && (d.link l.val).live then (d.ackTo l.val count).pumpAll else d.lateAck l.val count

/-- NAK (R465, R485): what the receiver has is acknowledged, and the rest is replayed. -/
def execNak (l : Fin 4) (count : BitVec 8) : State → Host.Outcome State Fault Refusal := onDevL fun d =>
  if d.linkOn l.val && (d.link l.val).live then (((d.ackTo l.val count).replay l.val).laneJudge l.val).pumpAll else d

/-- ACK_TIMER (R465). -/
def execAckTimer (l : Fin 4) : State → Host.Outcome State Fault Refusal := onDevL fun d =>
  if d.linkOn l.val && (d.link l.val).live then d.sendAck l.val else d

/-! ### Time (R471, R472) -/

/-- TIME_REQ (R471): it is answered at once. -/
def execTimeReq (l : Fin 4) (seq : BitVec 8) (_t1 : BitVec 64) : State → Host.Outcome State Fault Refusal := onDevL fun d =>
  if d.linkOn l.val && (d.link l.val).live then
    d.sendVc3 l.val 6 (some seq) (timeWords (stampOf d.wclk) ++ timeWords (stampOf d.wclk))
  else d

/-- R471: the difference of two times, in units of 62.5 ps. -/
def timeDiff (a b : BitVec 64) : Int := signed 52 ((a - b).toNat / 4096)

/-- R472: the offset of the working clock from upstream, from an exchange that ends now. -/
def exchangeOffset (t1 t2 t3 t4 : BitVec 64) (asym : Int) : Int :=
  timeDiff t2 t1 - ((timeDiff t4 t1 - timeDiff t3 t2) / 2 - asym)

/-- TIME_RESP (R472, R392). -/
def execTimeResp (l : Fin 4) (seq : BitVec 8) (t2 t3 : BitVec 64) : State → Host.Outcome State Fault Refusal := onDevL fun d =>
  let x := d.link l.val
  match x.timeReq with
  | none => d
  | some (s, t1) =>
    if s != seq || !d.linkOn l.val || !x.live then d
    else
      let d := d.setLink l.val { x with timeReq := none }
      if d.upstream = some l.val then
        d.boardExchange (exchangeOffset (stampOf t1) t2 t3 (stampOf d.wclk) (signed 16 x.asym.toNat))
      else d

/-- R472: a relay whose SEQ was applied before. -/
def Dev.relaySeen (d : Dev) (seq : BitVec 8) : Bool :=
  match d.sty.domSeq with | some s => decide ((s - seq).toNat < 128) | none => false

/-- DOM_RELAY (R472, R396): accepted on the upstream link only, and sent once on every other link. -/
def execDomRelay (l : Fin 4) (m : DomRelayMsg) : State → Host.Outcome State Fault Refusal := onDevL fun d =>
  if !d.linkOn l.val || !(d.link l.val).isUp || d.upstream != some l.val || d.relaySeen m.seq then d
  else
    let d := { d with sty := { d.sty with domSeq := some m.seq } }
    let x := d.dom m.dom.val
    let d := d.setDom m.dom.val { x with relay := x.relay ++ [m] }
    (List.range 4).foldl (fun d k =>
      if k != l.val && (d.link k).isUp then d.sendVc3 k 7 (some m.seq) (relayWords m) else d) d

/-! ### Lanes (R485, R486) -/

/-- LANE_FAIL (R485). -/
def execLaneFail (l : Fin 4) (k : Fin 2) : State → Host.Outcome State Fault Refusal := onDevL fun d => d.laneFails l.val k.val

/-- LANE_STAT (R471, R485): the peer's report on the lanes is kept. -/
def execLaneStat (l : Fin 4) (lanes : BitVec 2) : State → Host.Outcome State Fault Refusal := onDevL fun d =>
  (d.setLink l.val { d.link l.val with peerLanes := lanes }).laneJudge l.val

/-- R486: a retraining of the failed lane starts, or its take is refused. -/
def Dev.laneRetrain (d : Dev) (l src : Nat) : Dev :=
  if (d.link l).state != .degraded || (d.link l).retrain then d
  else
    let r := d.maintTake (linkPage l) 5 src
    if r.1 then
      (r.2.setLink l { r.2.link l with retrain := true }).wr (linkPage l) Reg.STY_LINK_RETRAIN.START 1
    else r.2.wr (linkPage l) Reg.STY_LINK_RETRAIN.RESULT 2

/-- LANE_RETRAIN (R486). -/
def execLaneRetrain (l : Fin 4) : State → Host.Outcome State Fault Refusal := onDevL fun d => d.laneRetrain l.val 0

/-- LANE_RETRAIN_START (R486, R86). -/
def execLaneRetrainStart (via : Via) (l : Fin 4) : State → Host.Outcome State Fault Refusal :=
  onBus (.laneRetrainStart l) via (linkPage l.val) fun d =>
  d.unlocked (linkPage l.val) fun d => d.laneRetrain l.val (viaCode via)

/-- LANE_REJOIN (R486): step 5 of R466 has calibrated the asymmetry again; its value is free (notes/assumptions/1.md). -/
def execLaneRejoin (l : Fin 4) : State → Host.Outcome State Fault Refusal := onDevL fun d =>
  if !(d.link l.val).retrain then d
  else
    let d := d.retrainEnds l.val 1
    let d := (d.drawn).setLink l.val { d.link l.val with
      state := .up, lanes := 3, peerLanes := 3, asym := d.freeBits.setWidth 16 }
    (d.raise (linkPage l.val) 19).sendLaneStat l.val

/-- LANE_RETRAIN_FAILED (R486). -/
def execLaneRetrainFailed (l : Fin 4) : State → Host.Outcome State Fault Refusal := onDevL fun d => d.retrainEnds l.val 3

/-- STAY_LINK_FAIL (R487). -/
def execStayLinkFail (l : Fin 4) : State → Host.Outcome State Fault Refusal := onDevL fun d => d.linkFails l.val

/-! ### Sentences that leave (R470, R475) -/

/-- R470, R475: the link header of member `m` of sentence `s`; a forwarded sentence keeps its own. -/
def Dev.stayHeader (d : Dev) (s : Sen) (m : Nat) : List (BitVec 16) × Dev :=
  if !s.fwd.isEmpty then (s.fwd.take 3, d)
  else match (d.acct s.acct).bind fun x => x.members.find? fun y => y.idx == m with
    | some y =>
      (match y.dest with
       | .stay n group route =>
         let msn := SMap.get (fun _ => (0 : BitVec 16)) d.sty.msnTx n
         ([w16 (n + 16 * d.pwr.devId + 1024 * b2n group + 2048 * b2n s.fromReserve), w16 route, msn],
           { d with sty := { d.sty with msnTx := SMap.put (fun _ => (0 : BitVec 16)) d.sty.msnTx n (msn + 1) } })
       | _ => ([], d))
    | none => ([], d)

/-- R464: the words after the link header of a sentence as its copy leaves. R476: one that is forwarded leaves as it came, but for
the mark of a gap. -/
def stayWords (s : Sen) (c : Copy) : List (BitVec 16) :=
  if s.fwd.isEmpty then
    let h := if c.gap then { s.shb with flags := s.shb.flags ||| flagGap } else s.shb
    (shbWords h ++ bodyWords s.body).map w16
  else if c.gap ∧ 5 ≤ s.fwd.length then
    (listSet s.fwd 4 (listGet 0 s.fwd 4 ||| (flagGap.setWidth 16 <<< 10))).drop 3
  else s.fwd.drop 3

/-- R468: link `l` can begin a VC0 message of hop class `hc`. -/
def Dev.stayRoom (d : Dev) (l hc : Nat) : Bool :=
  let x := d.link l
  d.linkOn l && x.isUp && decide (0 < listGet 0 x.cred hc) && decide (x.unacked.length < 128) &&
    !(x.queue.any fun m => m.vc == 0 && m.unsent != 0)

/-- R475, R240: link `l` takes its next sentence. -/
def Dev.stayTake (d : Dev) (l : Nat) : Dev :=
  match d.egressOrder (0x18 + l) with
  | [] => d
  | (c, s) :: _ =>
    match c.role with
    | .engine => d
    | .record => d
    | .member m =>
      let hc := hdrHc (listGet 0 s.fwd 0)
      if !d.stayRoom l hc then d
      else d.chosen c s fun d =>
        let r := d.stayHeader s m
        let d := (r.2.toMedium c).bump (linkPage l) Reg.STYL.VC0_MSGS_TX
        d.sendMsg l ⟨0, hc, some (c.sid, m), r.1 ++ stayWords s c, 0, none, 0⟩

/-! ### Sentences that arrive (R476, R477) -/

/-- R23: a header block from the words W0 to W7. -/
def shbOfWords (ws : List (BitVec 16)) : Shb :=
  let w := fun (i : Nat) => listGet (0 : BitVec 16) ws i
  ⟨(w 0).extractLsb' 0 14, (w 0).extractLsb' 14 2, (w 1).extractLsb' 0 3, bitAt (w 1).toNat 3, (w 1).extractLsb' 4 6,
    (w 1).extractLsb' 10 6, w 2, (w 3).extractLsb' 0 14, (w 3).extractLsb' 14 2, w 7 ++ w 6 ++ w 5 ++ w 4⟩

/-- Bytes of words, the high byte first (R22). -/
def bytesOf16 (ws : List (BitVec 16)) : List Byte := ws.flatMap fun w => [w.extractLsb' 8 8, w.extractLsb' 0 8]

/-- R31, R464: the words after the link header form a sentence. -/
def wellSized (ws : List (BitVec 16)) : Bool := ws.length == 8 + payWords (shbOfWords ws).len.toNat

/-- R22: the payload bytes with a zero pad byte. -/
def padZeroed (h : Shb) (b : List Byte) : List Byte := if h.len.toNat % 2 = 1 then b.take h.len.toNat ++ [0] else b

/-- R241: a sentence of link `l`, arrived at `t`, to be handed on. -/
def Dev.arrivalOf (d : Dev) (l t : Nat) (h : Shb) (body : List Byte) : Handed :=
  { shb := h, org := .stay l, body := body, life := t, inp := 8 + l, waits := .source, fid := d.nrm.nextFid,
    bytes := 0, whole := true }

/-- One more serial number is used. -/
def Dev.nextFid (d : Dev) : Dev := { d with nrm := { d.nrm with nextFid := d.nrm.nextFid + 1 } }

/-- R451, R547: a control sentence that a manager hands to its host. -/
def Dev.reportsToHost (d : Dev) (body : List Byte) : Bool :=
  d.pwr.manager && (body.take 2 == [0x01, 0x01] || body.take 2 == [0x03, 0x01])

/-- R477, R452, R547: a device control sentence for the device itself. Update traffic acts by commands of its own. -/
def Dev.controlIn (d : Dev) (l t : Nat) (h : Shb) (body : List Byte) : Dev :=
  if d.reportsToHost body then
    (d.handOn (d.arrivalOf l t h body) [.fresh 0 (.host 0 (d.rd 0x100 Reg.INST_RPT_CFG.QUEUE))] []).nextFid
  else d

/-- R477, R24: the header block of an accepted sentence of this device: the flags of the copy that brought it end there. -/
def Dev.stayShb (d : Dev) (ws : List (BitVec 16)) : Shb :=
  let h := shbOfWords (ws.drop 3)
  { h with bank := d.nrm.active, flags := sentenceFlags h.flags }

/-- R477: an accepted sentence of this device, arrived at `t`: it is checked, resolved and handed on; a route with a
bad word fails it (R540). -/
def Dev.sentenceIn (d : Dev) (l t : Nat) (ws : List (BitVec 16)) : Dev :=
  let h := d.stayShb ws
  let body := (bytesOf16 (ws.drop 11)).take h.len.toNat
  if !wellSized (ws.drop 3) then d.lossWhole h 0x11 (0x18 + l)
  else if bitAt (listGet 0 ws 0).toNat 11 then d.controlIn l t h body
  else
    let group := bitAt (listGet 0 ws 0).toNat 10
    let route := bitsOf (listGet 0 ws 1) 0 14
    match (d.routeWords h.bank group route).find? fun a => d.badAt h.bank a with
    | some a => (d.tableFault h.bank a h.talker h.seq).lossWhole h 0x06 0x7D
    | none => match d.resolve h.bank group route with
      | none => d.lossWhole h 0x09 0x7D
      | some ms => (d.handOn (d.arrivalOf l t h body) ms []).nextFid

/-- R248: the outputs of the sentence in `ws` for this device have ticket room. R470: ROUTE of a control sentence is ignored. -/
def Dev.stayTickets (d : Dev) (ws : List (BitVec 16)) : Bool :=
  let h := shbOfWords (ws.drop 3)
  if bitAt (listGet 0 ws 0).toNat 11 then
    !d.reportsToHost ((bytesOf16 (ws.drop 11)).take h.len.toNat) ||
      d.ticketRoom h.talker false [.fresh 0 (.host 0 (d.rd 0x100 Reg.INST_RPT_CFG.QUEUE))]
  else match d.resolve d.nrm.active (bitAt (listGet 0 ws 0).toNat 10) (bitsOf (listGet 0 ws 1) 0 14) with
  | none => true
  | some ms => d.ticketRoom h.talker false ms

/-- R476: the one member of a sentence that is forwarded: device `n`. -/
def onward (n : Nat) : List Member := [.fresh 0 (.stay n false 0)]

/-- R39, R477: MSN `n` of a source is later than the newest accepted. -/
def Dev.msnNew (d : Dev) (src : Nat) (n : BitVec 16) : Bool :=
  match SMap.get (fun _ => (none : Option (BitVec 16))) d.sty.msnRx src with | some m => seqEarlier m n | none => true

/-- R489: a copy of a message of link `l`, which came at moment `t`, came on a lower link in the same cell time. -/
def Dev.lowerCopy (d : Dev) (l t : Nat) (ws : List (BitVec 16)) : Bool :=
  let h := listGet 0 ws 0
  (List.range l).any fun k => (d.link k).inbox.any fun y =>
    y.1 / Config.cellTime == t / Config.cellTime && hdrDest (listGet 0 y.2 0) == hdrDest h &&
      hdrSrc (listGet 0 y.2 0) == hdrSrc h && listGet 0 y.2 2 == listGet 0 ws 2

/-- Take the first waiting message of link `l`. -/
def Dev.popInbox (d : Dev) (l : Nat) : Dev := d.setLink l { d.link l with inbox := (d.link l).inbox.drop 1 }

/-- STAY_SENTENCE (R477): the first waiting message is for this device. -/
def execStaySentence (l : Fin 4) : State → Host.Outcome State Fault Refusal := onDevL fun d =>
  let l := l.val
  match (d.link l).inbox with
  | [] => d
  | (t, ws) :: _ =>
    let h := listGet 0 ws 0
    let msn := listGet 0 ws 2
    if d.pwr.silent || hdrDest h != d.pwr.devId then d
    else if !d.msnNew (hdrSrc h) msn || d.lowerCopy l t ws then ((d.popInbox l).bump (linkPage l) Reg.STYL.DUP_DISCARDS).pump l
    else if !d.stayTickets ws then d
    else
      let d := d.popInbox l
      let d := { d with sty := { d.sty with msnRx := SMap.put (fun _ => none) d.sty.msnRx (hdrSrc h) (some msn) } }
      (d.sentenceIn l t ws).pump l

/-- STAY_FORWARD (R476, R473, R248): the first waiting message is for another device. -/
def execStayForward (l : Fin 4) : State → Host.Outcome State Fault Refusal := onDevL fun d =>
  let l := l.val
  match (d.link l).inbox with
  | [] => d
  | (t, ws) :: _ =>
    let w := listGet 0 ws 0
    let h := shbOfWords (ws.drop 3)
    let ms := onward (hdrDest w)
    if d.pwr.silent || hdrDest w == d.pwr.devId then d
    else if hdrHc w = 3 then ((d.popInbox l).bump 0x060 Reg.STY.HOP_DISCARDS).pump l
    else if !d.ticketRoom h.talker false ms then d
    else
      let d := d.popInbox l
      let body := bytesOf16 (ws.drop 11)
      let body := if wellSized (ws.drop 3) then padZeroed h body else body
      let x := { d.arrivalOf l t h body with fwd := raiseHc w :: ws.drop 1 }
      ((d.handOn x ms []).nextFid).pump l

end Sys2Proof.Machine
end

