-- ==== Sys2Proof/Machine/Gwy.lean ====
section
/-! DEFINITION. The signal gateway (spec/11_signal_gateway.md): cuts (R342 to R345), signal pack lists (R346 to R353) and
IEEE 1722 ACF lists (R354 to R357). Slots stand in SlotOps.lean. -/

namespace Sys2Proof.Machine

open Sys2Proof

/-! ### Fields of a payload (R343) -/

/-- R343: the payload bit addresses of `n` field bits from `pos` on. -/
def fieldBits (desc : Bool) (pos : Int) : Nat → List Int
  | 0 => []
  | n + 1 => pos :: fieldBits desc (if desc && pos % 8 == 7 then pos - 15 else pos + 1) n

/-- The addresses of the field that a dword D1 describes (R342, R347). -/
def fieldOf (d1 : BitVec 32) : List Int := fieldBits (bitsOf d1 20 1 == 1) (bitsOf d1 0 14) (bitsOf d1 14 6 + 1)

/-- The bit at an address of a payload; none outside it. -/
def payloadBit (b : List Byte) (p : Int) : Option Bool :=
  if 0 ≤ p ∧ p < 8 * b.length then some (bitAt (listGet 0 b (p.toNat / 8)).toNat (p.toNat % 8)) else none

/-- The value of a field, if all of it lies in the payload. -/
def fieldValue (b : List Byte) : List Int → Option Nat
  | [] => some 0
  | p :: ps => match payloadBit b p, fieldValue b ps with
    | some x, some v => some (b2n x + 2 * v)
    | _, _ => none

/-- Write one bit of a payload; one outside it is dropped (R348). -/
def setBit (b : List Byte) (p : Int) (v : Bool) : List Byte :=
  if 0 ≤ p ∧ p < 8 * b.length then
    let k := p.toNat / 8
    let m := BitVec.ofNat 8 (2 ^ (p.toNat % 8))
    let x : Byte := listGet 0 b k
    listSet b k (if v then x ||| m else x &&& ~~~m)
  else b

/-- R348: write the low bits of a value at the addresses of a field. -/
def putField (b : List Byte) (v : Nat) : List Int → List Byte
  | [] => b
  | p :: ps => putField (setBit b p (v % 2 == 1)) (v / 2) ps

/-! ### Cuts (R342 to R344) -/

/-- R342: a field value of a cut entry, extended to 64 bits. -/
def extended (d0 d1 : BitVec 32) (v : Nat) : BitVec 64 :=
  let w := bitsOf d1 14 6 + 1
  if bitsOf d0 14 1 = 1 then BitVec.ofInt 64 (signed w v) else BitVec.ofNat 64 v

/-- R344: apply cut entry `c` of the bank of sentence `h`. -/
def Dev.cutOne (d : Dev) (h : Shb) (body : List Byte) (c : Nat) : Dev :=
  let d0 := d.tab32 h.bank (0x2080000 + 8 * c)
  let d1 := d.tab32 h.bank (0x2080004 + 8 * c)
  let s := bitsOf d0 16 16
  match fieldValue body (fieldOf d1) with
  | none => d.bump 0x048 Reg.GWY.CUT_SHORT
  | some v =>
    (d.bump 0x048 Reg.GWY.CUT_WRITES).freshWrite h.bank s (extended d0 d1 v)

/-- R344: cut a sentence. -/
def Dev.cutSentence (d : Dev) (h : Shb) (body : List Byte) : Dev :=
  let es := d.cutEntries h.bank h.talker
  let d := (d.bump 0x048 Reg.GWY.CUT_SENTENCES).bump 0x048 Reg.GWY.CUT_EXCESS (es.length - 64)
  (es.take 64).foldl (fun d c => d.cutOne h body c) d

/-- CUT (R344): the cut stage applies the entries of the sentence that it accepted first. -/
def execCut : State → Host.Outcome State Fault Refusal := onDevL fun d =>
  match d.gwy.cuts with
  | [] => d
  | (h, body) :: rest => ({ d with gwy := { d.gwy with cuts := rest } }).cutSentence h body

/-! ### Firings (R348 to R353) -/

/-- R348: the payload of signal list `l`, from the active bank. -/
def Dev.listPayload (d : Dev) (l : Nat) : List Byte :=
  let b := d.nrm.active
  let zero : List Byte := List.replicate (min 2048 (bitsOf (d.listHead b l 5) 0 12)) 0
  (d.listItems b l).foldl (fun p it =>
    let v := if bitsOf it.1 16 1 = 1 then bitsOf it.1 0 16 else (d.packed (bitsOf it.1 0 16)).toNat
    putField p v (fieldOf it.2)) zero

/-- R352: the list's item is held before its lookup: replace its payload and time. -/
def Dev.replaceHeld (d : Dev) (l : Nat) (body : List Byte) (bad : Option Nat) : Dev :=
  { d with nrm := { d.nrm with items := d.nrm.items.map fun (i : Item) =>
      match i.org with
      | .gateway k _ => if k = l then { i with body := body, time := stampOf d.wclk, metered := body.length, bad := bad } else i
      | _ => i } }

/-- R348, R356, R540: a bad word that a firing of list `l` reads: its header, its items, or what their slots are packed from. -/
def Dev.listBad (d : Dev) (l : Nat) : Option Nat :=
  let b := d.nrm.active
  let f := bitsOf (d.listHead b l 4) 0 14
  let words := ((List.range 16).map fun k => 0x20A0000 + 64 * l + 4 * k) ++
    if d.listAcf b l then [] else (List.range (min 64 (bitsOf (d.listHead b l 4) 16 7))).flatMap fun i =>
      [0x20E0000 + 8 * ((f + i) % 16384), 0x20E0004 + 8 * ((f + i) % 16384)]
  (words.find? fun a => d.badAt b a).or
    (if d.listAcf b l then none else (d.listItems b l).findSome? fun it =>
      if bitsOf it.1 16 1 = 1 then none else d.slotBad (bitsOf it.1 0 16))

/-- R337, R351, R359: hand the NRM the item of a firing of list `l`. -/
def Dev.handItem (d : Dev) (l : Nat) (body : List Byte) : Dev :=
  let h := d.listHead d.nrm.active l 0
  let it : Item := ⟨.gateway l (d.listAcf d.nrm.active l), 1, BitVec.ofNat 14 (bitsOf h 0 14), BitVec.ofNat 3 (bitsOf h 20 3), false, false,
    some d.ownBank, body, stampOf d.wclk, body.length, 0, true, none, d.nrm.nextFid, d.listBad l⟩
  let d := { d with nrm := { d.nrm with items := d.nrm.items ++ [it], nextFid := d.nrm.nextFid + 1 } }
  d.bump 0x048 Reg.GWY.FIRED

/-- R350: a signal list has fired with a payload. -/
def Dev.fired (d : Dev) (l : Nat) (body : List Byte) : Dev :=
  d.setPlist l { d.plist l with sent := some body, lastFire := some d.now }

/-- R352: a firing of signal list `l` falls due at `t`: it is skipped, merged into the held item, or made. `dirty` says that
it is a change firing, which leaves the list dirty when it is skipped. A periodic and a change firing in one cycle are one
(R360). -/
def Dev.fallsDue (d : Dev) (l t : Nat) (dirty : Bool) : Dev :=
  if d.listWaits l then
    (d.setPlist l { d.plist l with dirty := (d.plist l).dirty || dirty }).bump 0x048 Reg.GWY.FIRE_SKIPPED
  else if d.listHeld l then
    let body := d.listPayload l
    ((d.replaceHeld l body (d.listBad l)).fired l body).bump 0x048 Reg.GWY.FIRE_MERGED
  else if (d.plist l).fire.any fun u => u / Config.coreCycle == t / Config.coreCycle then d
  else d.setPlist l { d.plist l with fire := insertNat t (d.plist l).fire }

/-- FIRING_DUE (R349, R352). -/
def execFiringDue (l : BitVec 12) : State → Host.Outcome State Fault Refusal := onDevL fun d =>
  let l := l.toNat
  match (d.plist l).nextDue with
  | none => d
  | some t =>
    let d := d.reach t
    let per := bitsOf (d.listHead d.nrm.active l 1) 0 20 * Config.perUs
    (d.setPlist l { d.plist l with nextDue := some (t + per) }).fallsDue l t false

/-- CHANGE_CHECK (R350). It comes in a cycle after the write that made the list dirty, whose value it takes (R360). -/
def execChangeCheck (l : BitVec 12) : State → Host.Outcome State Fault Refusal := onDevL fun d =>
  let l := l.toNat
  let b := d.nrm.active
  if !(d.plist l).dirty || !d.listSignal b l || !d.listOnChange b l then d
  else
    let gap := bitsOf (d.listHead b l 3) 0 20 * Config.perUs
    let d := d.reach ((d.now / Config.coreCycle + 1) * Config.coreCycle)
    let d := match (d.plist l).lastFire with | some t => d.reach (t + gap) | none => d
    let body := d.listPayload l
    let d := d.setPlist l { d.plist l with dirty := false }
    if (d.plist l).sent = some body then d else d.fallsDue l d.now true

/-! ### ACF messages (R354 to R357) -/

/-- R354: dword 6 of an ACF list. -/
def Dev.acf6 (d : Dev) (b : BitVec 2) (l : Nat) : BitVec 32 := d.listHead b l 6

/-- R354, R355: MAX_BYTES and HOLD_US. -/
def Dev.acfMax (d : Dev) (b : BitVec 2) (l : Nat) : Nat := bitsOf (d.listHead b l 7) 16 16
def Dev.acfHold (d : Dev) (b : BitVec 2) (l : Nat) : Nat := bitsOf (d.listHead b l 7) 0 16

/-- R371: an ingress time in domain `n`, in nanoseconds. -/
def Dev.inDomain (d : Dev) (n : Nat) (time : BitVec 64) : Nat :=
  let ahead : Int := d.aheadBy time * ((2 ^ 40 : Nat) + signed 32 (d.dom n).rate.toNat)
  ((((d.domTime n : Int) + ahead) % ((2 ^ 48 * 10 ^ 9 * 2 ^ 44 : Nat) : Int)).toNat / 2 ^ 44) % 2 ^ 64

/-- R357: the flag mtv, and the message_timestamp of a sentence for list `l`. -/
def Dev.acfTime (d : Dev) (b : BitVec 2) (l : Nat) (time : BitVec 64) : Bool × Nat :=
  let n := bitsOf (d.acf6 b l) 5 2
  if bitsOf (d.acf6 b l) 4 1 = 1 ∧ d.on 0x021 Reg.TBU_DOM_CFG.SYNC n = true then (true, d.inDomain n time) else (false, 0)

/-- The `n` bytes of a number, the most significant first. -/
def bytesBE (v : Nat) : Nat → List Byte
  | 0 => []
  | n + 1 => BitVec.ofNat 8 (v / 256 ^ n) :: bytesBE v n

/-- R357: a message of a type from its bytes 2 (without pad), 3 and those from 4 on. -/
def acfBuild (type b2 b3 : Nat) (rest : List Byte) : List Byte :=
  let n := 4 + rest.length
  let pad := (4 - n % 4) % 4
  bytesBE (type * 512 + (n + pad) / 4) 2 ++ [BitVec.ofNat 8 (pad * 64 + b2), BitVec.ofNat 8 b3] ++ rest ++
    List.replicate pad 0

/-- R357: a CAN message. -/
def acfCan (bus : Nat) (ts : Bool × Nat) (body : List Byte) : List Byte :=
  let p0 := be16 body 0
  acfBuild 1 (32 * b2n ts.1 + 16 * b2n (rtr p0) + 8 * b2n (ide p0) + 4 * b2n (bitAt p0 13) + 2 * b2n (fdf p0) + b2n (bitAt p0 12))
    bus (bytesBE ts.2 8 ++ bytesBE (canIdOf body % 2 ^ 29) 4 ++ body.drop 6)

/-- R357: a LIN message. -/
def acfLin (bus : Nat) (ts : Bool × Nat) (body : List Byte) : List Byte :=
  acfBuild 3 (32 * b2n ts.1 + bus) ((listGet 0 body 0).toNat % 64) (bytesBE ts.2 8 ++ (body.drop 1).take (body.length - 2))

/-- R43, R168, R354: the payload is that of a classical or FD sentence. -/
def canPayloadOk (body : List Byte) : Bool :=
  let p0 := be16 body 0
  decide (6 ≤ body.length) && !xlf p0 && p0 / 16 % 64 == 0 && body.length == 6 + dlcBytes p0 &&
    decide (canIdOf body < (if ide p0 then 2 ^ 29 else 2 ^ 11))

/-- R354: the message that list `l` makes of a sentence; none where it is malformed. -/
def Dev.acfMessage (d : Dev) (b : BitVec 2) (l : Nat) (s : Sen) : Option (List Byte) :=
  let port := d.portOf s.org
  let ts := d.acfTime b l s.shb.time
  let can := fun bus => if canPayloadOk s.body then some (acfCan bus ts s.body) else none
  let lin := fun bus => if 3 ≤ s.body.length then some (acfLin bus ts s.body) else none
  let m := match bitsOf (d.acf6 b l) 8 2 with
    | 0 => if between 0x20 0x3F port then can (port - 0x20) else if between 0x40 0x4F port then lin (port - 0x40) else none
    | 1 => can (bitsOf (d.acf6 b l) 16 5)
    | 2 => lin (bitsOf (d.acf6 b l) 16 5)
    | _ => none
  if 1 < s.shb.kind.toNat then none
  else m.bind fun x => if 26 + x.length ≤ d.acfMax b l then some x else none

/-- R355: LEN of a frame of these messages. -/
def acfLen (ms : List (List Byte)) : Nat := 26 + sumOf List.length ms

/-- R352: the list holds a frame that has fired. -/
def Dev.acfBusy (d : Dev) (l : Nat) : Bool := !(d.plist l).ready.isEmpty || d.listHeld l || d.listWaits l

/-- R355: the list holds MAX_MSGS + 1 messages. -/
def Dev.acfFull (d : Dev) (b : BitVec 2) (l : Nat) : Bool := decide (bitsOf (d.acf6 b l) 0 4 + 1 ≤ (d.plist l).msgs.length)

/-- R355: list `l` fires: its messages become its next frame. -/
def Dev.acfFire (d : Dev) (l : Nat) : Dev :=
  let x := d.plist l
  if x.msgs.isEmpty || d.acfBusy l then d
  else d.setPlist l { x with ready := x.msgs, msgs := [], fire := insertNat d.now x.fire }

/-- R352, R355: list `l` can gather message `m` now. -/
def Dev.acfRoom (d : Dev) (b : BitVec 2) (l : Nat) (m : List Byte) : Bool :=
  let full := d.acfFull b l || decide (d.acfMax b l < acfLen ((d.plist l).msgs ++ [m]))
  !full || (d.plist l).msgs.isEmpty || !d.acfBusy l

/-- R355: list `l` gathers message `m`. -/
def Dev.acfGather (d : Dev) (b : BitVec 2) (l : Nat) (m : List Byte) : Dev :=
  let d := if d.acfFull b l || decide (d.acfMax b l < acfLen ((d.plist l).msgs ++ [m])) then d.acfFire l else d
  let x := d.plist l
  let d := d.setPlist l { x with msgs := x.msgs ++ [m], first := if x.msgs.isEmpty then d.now else x.first }
  let d := d.bump 0x048 Reg.GWY.ACF_MSGS
  if d.acfFull b l || d.acfHold b l == 0 then d.acfFire l else d

/-! ### Sentences that reach the gateway (R335 to R337) -/

/-- R335, R337: the gateway refuses a member. -/
def Dev.gwyRefuses (d : Dev) (c : Copy) : Dev :=
  ((d.bump 0x048 Reg.GWY.MEMBER_REFUSED).raise 0x048 18).copyFails c 0x09 0x79

/-- The destination of a member's copy. -/
def Dev.copyDest (d : Dev) (c : Copy) (s : Sen) : Option Dest :=
  match c.role, d.acct s.acct with
  | .member m, some x => (x.members.find? fun y => y.idx == m).map fun y => y.dest
  | _, _ => none

/-- R205, R335, R354, R540: what the gateway does with a copy, by the tables of the sentence's bank; none while it must wait. -/
def Dev.gwyTake (d : Dev) (c : Copy) (s : Sen) : Option Dev :=
  let own := match s.org with | .gateway _ _ => true | _ => false
  let fromAcf := match s.org with | .gateway _ a => a | _ => false
  match d.copyDest c s with
  | some (.list l) =>
    let b := d.tableBank s.shb.bank
    match ([0, 6, 7].map fun k => 0x20A0000 + 64 * l + 4 * k).find? fun a => d.badAt b a with
    | some a => some ((d.tableFault b a s.shb.talker s.shb.seq).copyFails c 0x06 0x79)
    | none =>
      if !d.listAcf b l || fromAcf then some (d.gwyRefuses c)
      else match d.acfMessage b l s with
        | none => some (d.copyFails c 0x11 0x79)
        | some x => if d.acfRoom b l x then some ((d.acfGather b l x).deliver c) else none
  | some .cut =>
    if own then some (d.gwyRefuses c)
    else if d.cutBusy then none
    else match d.cutBad s.shb with
      | some a => some ((d.tableFault s.shb.bank a s.shb.talker s.shb.seq).copyFails c 0x06 0x79)
      | none => some ((d.cutIn s.shb s.body).deliver c)
  | _ => none

/-- R240: the gateway takes the copy that it must take next, unless that copy waits for its list or for the cut stage. -/
def Dev.gwyNext (d : Dev) (x : Copy × Sen) : Dev :=
  match d.gwyTake x.1 x.2 with
  | some _ => d.chosen x.1 x.2 fun d => (d.gwyTake x.1 x.2).getD d
  | none => d

/-- EGRESS_HAND_ON at set 0x079 (R240): the head of the highest class. -/
def Dev.gwyHandOn (d : Dev) : Dev :=
  match d.egressOrder 0x79 with
  | x :: _ => d.gwyNext x
  | [] => d

/-- Whether a copy is for pack list `l`. -/
def Dev.forList (d : Dev) (l : Nat) (x : Copy × Sen) : Bool := d.copyDest x.1 x.2 == some (.list l)

/-- ACF_MESSAGE (R240, R354): list `l` takes the sentence that the gateway must take next, when that is for it. -/
def execAcfMessage (l : BitVec 12) : State → Host.Outcome State Fault Refusal := onDevL fun d =>
  match d.egressOrder 0x79 with
  | x :: _ => if d.forList l.toNat x then d.gwyNext x else d
  | [] => d

/-- ACF_HOLD_EXPIRY (R355). -/
def execAcfHoldExpiry (l : BitVec 12) : State → Host.Outcome State Fault Refusal := onDevL fun d =>
  let l := l.toNat
  if (d.plist l).msgs.isEmpty || !d.listAcf d.nrm.active l then d
  else (d.reach ((d.plist l).first + d.acfHold d.nrm.active l * Config.perUs)).acfFire l

/-! ### Starting a firing (R353, R356) -/

/-- R356: the frame of ACF list `l`. -/
def Dev.acfFrame (d : Dev) (l : Nat) : List Byte :=
  let b := d.nrm.active
  let w := fun k => (d.listHead b l k).toNat
  let ms := (d.plist l).ready
  bytesBE (w 8 + 2 ^ 32 * (w 9 % 2 ^ 16)) 6 ++ bytesBE (w 10 + 2 ^ 32 * (w 11 % 2 ^ 16)) 6 ++ [0x22, 0xF0, 0x82] ++
    bytesBE (0x8000 + (acfLen ms - 26) % 2048) 2 ++ [(d.plist l).nseq] ++ bytesBE (w 12 + 2 ^ 32 * w 13) 8 ++ ms.flatten

/-- R353: the pending firing that starts next: the earliest due, then the lowest list number. -/
def earliest : List (Nat × Nat) → Option (Nat × Nat)
  | [] => none
  | x :: xs => match earliest xs with
    | none => some x
    | some y => if y.1 < x.1 then some y else some x

/-- R353: a firing that was due at `t` is made; one more than 1 µs late is counted. -/
def Dev.countLate (d : Dev) (t : Nat) : Dev :=
  if t + Config.perUs < d.now then (d.bump 0x048 Reg.GWY.FIRE_LATE).raise 0x048 17 else d

/-- R353: the firing of list `l` that was due at `t` starts. -/
def Dev.startFiring (d : Dev) (l t : Nat) : Dev :=
  let x := { d.plist l with fire := (d.plist l).fire.drop 1 }
  let d := d.setPlist l x
  let b := d.nrm.active
  if d.listAcf b l && !x.ready.isEmpty then
    let d := (d.countLate t).handItem l (d.acfFrame l)
    d.setPlist l { x with ready := [], nseq := x.nseq + 1, lastFire := some d.now }
  else if d.listSignal b l then
    if d.listWaits l || d.listHeld l then d.fallsDue l d.now false
    else ((d.countLate t).handItem l (d.listPayload l)).fired l (d.listPayload l)
  else d.setPlist l { x with fire := [], ready := [] }

/-- FIRING_START (R353). Full ACF frames whose predecessor has left fall due first. A firing starts 125 ns after the one before at
the earliest. -/
def execFiringStart : State → Host.Outcome State Fault Refusal := onDevL fun d =>
  let d := (d.gwy.lists.filter fun x => d.listAcf d.nrm.active x.1 && d.acfFull d.nrm.active x.1).foldl (fun d x => d.acfFire x.1) d
  match earliest (d.gwy.lists.filterMap fun x => x.2.fire.head?.map fun t => (t, x.1)) with
  | none => d
  | some (t, l) =>
    let d := d.reach d.gwy.fireAt
    ({ d with gwy := { d.gwy with fireAt := d.now + 2000 } }).startFiring l t

end Sys2Proof.Machine
end

