-- ==== Sys2Proof/Machine/Host.lean ====
section
/-! DEFINITION. The Host Bridge (spec/13_host_interfaces.md): queues and their modes (R406 to R410), rings in host memory
(R411 to R417), Sentence Windows (R418 to R430), interrupts (R436) and the PCIe events of R402 to R405. -/

namespace Sys2Proof.Machine

open Sys2Proof

/-! ### PCIe configuration space (R2, R402, R403) -/

/-- What the spec fixes in the configuration space of every function, and in the SR-IOV capability of the physical function. -/
inductive CfgField where
  | vendorId
  | deviceId
  | revisionId
  | bar2to5
  | expansionRom
  | totalVfs
  | firstVfOffset
  | vfStride
  | vfDeviceId
  | vfBar2to5
  | supportedPageSizes
  | maxPayloadSupported
  | extendedTags
  | aspmSupport
  | functionLevelReset
  | maxLinkSpeed
  | maxLinkWidth
  | atomicCompleter32
  | atomicCompleter64
  | msixTableSize
  | msixTableOffset
  | msixTableBir
  | msixPbaOffset
  | msixPbaBir
  | serialNumber
  deriving DecidableEq, Repr

/-- R402: the capabilities that the endpoint has. -/
inductive PcieCap where
  | powerManagement
  | pciExpress
  | msix
  | advancedErrors
  | ari
  | srIov
  | atomicCompleter
  | serialNumber
  deriving DecidableEq, Repr

/-- R402: the capabilities of function `n`; SR-IOV and the serial number are the physical function's (PRESUMED,
notes/assumptions/9.md). -/
def pcieCaps (n : Fin 64) : List PcieCap :=
  [.powerManagement, .pciExpress, .msix, .advancedErrors, .ari, .atomicCompleter] ++
    (if n = 0 then [.srIov, .serialNumber] else [])

/-- R402: where the MSI-X region of function `n` starts in its BAR0. -/
def msixBase (n : Fin 64) : Nat := if n = 0 then 0x300000 else 0x3000

/-- R2, R402, R403: the value of such a field of function `n`, as PCI Express Base 4.0 codes it (PRESUMED, notes/assumptions/9.md);
function 0 is the physical one. `none`: the spec states no value for that function. No write changes them. -/
def cfgValue (n : Fin 64) : CfgField → Option Nat
  | .vendorId => some 0x1F5C
  | .deviceId => if n = 0 then some 0x1840 else none
  | .revisionId => some 0xB1
  | .bar2to5 => some 0
  | .expansionRom => some 0
  | .totalVfs => if n = 0 then some 63 else none
  | .firstVfOffset => if n = 0 then some 1 else none
  | .vfStride => if n = 0 then some 1 else none
  | .vfDeviceId => if n = 0 then some 0x1841 else none
  | .vfBar2to5 => if n = 0 then some 0 else none
  | .supportedPageSizes => if n = 0 then some 0x1F else none
  | .maxPayloadSupported => some 1
  | .extendedTags => some 1
  | .aspmSupport => some 2
  | .functionLevelReset => some 1
  | .maxLinkSpeed => some 4
  | .maxLinkWidth => some 4
  | .atomicCompleter32 => some 1
  | .atomicCompleter64 => some 1
  | .msixTableSize => some 31
  | .msixTableOffset => some (msixBase n)
  | .msixTableBir => some 0
  | .msixPbaOffset => some (msixBase n + 0x800)
  | .msixPbaBir => some 0
  | .serialNumber => if n = 0 then some Config.serialNumber.toNat else none

/-- R403: what a 64-bit, non-prefetchable BAR of `2 ^ size` bytes at `addr` reads: its lower register, or its upper one. -/
def barPair (size : Nat) (addr : BitVec 64) (upper : Bool) : Nat :=
  let a := addr.toNat / 2 ^ size * 2 ^ size
  if upper then a / 2 ^ 32 else a % 2 ^ 32 + 4

/-- R94, R403: BAR0 and BAR1 of the physical function, of 64 MiB, and VF BAR0 and VF BAR1, of 64 KiB for each function (R97). -/
def Dev.barReg (d : Dev) (upper : Bool) : Nat := barPair 26 (d.fn 0).bar upper
def Dev.vfBarReg (d : Dev) (upper : Bool) : Nat := barPair 16 (d.fn 0).vfBar upper

/-! ### Pop windows (R419, R420, R425) -/

/-- R408: the oldest item of the highest class. -/
def bestWin : List (Nat × List Word) → Option (Nat × List Word)
  | [] => none
  | x :: xs => match bestWin xs with
    | none => some x
    | some y => if x.1 < y.1 then some y else some x

/-- R419: a word with the pop sequence number. -/
def PopWin.stamp (w : PopWin) (x : Word) : BitVec 32 := w.seq ++ x

/-- R419, R420: a valid word or a cut marker is popped. -/
def PopWin.popped (w : PopWin) (x : Word) : BitVec 32 × PopWin :=
  (w.stamp x, { w with seq := w.seq + 1, last := (w.stamp x :: w.last).take 4 })

/-- R19, R425. -/
def cutMarker : Word := Word.mk 2 0xF1C0

/-- Take the first item equal to `x` away. -/
def dropFirst (x : Nat × List Word) : List (Nat × List Word) → List (Nat × List Word)
  | [] => []
  | y :: ys => if y = x then ys else y :: dropFirst x ys

/-- R408, R419: one pop. -/
def PopWin.pop (w : PopWin) : BitVec 32 × PopWin :=
  if w.cut = 2 then ({ w with cut := 1 } : PopWin).popped cutMarker
  else if w.cut = 1 then (w.stamp 0, { w with cut := 0 })
  else match w.cur with
    | x :: xs => ({ w with cur := xs } : PopWin).popped x
    | [] => match bestWin w.items with
      | some (k, x :: xs) => ({ w with items := dropFirst (k, x :: xs) w.items, cur := xs } : PopWin).popped x
      | _ => (w.stamp 0, w)

/-- R69: what the next pop will return. -/
def PopWin.peek (w : PopWin) : BitVec 32 := w.pop.1

/-- R424: whole items held, the one being read included. -/
def PopWin.held (w : PopWin) : Nat := w.items.length + b2n (w.cur.length != 0)

/-- R425: discard every item. A reader that is part-way through one is owed the cut marker. -/
def PopWin.flush (w : PopWin) : PopWin := { w with items := [], cur := [], cut := if w.cur.isEmpty then w.cut else 2 }

/-! ### Flushes (R425, R426) -/

/-- Count items that a flush discards. -/
def Dev.flushed (d : Dev) (n k : Nat) : Dev :=
  (d.bump (winPage n) Reg.FLUSHED_ITEMS.COUNT k).bumpSat (instPage n) Reg.INST.FLUSHED k

/-- R460: a copy of `s` is delivered to a receive queue of instance `n`. -/
def Dev.received (d : Dev) (n : Nat) (s : Sen) : Dev :=
  ((d.bumpSat (instPage n) Reg.INST.RX_DELIVERED).bumpSat64 (instPage n) Reg.INST.RX_BYTES_LO Reg.INST.RX_BYTES_HI
    s.body.length).bump 0x010 Reg.HBR.RX_SENTENCES

/-- R425, R426: the Host Bridge, the producer of receive window `q`, is part-way through copy `c` of `s` at a flush: what it has
moved is discarded, and so are its later words, at least the end mark. How many there are is not stated (notes/assumptions/1.md).
The copy counts as delivered. -/
def Dev.flushMoving (d : Dev) (n : Nat) (c : Copy) (s : Sen) : Dev :=
  let tail := 1 + d.freeBits.toNat % sentenceSize s.body.length
  ((d.drawn.bump (winPage n) Reg.FLUSH_TAIL_WORDS.COUNT tail).received n s).deliver c

/-- R425, R426: flush receive window `q`. -/
def Dev.flushRx (d : Dev) (n q : Nat) : Dev :=
  let h := d.hq n q
  let d := (d.setHq n q { h with win := h.win.flush }).flushed n h.win.held
  if h.mode = 2 then (d.rxMoving n q).foldl (fun d x => d.flushMoving n x.1 x.2) d else d

/-- R425, R426: flush transmit window `t`. -/
def Dev.flushTx (d : Dev) (n t : Nat) : Dev :=
  let mine := fun (i : HostItem) => i.win && i.n == n && i.t == t
  let k := (d.hbr.ready.filter mine).length
  let h := d.hq n (16 + t)
  let d := d.setHq n (16 + t)
    { h with build := [], skip := if h.build.isEmpty && h.skip.isNone then none else some [], owed := h.owed - k }
  let d := { d with hbr := { d.hbr with ready := d.hbr.ready.filter fun i => !mine i } }
  (d.flushed n k).retryHeld

/-- R425: flush completion window `t`. -/
def Dev.flushTxc (d : Dev) (n t : Nat) : Dev :=
  let h := d.hq n (16 + t)
  ((d.setHq n (16 + t) { h with compl := h.compl.flush }).flushed n h.compl.held).retryHeld

/-- R425: a write of HBR_WIN_FLUSH. -/
def Dev.windowFlush (d : Dev) (n v : Nat) : Dev :=
  let d := (List.range 16).foldl (fun d q => if bitAt v q then d.flushRx n q else d) d
  let d := (List.range 8).foldl (fun d t => if bitAt v (16 + t) then d.flushTx n t else d) d
  (List.range 8).foldl (fun d t => if bitAt v (24 + t) then d.flushTxc n t else d) d

/-- R444: a write to a Sentence Window or doorbell page of an instance that does not exist is discarded. -/
def Dev.ofInst (d : Dev) (n : Nat) (p : PageId) (f : Dev → Dev) : Dev :=
  if d.on (instPage n) Reg.INST_STAT.EXISTS then f d else d.raise p 4

/-- WINDOW_FLUSH (R425, R86). -/
def execWindowFlush (via : Via) (n : Fin 64) (data : BitVec 32) : State → Host.Outcome State Fault Refusal :=
  onBus (.windowFlush n data) via (winPage n.val) fun d =>
  d.ofInst n.val (winPage n.val) fun d => d.unlocked (winPage n.val) fun d => d.windowFlush n.val data.toNat

/-! ### Queue modes (R406, R410, R418) -/

/-- The index of a queue: receive queue q is q, transmit queue t is 16 + t. -/
def queueIdx : QId → Nat
  | .rx q => q.val
  | .tx t => 16 + t.val

/-- R405, R418, R440: an error stops queue `q` or keeps it off. -/
def Dev.queueError (d : Dev) (n q code : Nat) : Dev :=
  let d := (d.wr (dbPage n) Reg.HBR_Q_STAT.ERR 1 q).wr (dbPage n) Reg.HBR_Q_STAT.ERRCODE code q
  (d.setHq n q { d.hq n q with stopped := true }).raise (dbPage n) 17

/-- R418: window units that enabled queues of all instances take. -/
def Dev.storeUse (d : Dev) : Nat := sumOf d.winUse (List.range 64)

/-- R418, R447: a queue takes its window store, or is refused it. -/
def Dev.windowOn (d : Dev) (n q : Nat) : Dev :=
  let u := d.rd (dbPage n) Reg.HBR_Q_CFG.WIN_UNITS q
  if 1024 < d.storeUse + u ∨ d.rd (instPage n) Reg.INST_LIMITS.WIN_MAX < d.winUse n + u then d.queueError n q 2
  else (d.setHq n q { d.hq n q with mode := 2, units := u }).wr (dbPage n) Reg.HBR_Q_STAT.ON 1 q

/-- R402: function `n` is in D3hot. -/
def Dev.inD3 (d : Dev) (n : Nat) : Bool := SMap.get (fun _ => false) d.hbr.d3 n

/-- R410: what MODE, SIZE and WIN_UNITS hold takes effect while ON is 0. -/
def Dev.queueStart (d : Dev) (n q : Nat) : Dev :=
  if d.on (dbPage n) Reg.HBR_Q_STAT.ON q || d.on (dbPage n) Reg.HBR_Q_STAT.ERR q || d.inD3 n then d
  else match d.rd (dbPage n) Reg.HBR_Q_CFG.MODE q with
    | 1 => (d.setHq n q { d.hq n q with
          mode := 1, size := d.rd (dbPage n) Reg.HBR_Q_CFG.SIZE q
          cqBase := d.rd (dbPage n) Reg.HBR_Q_IDX.CQ_TAIL q }).wr (dbPage n) Reg.HBR_Q_STAT.ON 1 q
    | 2 => d.windowOn n q
    | _ => d

/-- R416: the writes that put `bytes` into buffers, by address. -/
def bufferWrites : List Desc → List Byte → List (Nat × List Byte)
  | [], _ => []
  | x :: xs, bs => (descAddr x, bs.take (descSize x)) :: bufferWrites xs (bs.drop (descSize x))

/-- Write to host memory of function `n`. -/
def Dev.dmaWrites (d : Dev) (n : Nat) (ws : List (Nat × List Byte)) : Dev := ws.foldl (fun d w => d.emitWire (.dma n w.1 w.2)) d

/-- R24, R251: the header of a copy. -/
def Copy.shb (c : Copy) (s : Sen) : Shb :=
  { s.shb with flags := s.shb.flags ||| (if c.gap then flagGap else 0) ||| (if c.cut then flagCut else 0) }

/-- R413: a sentence in the layout of a buffer. -/
def bufImage (h : Shb) (body : List Byte) : List Byte :=
  ((shbWords h).flatMap fun w => [BitVec.ofNat 8 w, BitVec.ofNat 8 (w / 256)]) ++ body

/-- R410: DMA writes of the copy that receive queue `q` moves are under way when the queue stops, and complete. How many bytes of
the copy they are is not stated (notes/assumptions/1.md). -/
def Dev.keepFlying (d : Dev) (n q : Nat) : Dev :=
  match d.rxMoving n q with
  | (c, s) :: _ =>
    if (d.hq n q).mode != 1 then d
    else
      let img := bufImage (c.shb s) s.body
      let img := img.take (d.freeBits.toNat % (img.length + 1))
      d.drawn.setHq n q { d.hq n q with flying := (bufferWrites (d.hq n q).descs img).filter fun w => !w.2.isEmpty }
  | [] => d

/-- R410: a queue that is on stops. Copies admitted toward a receive queue fail, and windows are flushed; from then on nothing is
pushed to a transmit window, a held push included (R421). -/
def Dev.queueStop (d : Dev) (n q : Nat) : Dev :=
  if (d.hq n q).mode = 0 then d
  else if q < 16 then
    let d := ((d.keepFlying n q).failSet (rxSet n q) 0x02).flushRx n q
    d.setHq n q { d.hq n q with mode := 0 }
  else (d.setHq n q { d.hq n q with mode := 0 }).flushTx n (q - 16)

/-- R410: a write of HBR_Q_CFG of queue `q`, after the fields are stored. -/
def Dev.queueCfg (d : Dev) (n q : Nat) : Dev :=
  if d.rd (dbPage n) Reg.HBR_Q_CFG.MODE q = 0 then
    let d := ((d.queueStop n q).wr (dbPage n) Reg.HBR_Q_STAT.ERR 0 q).wr (dbPage n) Reg.HBR_Q_STAT.ERRCODE 0 q
    d.setHq n q { d.hq n q with stopped := false }
  else d.queueStart n q

/-- A write of MODE alone to queue `q` (R86, R444). -/
def Dev.modeWrite (d : Dev) (n q m : Nat) : Dev :=
  d.ofInst n (dbPage n) fun d => d.unlocked (dbPage n) fun d => (d.wr (dbPage n) Reg.HBR_Q_CFG.MODE m q).queueCfg n q

/-- QUEUE_OFF (R410): MODE is written 0b00. -/
def execQueueOff (via : Via) (n : Fin 64) (q : QId) : State → Host.Outcome State Fault Refusal :=
  onBus (.queueOff n q) via (dbPage n.val) fun d =>
  d.modeWrite n.val (queueIdx q) 0

/-- QUEUE_DMA (R406): MODE is written 0b01. -/
def execQueueDma (via : Via) (n : Fin 64) (q : QId) : State → Host.Outcome State Fault Refusal :=
  onBus (.queueDma n q) via (dbPage n.val) fun d =>
  d.modeWrite n.val (queueIdx q) 1

/-- QUEUE_WINDOW (R418): MODE is written 0b10. -/
def execQueueWindow (via : Via) (n : Fin 64) (q : QId) : State → Host.Outcome State Fault Refusal :=
  onBus (.queueWindow n q) via (dbPage n.val) fun d =>
  d.modeWrite n.val (queueIdx q) 2

/-- R410: DMA reads or writes of queue `q` are under way. -/
def Dev.queueBusy (d : Dev) (n q : Nat) : Bool :=
  if q < 16 then !(d.rxMoving n q).isEmpty else !(d.hq n q).descs.isEmpty

/-- QUEUE_STOPPED (R410): the DMA under way has completed; a MODE written meanwhile takes effect. -/
def execQueueStopped (n : Fin 64) (q : QId) : State → Host.Outcome State Fault Refusal := onDevL fun d =>
  let q := queueIdx q
  let n := n.val
  if (d.hq n q).mode != 0 || !d.on (dbPage n) Reg.HBR_Q_STAT.ON q || d.queueBusy n q then d
  else
    let h := d.hq n q
    (((d.dmaWrites n h.flying).setHq n q { h with flying := [] }).wr (dbPage n) Reg.HBR_Q_STAT.ON 0 q).queueStart n q

/-! ### Rings (R411 to R417) -/

/-- R417, R440: a doorbell that breaks the protocol is discarded, and ERRCODE shows it unless it shows an error that stopped the
queue. The queue goes on: no rule sets ERR for it (DEDUCED, notes/assumptions/51.md). -/
def Dev.dbError (d : Dev) (n q : Nat) : Dev :=
  let d := if d.on (dbPage n) Reg.HBR_Q_STAT.ERR q then d else d.wr (dbPage n) Reg.HBR_Q_STAT.ERRCODE 3 q
  d.raise (dbPage n) 16

/-- R417: the host posts entries up to `idx`. -/
def Dev.dbTail (d : Dev) (n q : Nat) (idx : BitVec 16) : Dev :=
  let h := d.hq n q
  let k := (idx - h.tail).toNat
  if h.mode != 1 then d
  else if d.ringEntries n q < h.outst + k then d.dbError n q
  else d.setHq n q { h with tail := idx, outst := h.outst + k }

/-- R417: the host has taken the records up to `idx`. -/
def Dev.dbHead (d : Dev) (n q : Nat) (idx : BitVec 16) : Dev :=
  let h := d.hq n q
  let k := (idx - h.cqHead).toNat
  if h.reps.length < k then d.dbError n q
  else d.setHq n q { h with cqHead := idx, outst := h.outst - sumOf id (h.reps.take k), reps := h.reps.drop k }

/-- DB_TAIL (R417). -/
def execDbTail (via : Via) (n : Fin 64) (q : QId) (idx : BitVec 16) : State → Host.Outcome State Fault Refusal :=
  onBus (.dbTail n q idx) via (dbPage n.val) fun d => d.ofInst n.val (dbPage n.val) fun d => d.dbTail n.val (queueIdx q) idx

/-- DB_CQ_HEAD (R417). -/
def execDbCqHead (via : Via) (n : Fin 64) (q : QId) (idx : BitVec 16) : State → Host.Outcome State Fault Refusal :=
  onBus (.dbCqHead n q idx) via (dbPage n.val) fun d => d.ofInst n.val (dbPage n.val) fun d => d.dbHead n.val (queueIdx q) idx

/-- R449, R453: instance `n` is being reset, or is frozen or freezing. -/
def Dev.instHeld (d : Dev) (n : Nat) : Bool :=
  let p := instPage n
  d.on p Reg.INST_STAT.RESETTING || d.on p Reg.INST_STAT.FREEZING || d.on p Reg.INST_STAT.FROZEN

/-- R276: a sentence of transmit queue `t` waits for admission. -/
def Dev.txWaits (d : Dev) (n t : Nat) : Bool :=
  d.swc.sens.any fun e => e.2.waits.isSome && e.2.waited && e.2.org.ofQueue n t

/-- R404, R405, R410, R417, R453: queue `q` reads its next descriptor now. -/
def Dev.mayFetch (d : Dev) (n q : Nat) : Bool :=
  let h := d.hq n q
  h.mode == 1 && !h.stopped && d.dmaOk n && !d.instHeld n && !d.shut && !d.pwr.silent &&
  d.rd (dbPage n) Reg.HBR_Q_IDX.DEV_HEAD q != h.tail.toNat && (q < 16 || !d.txWaits n (q - 16))

/-- DESCRIPTOR_FETCH (R412, R415): the queue reads its next descriptor; a transmit queue then reads the buffer. -/
def execDescriptorFetch (n : Fin 64) (q : QId) (desc : Desc) : State → Host.Outcome State Fault Refusal := onDevL fun d =>
  let q := queueIdx q
  let n := n.val
  if !d.mayFetch n q then d
  else
    let p := dbPage n
    let i := d.rd p Reg.HBR_Q_IDX.DEV_HEAD q
    let base := 64 * d.rd p Reg.HBR_Q_RING_LO.ADDR q + 2 ^ 32 * d.rd p Reg.HBR_Q_RING_HI.ADDR q
    let d := (d.emitWire (.dmaRead n (base + 16 * (i % d.ringEntries n q)) 16)).wr p Reg.HBR_Q_IDX.DEV_HEAD (i + 1) q
    let d := d.setHq n q { d.hq n q with descs := (d.hq n q).descs ++ [desc] }
    if q < 16 then d else d.emitWire (.dmaRead n (descAddr desc) (bitsOf desc.d2 0 15))

/-- R413: word `i` of a buffer. -/
def bufWord (b : List Byte) (i : Nat) : BitVec 16 := listGet 0 b (2 * i + 1) ++ listGet 0 b (2 * i)

/-- R413: the buffer of the oldest descriptor of transmit queue `t` has been read. -/
def Dev.bufferRead (d : Dev) (n t : Nat) (x : Desc) (b : List Byte) : Dev :=
  let h := d.hq n (16 + t)
  let len := (bufWord b 3).toNat % 16384
  let d := d.setHq n (16 + t) { h with descs := h.descs.drop 1 }
  if bitsOf x.d2 0 15 = 16 + len then
    let it : HostItem := ⟨n, t, false, x.d3, bitsOf x.d2 16 1 == 1, (List.range 8).map (bufWord b),
      (b.drop 16).take len, stampOf d.wclk⟩
    { d with hbr := { d.hbr with ready := d.hbr.ready ++ [it] } }
  else d.complete (.host n t false x.d3 false (d.inst n).era) ((bufWord b 0).setWidth 14) 0 0x11 []

/-- DMA_READ_DONE (R413): a buffer of transmit queue `t` has been read: its 16 header bytes and LEN more. -/
def execDmaReadDone (n : Fin 64) (t : Fin 8) (bytes : List Byte) : State → Host.Outcome State Fault Refusal := onDevL fun d =>
  match (d.hq n.val (16 + t.val)).descs with
  | [] => d
  | x :: _ =>
    let len := (bufWord bytes 3).toNat % 16384
    if bytes.length < 16 ∨ (bitsOf x.d2 0 15 = 16 + len ∧ bytes.length < 16 + len) then d
    else d.bufferRead n.val t.val x bytes

/-- DMA_READ_ERROR (R405): a read of the queue fails: the queue stops, and the sentence whose buffer was being read fails.
Its header was not read, so that its talker is not known (notes/assumptions/1.md). -/
def execDmaReadError (n : Fin 64) (q : QId) : State → Host.Outcome State Fault Refusal := onDevL fun d =>
  let q := queueIdx q
  let n := n.val
  let h := d.hq n q
  if h.mode != 1 && h.descs.isEmpty then d
  else
    let d := ((d.queueError n q 1).bump 0x010 Reg.HBR.DMA_RD_ERR).raise 0x010 16
    match decide (q < 16), h.descs with
    | false, x :: _ =>
      let t := d.freeBits.setWidth 14
      let d := d.drawn.setHq n q { d.hq n q with descs := h.descs.drop 1 }
      d.complete (.host n (q - 16) false x.d3 false (d.inst n).era) t 0 0x06 []
    | _, _ => d

/-! ### Receive queues (R407, R408, R416, R418) -/

/-- R416: whether the ring of receive queue `q` can ever hold enough buffers for `k` bytes, as far as the posted
descriptors tell. -/
def Dev.rxNever (d : Dev) (n q k : Nat) : Bool :=
  let lim := min 255 (d.ringEntries n q)
  match buffersFor (d.hq n q).descs k with
  | some m => decide (lim < m)
  | none => decide (lim ≤ (d.hq n q).descs.length)

/-- R408, R417, R418: receive queue `q` takes copy `c`, leaves it waiting, or fails it. -/
def Dev.rxTakes (d : Dev) (n q : Nat) (c : Copy) (s : Sen) : Dev :=
  let h := d.hq n q
  if h.mode = 2 then
    let k := sentenceSize s.body.length
    if h.cap < k then d.copyFails c 0x11 (d.placeOf c.set)
    else if h.cap < d.rxUsed n q + k then d else d.toMedium c
  else
    let k := 16 + s.body.length
    if d.rxNever n q k then d.copyFails c 0x11 (d.placeOf c.set)
    else if !d.dmaOk n || !(d.rxMoving n q).isEmpty || (buffersFor h.descs k).isNone then d
    else d.toMedium c

/-- EGRESS_HAND_ON at receive queue `q` of instance `n` (R240, R407). -/
def Dev.rxHandOn (d : Dev) (n q : Nat) : Dev :=
  match d.egressOrder (rxSet n q) with
  | [] => d
  | (c, s) :: _ =>
    let h := d.hq n q
    if h.mode = 0 ∨ h.stopped = true ∨ d.inD3 n = true then d.copyFails c 0x02 (d.placeOf c.set)
    else if d.instHeld n then d
    else d.chosen c s fun d => d.rxTakes n q c s

/-- R407, R435: a sentence is whole in the window store. -/
def Dev.windowGets (d : Dev) (n q : Nat) (c : Copy) (s : Sen) : Dev :=
  let h := d.hq n q
  let item := (s.shb.cls.toNat, sentenceWords (c.shb s) s.body)
  let d := d.setHq n q { h with win := { h.win with items := h.win.items ++ [item] } }
  (((d.received n s).deliver c)).queueRequest n q

/-- R416: the dwords of a receive completion record. -/
def rxRecord (first nbuf bytes : Nat) (h : Shb) : List Nat :=
  [first + 65536 * nbuf, bytes, h.talker.toNat + 65536 * h.cls.toNat, h.seq.toNat]

/-- R407, R416, R417: the buffers of a copy and its completion record are written. -/
def Dev.buffersGet (d : Dev) (n q : Nat) (c : Copy) (s : Sen) : Dev :=
  let h := d.hq n q
  let img := bufImage (c.shb s) s.body
  match buffersFor h.descs img.length with
  | none => d
  | some k =>
    let first := (d.rd (dbPage n) Reg.HBR_Q_IDX.DEV_HEAD q + 65536 - h.descs.length) % 65536
    let d := (d.dmaWrites n (bufferWrites (h.descs.take k) img)).setHq n q { h with descs := h.descs.drop k }
    let d := d.postRecord n q 0 (dwordBytes (rxRecord first k img.length s.shb))
    (d.received n s).deliver c

/-- R244, R404, R407: a copy that is being moved into receive queue `q` is whole there. In DMA mode it waits for Bus Master
Enable, as its record does. -/
def Dev.hostWhole (d : Dev) (n q : Nat) (c : Copy) (s : Sen) : Dev :=
  if (d.hq n q).mode = 2 then d.windowGets n q c s
  else if d.dmaOk n && (d.hq n q).due.isEmpty then d.buffersGet n q c s else d

/-- RX_COMPLETION (R416): the copy that receive queue `q` writes to host memory, or takes next, is complete there. -/
def execRxCompletion (n : Fin 64) (q : Fin 16) : State → Host.Outcome State Fault Refusal := onDevL fun d =>
  let n := n.val
  let q := q.val
  if (d.hq n q).mode != 1 || !d.dmaOk n then d
  else
    let d := if (d.rxMoving n q).isEmpty then d.rxHandOn n q else d
    match d.rxMoving n q with
    | (c, s) :: _ => d.buffersGet n q c s
    | [] => d

/-- MEMBER_DELIVERED (R244): a copy of member `m` that a receive queue is moving is delivered there. The other media have
commands of their own for their delivery moments. -/
def execMemberDelivered (sid member : Nat) : State → Host.Outcome State Fault Refusal := onDevL fun d =>
  match d.sen sid, d.swc.copies.find? fun c =>
      c.sid == sid && c.role == .member member && c.place == .medium && decide (0x100 ≤ c.set) with
  | some s, some c => d.hostWhole ((c.set - 0x100) / 16) ((c.set - 0x100) % 16) c s
  | _, _ => d

/-! ### Hand-on (R409) -/

/-- R204, R276, R449, R453: the head of a transmit queue may be handed on. -/
def Dev.mayHand (d : Dev) (i : HostItem) : Bool := !d.instHeld i.n && !d.txWaits i.n i.t

/-- Whether a posted sentence is of the same queue. -/
def HostItem.sameQueue (a b : HostItem) : Bool := a.n == b.n && a.t == b.t

/-- R409: the head sentence of each transmit queue. -/
def queueHeads : List HostItem → List HostItem
  | [] => []
  | x :: xs => x :: (queueHeads xs).filter fun y => !x.sameQueue y

/-- R23: CLASS as posted. -/
def HostItem.cls (i : HostItem) : Nat := (listGet 0 i.head 1).toNat % 8

/-- R409: how far a queue lies ahead of the round-robin pointer. -/
def Dev.turn (d : Dev) (i : HostItem) : Nat := (i.n * 8 + i.t + 512 - (d.hbr.rr + 1)) % 512

/-- R409: the head that goes next. -/
def Dev.nextHost (d : Dev) : List HostItem → Option HostItem
  | [] => none
  | x :: xs => match d.nextHost xs with
    | none => some x
    | some y => if x.cls < y.cls ∨ (x.cls = y.cls ∧ d.turn y < d.turn x) then some y else some x

/-- Take the first sentence of the queue of `x` away. -/
def dropHead (x : HostItem) : List HostItem → List HostItem
  | [] => []
  | y :: ys => if x.sameQueue y then ys else y :: dropHead x ys

/-- R30, R413: what the NRM gets of a posted sentence of an instance whose class I fields are of age `era`. -/
def HostItem.item (i : HostItem) (era fid : Nat) : Item :=
  ⟨.host i.n i.t i.win i.cookie i.ts era, 0, (listGet 0 i.head 0).setWidth 14, (listGet 0 i.head 1).setWidth 3,
   bitsOf (listGet 0 i.head 1) 3 1 == 1, false, none, i.body, i.time, i.body.length, i.n, true, none, fid, none⟩

/-- HOST_HAND_ON (R409). -/
def execHostHandOn : State → Host.Outcome State Fault Refusal := onDevL fun d =>
  if d.shut || d.pwr.silent then d
  else match d.nextHost ((queueHeads d.hbr.ready).filter d.mayHand) with
  | none => d
  | some x =>
    let d := { d with hbr := { d.hbr with ready := dropHead x d.hbr.ready, rr := x.n * 8 + x.t }
                      nrm := { d.nrm with items := d.nrm.items ++ [x.item (d.inst x.n).era d.nrm.nextFid], nextFid := d.nrm.nextFid + 1 } }
    ((d.bumpSat (instPage x.n) Reg.INST.TX_HANDED).bumpSat64 (instPage x.n) Reg.INST.TX_BYTES_LO Reg.INST.TX_BYTES_HI
      x.body.length).bump 0x010 Reg.HBR.TX_SENTENCES

/-! ### Holds (R429, R430) -/

/-- R429: a push from PCIe or the LHP that is held when it cannot land. -/
def Dev.push (d : Dev) (n t : Nat) (w : Word) (lhp : Bool) : Dev :=
  let waits := d.hbr.held.any fun x => x.lhp == lhp
  match waits, d.pushOne n t w with
  | false, some d' => d'
  | _, _ => d.holdPush ⟨n, t, w, lhp, 0, none⟩

/-- The hold that ends first. -/
def firstHold : List HeldPush → Option HeldPush
  | [] => none
  | x :: xs => match firstHold xs with
    | none => some x
    | some y => if y.till < x.till then some y else some x

/-- R429: the word is discarded, and the item in progress becomes a producer's item under R425. A push of MST_UPD_DATA has no
item and no Sentence Window page (R528): it counts alone. -/
def Dev.holdEnds (d : Dev) (x : HeldPush) : Dev :=
  let h := d.hq x.n (16 + x.t)
  let d := { d with hbr := { d.hbr with held := d.hbr.held.filter fun y => !(y == x) } }
  if x.upd.isSome then (d.bump 0x010 Reg.HBR.HOLD_DISCARDS).retryHeld
  else
  let d := if h.skip.isNone && (!h.build.isEmpty || x.word.tag != 3) then
    d.setHq x.n (16 + x.t) { h with build := [], skip := some [] } else d
  ((d.bump 0x010 Reg.HBR.HOLD_DISCARDS).raise (winPage x.n) 16).retryHeld

/-- R429, R479: when the hold of a PCIe write that waits for a tag ends. -/
def Dev.tagHoldEnd (d : Dev) (q : StayReq) : Nat := q.at_ + d.rd 0x010 Reg.HBR_HOLD.PCIE_US * Config.perUs

/-- R429, R479: the hold of a PCIe write that waits for a tag is too long: the write is discarded. It belongs to no Sentence Window
page: it counts alone. -/
def Dev.tagHoldEnds (d : Dev) (q : StayReq) : Dev := ((d.reach (d.tagHoldEnd q)).dropReq q).bump 0x010 Reg.HBR.HOLD_DISCARDS

/-- PUSH_HOLD_TIMEOUT (R429, R479): the hold that ends first. -/
def execPushHoldTimeout : State → Host.Outcome State Fault Refusal := onDevL fun d =>
  match firstHold d.hbr.held, d.sty.reqs.find? fun q => q.tagless with
  | none, none => d
  | some x, none => (d.reach x.till).holdEnds x
  | none, some q => d.tagHoldEnds q
  | some x, some q => if d.tagHoldEnd q < x.till then d.tagHoldEnds q else (d.reach x.till).holdEnds x

/-- LHP_TIMEOUT (R430, R316, R479): an LHP cycle that is held too long ends. It was an access, behind which no latch of R91
stands. -/
def execLhpTimeout : State → Host.Outcome State Fault Refusal := onDevL fun d =>
  match d.hbr.lwait with
  | none => d
  | some t =>
    let d := ((d.reach t).bump 0x010 Reg.HBR.LHP_TIMEOUTS).raise 0x01F 16
    let reads := d.sty.busQ.any fun q => match q with
      | .own a w => a.via == .lhp && !w
      | .named via (.imgData w _) => via == .lhp && !w
      | _ => false
    let busQ := d.sty.busQ.filter fun q => match q with | .own a _ => a.via != .lhp | .named via _ => via != .lhp | _ => true
    let d := { d with hbr := { d.hbr with lwait := none, latch := none }
                      eng := { d.eng with tsWait := d.eng.tsWait.filter fun x => x.2.2 != 2 }
                      sty := { d.sty with busQ := busQ } }
    let d := if reads then d.emitWire (.read .lhp 3 0xFFFF) else d
    ((d.sty.reqs.filter fun q => q.via == .lhp && q.got.isNone).foldl (fun (d : Dev) q => d.reqFails q .timeout) d).reqsLeave

/-! ### Interrupt holdoff (R436) -/

/-- HOLDOFF_EXPIRY (R436). -/
def execHoldoffExpiry (n : Fin 64) (q : QId) : State → Host.Outcome State Fault Refusal := onDevL fun d =>
  let q := queueIdx q
  let n := n.val
  match (d.hq n q).holdAt with
  | none => d
  | some t =>
    let d := (d.reach t).setHq n q { d.hq n q with holdAt := none }
    d.requestInst n (d.rd (dbPage n) Reg.HBR_Q_CFG.VECTOR q)

/-! ### PCIe (R402 to R404, R438) -/

/-- R404, R417: the records of a queue that waited for Bus Master Enable are written. -/
def Dev.writeDue (d : Dev) (n q : Nat) : Dev :=
  let due := (d.hq n q).due
  due.foldl (fun d r => d.writeRecord n q (if q < 16 then 0 else 1) r) (d.setHq n q { d.hq n q with due := [] })

/-- R402, R404: what waited for DMA of function `n` proceeds. -/
def Dev.dmaResumes (d : Dev) (n : Nat) : Dev :=
  if d.dmaOk n then (List.range 24).foldl (fun d q => d.writeDue n q) d else d

/-- BUS_MASTER_ENABLE (R404): Bus Master Enable of function `n` becomes 1. -/
def execBusMasterEnable (n : Fin 64) : State → Host.Outcome State Fault Refusal := onDevL fun d =>
  let d := { d with hbr := { d.hbr with bme := SMap.put (fun _ => false) d.hbr.bme n.val true } }
  (d.dmaResumes n.val).flushPba n.val

/-- D3HOT_TRANSITION (R402): in D3hot the queues of function `n` behave as if every MODE were 0b00. -/
def execD3hotTransition (n : Fin 64) (toD3 : Bool) : State → Host.Outcome State Fault Refusal := onDevL fun d =>
  let n := n.val
  let d := { d with hbr := { d.hbr with d3 := SMap.put (fun _ => false) d.hbr.d3 n toD3 } }
  if toD3 then
    (List.range 24).foldl (fun (d : Dev) q => d.queueStop n q) d
  else (List.range 24).foldl (fun (d : Dev) q => d.queueStart n q) (d.dmaResumes n)

/-- R402, R448: the configuration space of function `n` returns to its default; the MSI-X table of its instance is kept. -/
def Dev.functionGone (d : Dev) (n : Nat) : Dev :=
  { d with hbr := { d.hbr with
      bme := SMap.put (fun _ => false) d.hbr.bme n false
      fns := SMap.put (fun _ => .reset) d.hbr.fns n .reset
      d3 := SMap.put (fun _ => false) d.hbr.d3 n false } }

/-- R402, R442: the configuration space of function `n` and the MSI-X table of its instance return to their defaults. -/
def Dev.functionDefault (d : Dev) (n : Nat) : Dev :=
  let d := d.functionGone n
  { d with hbr := { d.hbr with msix := d.hbr.msix.filter fun e => e.1 / 256 != n } }

/-- R448: the physical function returns to its defaults, and the virtual functions disappear from PCIe; instances 1 to 63 keep
their state. -/
def Dev.physicalDefault (d : Dev) : Dev := (List.range 64).foldl (fun d k => d.functionGone k) (d.functionDefault 0)

/-- PCIE_LINK_UP (R438). -/
def execPcieLinkUp (speed : BitVec 4) (width : BitVec 5) : State → Host.Outcome State Fault Refusal := onDevL fun d =>
  ((d.wr 0x010 Reg.HBR_PCIE_STAT.SPEED speed.toNat).wr 0x010 Reg.HBR_PCIE_STAT.WIDTH width.toNat).wr
    0x010 Reg.HBR_PCIE_STAT.DL_UP 1

end Sys2Proof.Machine
end

