-- ==== Sys2Proof/Machine/Inst.lean ====
section
/-! DEFINITION. Virtual instances (spec/14_virtual_instances.md): commands (R445, R446), reset and its report (R448 to
R452), freezing (R453, R454), images (R455 to R457) and copies (R458); and what returns fields of a retention class to their
defaults (R506). -/

namespace Sys2Proof.Machine

open Sys2Proof

/-! ### Retention classes (R13, R506) -/

/-- The page, the offset and the lowest bit that a key of the register map names. -/
def keyPage (k : Nat) : PageId := k / 131072
def keyOff (k : Nat) : Nat := k / 32 % 4096
def keyLo (k : Nat) : Nat := k % 32

/-- Whether the field with a key is of one of the classes that `cs` holds of. -/
def classOfKey (cs : Cls → Bool) (k : Nat) : Bool :=
  (fieldsOf (keyPage k)).any fun f => f.lo == keyLo k && (f.elemAt (keyOff k)).isSome && cs (f.clsOn (keyPage k))

/-- R506: the fields of some classes on some pages return to their defaults. -/
def Dev.regsDefault (d : Dev) (cs : Cls → Bool) (ps : PageId → Bool) : Dev :=
  { d with regs := SMap.clear d.regs fun k => ps (keyPage k) && classOfKey cs k }

/-- The three pages of instance area `n`. -/
def areaPage (n p : Nat) : Bool := p == instPage n || p == winPage n || p == dbPage n

/-- R419, R506: the queues of instance `n` and its windows are as at reset. -/
def Dev.queuesDefault (d : Dev) (n : Nat) : Dev :=
  { d with hbr := { d.hbr with
      queues := SMap.clear d.hbr.queues fun k => k / 32 == n
      ready := d.hbr.ready.filter fun i => i.n != n
      held := d.hbr.held.filter fun x => x.n != n } }

/-- R506, R84: all class I state of instance area `n` returns to its default. -/
def Dev.areaDefault (d : Dev) (n : Nat) : Dev :=
  let d := (d.regsDefault (fun c => c == .i) (areaPage n)).queuesDefault n
  let d := d.setInst n { d.inst n with era := (d.inst n).era + 1 }
  { d with maint := SMap.clear d.maint (areaPage n) }

/-! ### Instance reset (R448 to R452) -/

/-- R206: instance `n` owns talker `t` in bank `b`. -/
def Dev.ownsIn (d : Dev) (b : BitVec 2) (n t : Nat) : Bool :=
  let d0 := d.tab32 b (0x100000 + 8 * t)
  entryUsed d0 && bitsOf d0 9 6 == n

/-- R442: instance `n` owns talker `t`. -/
def Dev.owns (d : Dev) (n t : Nat) : Bool := d.ownsIn d.nrm.active n t

/-- A sentence that a run has taken, or an output that a run of its instance makes (R449). -/
def Dev.inRun (d : Dev) (sid : Nat) (s : Sen) : Bool :=
  (match s.waits with | some (.engine _) => true | _ => false) ||
  d.eng.spes.any fun x => match x.2.run with | some r => r.ent.sid == sid || r.outs.contains sid | none => false

/-- R449: sentence `sid` of the instance that is reset fails, but for copies that are already on their medium. -/
def Dev.resetSen (d : Dev) (sid : Nat) (s : Sen) : Dev :=
  if s.targets.any (fun t => t.role == .engine) || d.swc.copies.any (fun c => c.sid == sid && c.role == .engine) then
    ((d.listAcct s.acct).dropInput sid 0x07 0x78).bump 0x050 Reg.ENG.CANCELLED
  else if s.waits.isSome then ((d.listAcct s.acct).waitingFails sid 0x07 0x7B).flowOf s.org s.fid
  else
    let cs := d.swc.copies.filter fun c => c.sid == sid && c.place != .medium
    if cs.isEmpty then d
    else cs.foldl (fun d c => d.copyFails c 0x07 (d.placeOf c.set)) (d.listAcct s.acct)

/-- R414, R449, R450: a host-posted sentence of `n` that is not looked up fails; it has no sequence number, and is listed with 0. -/
def Dev.resetItem (d : Dev) (n : Nat) (i : Item) : Dev :=
  let d := { d with nrm := { d.nrm with items := d.nrm.items.filter fun x => x.fid != i.fid } }
  (d.setInst n { d.inst n with list := (d.inst n).list ++ [(i.talker, 0)] }).resetSettles i.org

/-- R449: T0 of a reset: what is queued of instance `n`, or toward its receive queues, fails. -/
def Dev.resetSweep (d : Dev) (n : Nat) : Dev :=
  let mine := d.nrm.items.filter fun i => match i.org with | .host m _ _ _ _ _ => m == n | _ => false
  let d := mine.foldl (fun (d : Dev) i => d.resetItem n i) d
  let hit := d.swc.sens.filter fun e => e.2.what == .sentence && e.2.shb.inst.toNat == n && !d.inRun e.1 e.2
  let waits := fun (e : Nat × Sen) => d.eng.pending.any fun x => x.sid == e.1
  let d := (hit.filter waits ++ hit.filter fun e => !waits e).foldl (fun (d : Dev) e =>
    match d.sen e.1 with | some s => d.resetSen e.1 s | none => d) d
  (List.range 16).foldl (fun d q => d.failSet (rxSet n q) 0x07) d

/-- R448, R449: an instance reset of `n` starts. -/
def Dev.instReset (d : Dev) (n cause : Nat) : Dev :=
  let d := d.wr (instPage n) Reg.INST_STAT.RESETTING 1
  let d := d.setInst n { d.inst n with resetAt := some d.now, cause := cause, completed := 0, freed := 0, list := [] }
  (d.resetSweep n).countFreed n d.heldCells

/-- R449: the sequence counters, talker state, DISP and NEXT of the talkers of `n`, and its credit, become 0. -/
def Dev.talkersDefault (d : Dev) (n : Nat) : Dev :=
  { d with nrm := { d.nrm with seqs := SMap.clear d.nrm.seqs (d.owns n) }
           eng := { d.eng with ts := SMap.clear d.eng.ts fun k => d.owns n (k / 16)
                               ctl := SMap.clear d.eng.ctl (d.owns n)
                               credits := SMap.clear d.eng.credits fun k => k == n } }

/-- R451: the list in the order of the report. -/
def insertEntry2 (e : BitVec 14 × BitVec 16) : List (BitVec 14 × BitVec 16) → List (BitVec 14 × BitVec 16)
  | [] => [e]
  | x :: xs => if e.1 < x.1 ∨ (e.1 = x.1 ∧ seqEarlier e.2 x.2 = true) then e :: x :: xs else x :: insertEntry2 e xs

/-- R451: cut the list into parts of at most 1,024 entries. -/
def partsOf {α : Type} : Nat → List α → List (List α)
  | 0, xs => [xs]
  | k + 1, xs => if xs.length ≤ 1024 then [xs] else xs.take 1024 :: partsOf k (xs.drop 1024)

/-- R451: the payload of part `k` of a report. -/
def reportPart (n cause dev k : Nat) (last : Bool) (completed freed : Nat) (es : List (BitVec 14 × BitVec 16)) : List Nat :=
  [0x0101, n + 256 * cause + 4096 * dev, k + 32768 * b2n last, completed % 65536, completed / 65536 % 65536,
   freed % 65536, freed / 65536 % 65536, es.length] ++ es.flatMap fun e => [e.1.toNat, e.2.toNat]

/-- R452: a report can be sent. -/
def Dev.canReport (d : Dev) : Bool :=
  d.on 0x100 Reg.INST_RPT_CFG.EN &&
  (match d.controlDest with
   | .host n q => (d.refuses (rxSet n q)).isNone
   | .stay n _ _ => (d.pathOf n).isSome
   | _ => false)

/-- R451, R452: report on the reset of instance `n`. -/
def Dev.sendReport (d : Dev) (n : Nat) : Dev :=
  let x := d.inst n
  let es := x.list.foldl (fun acc e => insertEntry2 e acc) []
  let d := (d.wr 0x100 Reg.INST_RPT_SUM0.INST n).wr 0x100 Reg.INST_RPT_SUM0.CAUSE x.cause
  let d := d.wr 0x100 Reg.INST_RPT_SUM0.NLIST es.length
  let d := (d.wr 0x100 Reg.INST_RPT_SUM1.COMPLETED x.completed).wr 0x100 Reg.INST_RPT_SUM2.FREED x.freed
  if d.canReport then
    let ps := partsOf (es.length / 1024) es
    let cls := BitVec.ofNat 3 (d.rd 0x100 Reg.INST_RPT_CFG.CLASS)
    (List.range ps.length).foldl (fun d k =>
      d.control cls d.controlDest (reportPart n x.cause d.pwr.devId k (k + 1 == ps.length) x.completed x.freed
        (listGet [] ps k))) d
  else d.raise 0x100 23

/-! ### Commands (R445, R446) -/

/-- R445: the running command ends. -/
def Dev.instEnd (d : Dev) (result : Nat) : Dev :=
  let src := match d.insts.cmd with | some c => c.src | none => 0
  let d := (d.wr 0x100 Reg.INST_CMD.GO 0).wr 0x100 Reg.INST_CMD.RESULT result
  ({ d with insts := { d.insts with cmd := none } }.wr 0x100 Reg.INST_CMD.SRC src).raise 0x100 21

/-- R443: instance `n` exists. -/
def Dev.exists_ (d : Dev) (n : Nat) : Bool := decide (n < 64) && d.on (instPage n) Reg.INST_STAT.EXISTS

/-- R251, R269, R280, R489: fields whose new value applies from the next cell time. -/
def fromNextCell : List Fld :=
  [Reg.STY_TOPO.VALID, Reg.STY_TOPO.PRI, Reg.STY_TOPO.ALT1_EN, Reg.STY_TOPO.ALT1, Reg.STY_TOPO.ALT2_EN, Reg.STY_TOPO.ALT2,
   Reg.BUF_SET.LIMIT, Reg.BUF_SET.PROFILE, Reg.BUF_PROFILE.SHARE, Reg.BUF_FLOOR.FLOOR, Reg.INST_QUOTA.QUOTA,
   Reg.SWC_RESEQ_CFG.TIMEOUT_US]

/-- R251, R269, R280: before such a field is written, the value that stood at the start of this cell time is kept. -/
def Dev.keepOld (d : Dev) (p : PageId) (f : Fld) (i : Nat) : Dev :=
  if fromNextCell.contains f then
    let cell := d.now / Config.cellTime
    let olds := if d.swc.oldCell = cell then d.swc.olds else []
    { d with swc := { d.swc with oldCell := cell
                                 olds := if (assoc (f.key p i) olds).isSome then olds else (f.key p i, d.rd p f i) :: olds } }
  else d

/-- R446, R447, R459: QUOTA, WEIGHT and WIN_MAX from the arguments. -/
def Dev.giveShare (d : Dev) (c : InstCmd) : Dev :=
  let n := c.target
  (((d.keepOld (instPage n) Reg.INST_QUOTA.QUOTA 0).wr (instPage n) Reg.INST_QUOTA.QUOTA (bitsOf c.arg0 0 24)).wr
    0x051 Reg.ENG_SHARE.WEIGHT (bitsOf c.arg1 0 8) n).wr
    (instPage n) Reg.INST_LIMITS.WIN_MAX (bitsOf c.arg1 16 10)

/-- R446: a VALID talker entry of either bank names instance `n`. -/
def Dev.named (d : Dev) (n : Nat) : Bool :=
  (List.range 16384).any fun t => d.ownsIn 0 n t || d.ownsIn 1 n t

/-- R446: CREATE. -/
def Dev.cmdCreate (d : Dev) (c : InstCmd) : Dev :=
  if c.target = 0 ∨ 64 ≤ c.target ∨ d.exists_ c.target = true then d.instEnd 1
  else if d.winFree < bitsOf c.arg1 16 10 then d.instEnd 2
  else ((d.giveShare c).wr (instPage c.target) Reg.INST_STAT.EXISTS 1).instEnd 0

/-- R446: DESTROY, which performs a reset first. -/
def Dev.cmdDestroy (d : Dev) (c : InstCmd) : Dev :=
  if c.target = 0 ∨ d.exists_ c.target = false then d.instEnd 1
  else if d.named c.target then d.instEnd 3
  else d.instReset c.target 2

/-- R446, R447: SET_SHARE. -/
def Dev.cmdSetShare (d : Dev) (c : InstCmd) : Dev :=
  if !d.exists_ c.target then d.instEnd 1
  else if d.winFree + d.winHeld c.target < max (bitsOf c.arg1 16 10) (d.winUse c.target) ∧
      d.rd (instPage c.target) Reg.INST_LIMITS.WIN_MAX < bitsOf c.arg1 16 10 then d.instEnd 2
  else (d.giveShare c).instEnd 0

/-- R446: RESET. -/
def Dev.cmdReset (d : Dev) (c : InstCmd) : Dev := if d.exists_ c.target then d.instReset c.target 0 else d.instEnd 1

/-- R446, R453: FREEZE. -/
def Dev.cmdFreeze (d : Dev) (c : InstCmd) : Dev :=
  let p := instPage c.target
  if !d.exists_ c.target then d.instEnd 1
  else if d.on p Reg.INST_STAT.FROZEN || d.on p Reg.INST_STAT.FREEZING then d.instEnd 3
  else (d.wr p Reg.INST_STAT.FREEZING 1).setInst c.target { d.inst c.target with freezeAt := some d.now }

/-- R454: instance `n` resumes. -/
def Dev.thaw (d : Dev) (n : Nat) : Dev :=
  let p := instPage n
  (((d.wr p Reg.INST_STAT.FROZEN 0).wr p Reg.INST_STAT.FREEZING 0).setInst n { d.inst n with freezeAt := none }).raise p 18

/-- R446: THAW. -/
def Dev.cmdThaw (d : Dev) (c : InstCmd) : Dev :=
  if 64 ≤ c.target then d.instEnd 1
  else if d.on (instPage c.target) Reg.INST_STAT.FROZEN then (d.thaw c.target).instEnd 0 else d.instEnd 3

/-- R457: SAVE or RESTORE of instance `n` ends with a result; IMG_DONE is set on its page. -/
def Dev.imageResult (d : Dev) (n result : Nat) : Dev :=
  (if d.exists_ n then d.raise (instPage n) 20 else d).instEnd result

/-- R455, R457: SAVE and RESTORE start. -/
def Dev.cmdImage (d : Dev) (c : InstCmd) : Dev :=
  let p := instPage c.target
  if 64 ≤ c.target then d.instEnd 1
  else if !d.on p Reg.INST_STAT.FROZEN || d.inflight c.target != 0 then d.imageResult c.target 3
  else if !d.xmOn then d.imageResult c.target 2
  else
    let r := d.maintTake p 0x0B c.src
    if r.1 then r.2.wr p Reg.INST_STAT.IMG_BUSY 1 else r.2.imageResult c.target 4

/-- R455: the address of slot `s` in the image memory. -/
def slotBase (s : Nat) : Nat := s * 0x400000

/-- The byte at an address of the image memory. -/
def Dev.imgByte (d : Dev) (a : Nat) : Byte := SMap.get (fun _ => (0 : Byte)) d.insts.images a

/-- The dword at an address of the image memory. -/
def Dev.imgDword (d : Dev) (a : Nat) : Nat :=
  let b := fun k => (d.imgByte (a + k)).toNat
  b 0 + 256 * (b 1 + 256 * (b 2 + 256 * b 3))

/-- R456: the bytes of the image in slot `s`: as many as its header gives, and at most the slot. -/
def Dev.slotBytes (d : Dev) (s : Nat) : List Byte :=
  (List.range (min (d.imgDword (slotBase s + 8)) 0x400000)).map fun k => d.imgByte (slotBase s + k)

/-- R458: COPY starts: slot ARG0 goes to far slot ARG2 of device ARG1 over Stay VC0. -/
def Dev.cmdCopy (d : Dev) (c : InstCmd) : Dev :=
  let dev := bitsOf c.arg1 0 4
  match d.pathOf dev with
  | none => d.instEnd 1
  | some l =>
    if 64 ≤ c.target ∨ dev = d.pwr.devId then d.instEnd 1
    else if !d.xmOn then d.instEnd 2
    else d.emitWire (.image l.1 dev (bitsOf c.arg2 0 5) (d.slotBytes (bitsOf c.arg0 0 5)))

/-- R446: a command starts. What the codes that name none end with is not stated (notes/assumptions/1.md). -/
def Dev.instRun (d : Dev) (c : InstCmd) : Dev :=
  match c.op with
  | 1 => d.cmdCreate c
  | 2 => d.cmdDestroy c
  | 3 => d.cmdSetShare c
  | 4 => d.cmdReset c
  | 5 => d.cmdFreeze c
  | 6 => d.cmdThaw c
  | 7 => d.cmdImage c
  | 8 => d.cmdImage c
  | 9 => d.cmdCopy c
  | _ => d.drawn.instEnd (d.freeBits.toNat % 8)

/-- R445: a write of INST_CMD with GO at 1 by source `src`, after OP and TARGET are stored. -/
def Dev.instGo (d : Dev) (op target src : Nat) : Dev :=
  let arg := fun i => BitVec.ofNat 32 (d.rd 0x100 Reg.INST_CMD_ARG.ARG i)
  let c : InstCmd := ⟨op, target, src, arg 0, arg 1, arg 2⟩
  let d := ((d.wr 0x100 Reg.INST_CMD.GO 1).wr 0x100 Reg.INST_CMD.SRC src)
  { d with insts := { d.insts with cmd := some c } }.instRun c

/-- R445, R86: a write of INST_CMD with OP, TARGET and GO. -/
def Dev.instWrite (d : Dev) (via : Via) (op target : Nat) : Dev :=
  d.unlocked 0x100 fun d =>
    if d.on 0x100 Reg.INST_CMD.GO then d.raise 0x100 22
    else ((d.wr 0x100 Reg.INST_CMD.OP op).wr 0x100 Reg.INST_CMD.TARGET target).instGo op target (viaCode via)

/-- CREATE (R446). -/
def execCreate (via : Via) (target : Nat) : State → Host.Outcome State Fault Refusal :=
  onBus (.create target) via 0x100 fun d => d.instWrite via 1 target

/-- DESTROY (R446). -/
def execDestroy (via : Via) (target : Nat) : State → Host.Outcome State Fault Refusal :=
  onBus (.destroy target) via 0x100 fun d => d.instWrite via 2 target

/-- SET_SHARE (R446, R447). -/
def execSetShare (via : Via) (target : Nat) : State → Host.Outcome State Fault Refusal :=
  onBus (.setShare target) via 0x100 fun d => d.instWrite via 3 target

/-- RESET (R446, R449). -/
def execReset (via : Via) (target : Nat) : State → Host.Outcome State Fault Refusal :=
  onBus (.reset target) via 0x100 fun d => d.instWrite via 4 target

/-- FREEZE (R446, R453). -/
def execFreeze (via : Via) (target : Nat) : State → Host.Outcome State Fault Refusal :=
  onBus (.freeze target) via 0x100 fun d => d.instWrite via 5 target

/-- THAW (R446, R454). -/
def execThaw (via : Via) (target : Nat) : State → Host.Outcome State Fault Refusal :=
  onBus (.thaw target) via 0x100 fun d => d.instWrite via 6 target

/-- SAVE (R446, R457). -/
def execSave (via : Via) (target : Nat) : State → Host.Outcome State Fault Refusal :=
  onBus (.save target) via 0x100 fun d => d.instWrite via 7 target

/-- RESTORE (R446, R457). -/
def execRestore (via : Via) (target : Nat) : State → Host.Outcome State Fault Refusal :=
  onBus (.restore target) via 0x100 fun d => d.instWrite via 8 target

/-- COPY (R446, R458). -/
def execCopy (via : Via) (target : Nat) : State → Host.Outcome State Fault Refusal :=
  onBus (.copy target) via 0x100 fun d => d.instWrite via 9 target

/-- Whether the command that runs has one of the codes `ops` and target `n`. -/
def Dev.cmdIs (d : Dev) (ops : List Nat) (n : Nat) : Bool :=
  match d.insts.cmd with | some c => ops.contains c.op && c.target == n | none => false

/-- R446, R449: a DESTROY ends: its reservation is released. -/
def Dev.destroyEnds (d : Dev) (n : Nat) : Dev :=
  (d.wr (instPage n) Reg.INST_LIMITS.WIN_MAX 0).wr (instPage n) Reg.INST_STAT.EXISTS 0

/-- RESET_DONE (R449, R451): the reset of instance `n` ends. -/
def execResetDone (n : Fin 64) : State → Host.Outcome State Fault Refusal := onDevL fun d =>
  let n := n.val
  match (d.inst n).resetAt with
  | none => d
  | some t =>
    let d := (((d.reach (t + 50 * Config.perUs)).cancelRuns n).areaDefault n).talkersDefault n
    let d := ((d.wr (instPage n) Reg.INST_STAT.RESETTING 0).raise (instPage n) 16).sendReport n
    let d := d.setInst n { d.inst n with resetAt := none, list := [] }
    if d.cmdIs [2] n then (d.destroyEnds n).instEnd 0
    else if d.cmdIs [4] n then d.instEnd 0 else d

/-! ### Freezing (R453, R454) -/

/-- R453: nothing of instance `n` is left in the engine array, and no DMA of it is under way. -/
def Dev.quiet (d : Dev) (n : Nat) : Bool :=
  !(d.eng.pending.any fun e => e.inst == n) &&
  !(d.eng.spes.any fun x => x.2.deque.any (fun e => e.inst == n) ||
    (match x.2.run with | some r => r.ent.inst == n | none => false)) &&
  !((List.range 24).any fun q => d.queueBusy n q)

/-- R453: instance `n` is frozen. -/
def Dev.frozen (d : Dev) (n : Nat) : Dev :=
  let p := instPage n
  let d := ((d.wr p Reg.INST_STAT.FREEZING 0).wr p Reg.INST_STAT.FROZEN 1).setInst n { d.inst n with freezeAt := none }
  if d.cmdIs [5] n then d.instEnd 0 else d

/-- FROZEN (R453). Its event is a level (R578). -/
def execFrozen (n : Fin 64) : State → Host.Outcome State Fault Refusal := onDevL fun d =>
  if d.on (instPage n.val) Reg.INST_STAT.FREEZING && d.quiet n.val then d.frozen n.val else d

/-- FREEZE_TIMEOUT (R453, R459). -/
def execFreezeTimeout (n : Fin 64) : State → Host.Outcome State Fault Refusal := onDevL fun d =>
  match (d.inst n.val).freezeAt with
  | none => d
  | some t =>
    let d := d.reach (t + 10 * Config.perMs)
    if d.quiet n.val then d.frozen n.val
    else
      let d := d.thaw n.val
      if d.cmdIs [5] n.val then d.instEnd 6 else d

/-! ### Images (R455 to R457) -/

/-- R456: the dword of the class I fields at an offset of a page. The doorbells carry the indices that they hold. -/
def Dev.classI (d : Dev) (p : PageId) (off : Nat) : Nat :=
  (fieldsOf p).foldl (fun acc f =>
    match f.elemAt off with
    | some i => if f.clsOn p == .i then acc + d.field p f i 0 * 2 ^ f.lo else acc
    | none => acc) 0

/-- R456, R440: an offset of the doorbell page: the index that a doorbell wrote, or the class I fields. -/
def Dev.dbDword (d : Dev) (n off : Nat) : Nat :=
  if between 0x800 0x8BF off then
    let h := d.hq n ((off - 0x800) / 8)
    if off % 8 = 0 then h.tail.toNat else if off % 8 = 4 then h.cqHead.toNat else 0
  else d.classI (dbPage n) off

/-- R456: the words of a sentence as it was posted. -/
def postedWords (i : HostItem) : List Word :=
  i.head.map (fun x => Word.mk 2 x) ++ endTagged 1 (bodyWords i.body)

/-- R456: the contents of the window store of queue `q`. -/
def Dev.storeWords (d : Dev) (n q : Nat) : List Word :=
  let h := d.hq n q
  if q < 16 then h.win.cur ++ h.win.items.flatMap (·.2)
  else (d.hbr.ready.filter fun i => i.win && i.n == n && i.t == q - 16).flatMap postedWords ++ h.build

/-- One word per dword, in a space of `k` dwords. -/
def padded (k : Nat) (ws : List Word) : List Nat := (List.range k).map fun i => (listGet 0 ws i).toNat

/-- R456: the queues of `n` that hold window units, in queue order. -/
def Dev.windowQueues (d : Dev) (n : Nat) : List Nat := (List.range 24).filter fun q => (d.hq n q).window

/-- R456: the record of talker `t`. -/
def Dev.talkerRec (d : Dev) (t : Nat) : List Nat :=
  let c := d.tctl t
  [t + 65536 * (d.cell16 t).toNat, c.disp.toNat + 65536 * c.next.toNat] ++
  (List.range 16).map (fun k => (SMap.get (fun _ => (0 : Word)) d.eng.ts (t * 16 + k)).toNat) ++ List.replicate 14 0

/-- R456: the talkers of instance `n`. -/
def Dev.talkersOf (d : Dev) (n : Nat) : List Nat := (List.range 16384).filter (d.owns n)

/-- R456: the image of instance `n` from offset 0x400 on, dword by dword. -/
def Dev.imageBody (d : Dev) (n : Nat) : List Nat :=
  let page := fun (f : Nat → Nat) => (List.range 1024).map fun j => if 0x300 ≤ j then 0 else f (4 * j)
  page (d.classI (instPage n)) ++ page (d.classI (winPage n)) ++ page (d.dbDword n) ++
  ((List.range 1024).map fun j =>
    if j < 128 then (d.msixWord (n * 256 + j)).toNat else if j = 512 then (d.msixWord (n * 256 + 128)).toNat else 0) ++
  ((List.range 8).flatMap fun t =>
    padded 1024 ((d.hq n (16 + t)).compl.cur ++ (d.hq n (16 + t)).compl.items.flatMap (·.2))) ++
  ((d.windowQueues n).flatMap fun q => padded (256 * (d.hq n q).units) (d.storeWords n q)) ++
  (d.talkersOf n).flatMap d.talkerRec

/-- R456: the header. -/
def Dev.imageHeader (d : Dev) (n : Nat) (body : List Nat) : List Nat :=
  let t := nsOf d.wclk % 2 ^ 48
  [0x4952424B, bitsOf d.mst.levels 0 8 + 65536, 1024 + 4 * body.length, d.pwr.devId + 16 * n, (d.talkersOf n).length,
   d.winUse n, t % 2 ^ 32, t / 2 ^ 32, (crc32 (dwordBytes body)).toNat] ++ List.replicate 247 0

/-- Write bytes into the image memory. -/
def putBytes : List Host.Cell → Nat → List Byte → List Host.Cell
  | m, _, [] => m
  | m, a, b :: bs => putBytes (SMap.put (fun _ => 0) m a b) (a + 1) bs

/-- R457: SAVE writes the image. -/
def Dev.saveImage (d : Dev) (n s : Nat) : Dev :=
  let body := d.imageBody n
  { d with insts := { d.insts with
      images := putBytes d.insts.images (slotBase s) (dwordBytes (d.imageHeader n body ++ body)) } }

/-- R456, R458: the CRC of the image in slot `s` matches. -/
def Dev.slotCrc (d : Dev) (s : Nat) : Bool :=
  decide (d.imgDword (slotBase s + 8) ≤ 0x400000) &&
  d.imgDword (slotBase s + 32) == (crc32 ((d.slotBytes s).drop 1024)).toNat

/-- R458: an image that another device sends into slot `s` arrives: whether this device is READY for it, and whether its CRC
matches. The table has no command that brings one (notes/assumptions/39.md). -/
def Dev.imageArrives (d : Dev) (s : Nat) (bytes : List Byte) : (Bool × Bool) × Dev :=
  if d.xmOn then
    let e := { d with insts := { d.insts with images := putBytes d.insts.images (slotBase s) (bytes.take 0x400000) } }
    ((true, e.slotCrc s), e)
  else ((false, false), d)

/-- R456, R457: the image of slot `s` is one that this device can restore. -/
def Dev.imageOk (d : Dev) (s : Nat) : Bool :=
  let r := fun i => d.imgDword (slotBase s + 4 * i)
  let size := r 2
  r 0 == 0x4952424B && r 1 == bitsOf d.mst.levels 0 8 + 65536 && decide (50176 ≤ size) && d.slotCrc s

/-- R457: put the class I fields that the image holds at `base` into page `p`; an event bit that the page does not have stays 0
(R6). -/
def Dev.restorePage (d : Dev) (p : PageId) (base : Nat) : Dev :=
  (fieldsOf p).foldl (fun (d : Dev) f =>
    if f.clsOn p == .i && f.home == .stored then
      (List.range f.cnt).foldl (fun (d : Dev) i =>
        let off := f.off + f.step * i
        let v := if off < 0xC00 then d.imgDword (base + off) / 2 ^ f.lo else 0
        d.wr p f (if f == Reg.PG_EVT.EVT || f == Reg.PG_EVT_EN_SET.EN then Nat.land v (eventBits p) else v) i) d
    else d) d

/-- The words of a store, up to the first dword that holds none (tag 00). -/
def Dev.imageWords (d : Dev) (a k : Nat) : List Word :=
  ((List.range k).map fun i => (BitVec.ofNat 18 (d.imgDword (a + 4 * i)))).takeWhile fun (w : Word) => w.tag != 0

/-- Cut words into items at their end marks: the whole items, and what is left. -/
def splitItems : List Word → List Word → List (List Word) × List Word
  | acc, [] => ([], acc)
  | acc, w :: ws =>
    if w.tag = 3 then (let r := splitItems [] ws; ((acc ++ [w]) :: r.1, r.2)) else splitItems (acc ++ [w]) ws

/-- R422: the words form a whole completion record. -/
def recordOk (ws : List Word) : Bool := ws.length == 12 + (listGet 0 ws 2).data.toNat / 256

/-- R419, R420, R456: a pop window from its words and its LASTPOP values; a first item that is not whole is the rest of one
that a reader is part-way through. -/
def windowFrom (ok : List Word → Bool) (cls : List Word → Nat) (ws : List Word) (last : List (BitVec 32)) : PopWin :=
  let items := (splitItems [] ws).1
  let seq : BitVec 14 := match last with | x :: _ => if x = 0 then 0 else x.extractLsb' 18 14 + 1 | [] => 0
  match items with
  | x :: xs => if ok x then ⟨items.map fun i => (cls i, i), [], seq, last, 0⟩ else ⟨xs.map fun i => (cls i, i), x, seq, last, 0⟩
  | [] => ⟨[], [], seq, last, 0⟩

/-- A whole item of a transmit window, from its words. -/
def Dev.postedItem (d : Dev) (n t : Nat) (ws : List Word) : HostItem :=
  ⟨n, t, true, (listGet 0 ws 2).data.setWidth 32, d.on (dbPage n) Reg.HBR_Q_CFG.TS_REQ (16 + t),
   (ws.take 8).map fun w => w.data, bodyOf ws, stampOf d.wclk⟩

/-- R457: queue `q` comes back from the image at `base`; its store begins at `store`. -/
def Dev.restoreQueue (d : Dev) (n q base store : Nat) : Dev :=
  let p := dbPage n
  let on := d.on p Reg.HBR_Q_STAT.ON q
  let u := d.rd p Reg.HBR_Q_CFG.WIN_UNITS q
  let mode := if on then d.rd p Reg.HBR_Q_CFG.MODE q else 0
  let lp := fun (o : Nat) => (List.range 4).map fun k => BitVec.ofNat 32 (d.imgDword (base + 0x1000 + o + 4 * k))
  let ws := if mode = 2 then d.imageWords store (256 * u) else []
  let tail := BitVec.ofNat 16 (d.imgDword (base + 0x2800 + 8 * q))
  let head := BitVec.ofNat 16 (d.imgDword (base + 0x2804 + 8 * q))
  let recs := (BitVec.ofNat 16 (d.rd p Reg.HBR_Q_IDX.CQ_TAIL q) - head).toNat
  let posted := (tail - BitVec.ofNat 16 (d.rd p Reg.HBR_Q_IDX.DEV_HEAD q)).toNat
  let h : HostQ := { HostQ.reset with
    mode := mode, size := d.rd p Reg.HBR_Q_CFG.SIZE q, units := u, tail := tail, cqHead := head, outst := posted + recs,
    reps := List.replicate recs 1, stopped := d.on p Reg.HBR_Q_STAT.ERR q }
  if q < 16 then
    d.setHq n q { h with win := windowFrom itemOk (fun i => (listGet 0 i 1).data.toNat % 8) ws (lp (0x800 + 16 * q)) }
  else
    let its := splitItems [] ws
    let cw := d.imageWords (base + 0x4000 + 4096 * (q - 16)) 1024
    let d := { d with hbr := { d.hbr with ready := d.hbr.ready ++ its.1.map (d.postedItem n (q - 16)) } }
    d.setHq n q { h with build := its.2, owed := its.1.length
                         compl := windowFrom recordOk (fun _ => 0) cw (lp (0x900 + 16 * (q - 16))) }

/-- R457: the queues come back in queue order, each store behind the one before. -/
def Dev.restoreQueues (d : Dev) (n base : Nat) : Dev :=
  ((List.range 24).foldl (fun (acc : Dev × Nat) q =>
    let d := acc.1.restoreQueue n q base acc.2
    (d, if (d.hq n q).mode = 2 then acc.2 + 1024 * (d.hq n q).units else acc.2)) (d, base + 0xC000)).1

/-- R457: put a talker record back, or skip it. -/
def Dev.restoreTalker (d : Dev) (n a : Nat) : Dev :=
  let r := fun i => d.imgDword (a + 4 * i)
  let t := r 0 % 16384
  if d.owns n t then
    let d := { d with nrm := { d.nrm with seqs := SMap.put (fun _ => 0) d.nrm.seqs t (BitVec.ofNat 16 (r 0 / 65536)) } }
    let d := d.setTctl t { d.tctl t with disp := BitVec.ofNat 16 (r 1), next := BitVec.ofNat 16 (r 1 / 65536) }
    (List.range 16).foldl (fun d k => d.putState (t * 16 + k) (BitVec.ofNat 18 (r (2 + k)))) d
  else d.wr 0x100 Reg.INST_CMD_ARG3.RET (d.rd 0x100 Reg.INST_CMD_ARG3.RET + 1)

/-- R457: RESTORE puts the image of slot `s` into instance `n`. -/
def Dev.restoreImage (d : Dev) (n s : Nat) : Dev :=
  let base := slotBase s + 1024
  let win := d.imgDword (slotBase s + 20)
  let nt := d.imgDword (slotBase s + 16)
  let d := d.queuesDefault n
  let d := ((d.restorePage (instPage n) base).restorePage (winPage n) (base + 0x1000)).restorePage (dbPage n) (base + 0x2000)
  let d := (List.range 129).foldl (fun (d : Dev) j =>
    d.setMsix (n * 256 + j) (BitVec.ofNat 32 (d.imgDword (base + 0x3000 + (if j = 128 then 2048 else 4 * j))))) d
  let d := (d.restoreQueues n base).wr 0x100 Reg.INST_CMD_ARG3.RET 0
  (List.range nt).foldl (fun (d : Dev) k => d.restoreTalker n (base + 0xC000 + 1024 * win + 128 * k)) d

/-- R457: SAVE or RESTORE of instance `n` ends. -/
def Dev.imageEnds (d : Dev) (n result : Nat) : Dev :=
  ((d.maintEnd (instPage n) 0x0B).wr (instPage n) Reg.INST_STAT.IMG_BUSY 0).imageResult n result

/-- IMG_DONE (R457). -/
def execImgDone (n : Fin 64) : State → Host.Outcome State Fault Refusal := onDevL fun d =>
  let n := n.val
  match d.insts.cmd with
  | none => d
  | some c =>
    let s := bitsOf c.arg0 0 5
    if c.target ≠ n then d
    else if c.op = 7 then (if d.xmOn then (d.saveImage n s).imageEnds n 0 else d.imageEnds n 2)
    else if c.op = 8 then
      if !d.xmOn then d.imageEnds n 2
      else if !d.imageOk s then d.imageEnds n 5
      else if d.rd (instPage n) Reg.INST_LIMITS.WIN_MAX < d.imgDword (slotBase s + 20) then d.imageEnds n 2
      else (d.restoreImage n s).imageEnds n 0
    else d

/-- COPY_DONE (R458): the far device is ready or not, its CRC check, and whether a path stayed. -/
def execCopyDone (farReady crcOk pathOk : Bool) : State → Host.Outcome State Fault Refusal := onDevL fun d =>
  match d.insts.cmd with
  | none => d
  | some c =>
    if c.op ≠ 9 then d
    else d.instEnd (if !farReady then 2 else if !pathOk then 7 else if crcOk then 0 else 5)

/-- R458: a command uses the slot that INST_IMG_SEL selects. -/
def Dev.slotInUseByCmd (d : Dev) : Bool :=
  match d.insts.cmd with
  | some c => decide (7 ≤ c.op) && decide (c.op ≤ 9) && bitsOf c.arg0 0 5 == d.rd 0x100 Reg.INST_IMG_SEL.SLOT
  | none => false

/-- R462: each access advances DWORD by one. -/
def Dev.imgAdvance (d : Dev) : Dev :=
  d.wr 0x100 Reg.INST_IMG_SEL.DWORD (d.rd 0x100 Reg.INST_IMG_SEL.DWORD + 1)

/-- R458, R462: a write of INST_IMG_DATA. Without LPDDR5 nothing holds it. -/
def Dev.imgWrite (d : Dev) (v : BitVec 32) : Dev :=
  if d.slotInUseByCmd then d.raise 0x100 4
  else
    let a := slotBase (d.rd 0x100 Reg.INST_IMG_SEL.SLOT) + 4 * d.rd 0x100 Reg.INST_IMG_SEL.DWORD
    let d := if d.xmOn then
      { d with insts := { d.insts with images := putBytes d.insts.images a (dwordBytes [v.toNat]) } } else d
    d.imgAdvance

/-- R458, R462: a read of INST_IMG_DATA. -/
def Dev.imgRead (d : Dev) : BitVec 32 × Dev :=
  if d.slotInUseByCmd then (0xFFFFFFFF, d.raise 0x100 4)
  else if !d.xmOn then (0, d.imgAdvance)
  else (BitVec.ofNat 32 (d.imgDword (slotBase (d.rd 0x100 Reg.INST_IMG_SEL.SLOT) + 4 * d.rd 0x100 Reg.INST_IMG_SEL.DWORD)),
    d.imgAdvance)

/-- IMG_DATA (R462): a read or a write of INST_IMG_DATA. -/
def execImgData (via : Via) (write : Bool) (data : BitVec 32) : State → Host.Outcome State Fault Refusal :=
  onBusFor write (.imgData write data) via 0x100 fun d =>
  if write then d.imgWrite data
  else d.imgRead.2.readBack via 0x400C80 0 d.imgRead.1

/-! ### PCIe resets (R403, R448, R506) -/

/-- R459: an image command or a freeze of `n` is aborted. A slot that was being written fails its check. -/
def Dev.abortOf (d : Dev) (n : Nat) : Dev :=
  match d.insts.cmd with
  | none => d
  | some c =>
    if c.target ≠ n ∨ ¬ (c.op = 5 ∨ c.op = 7 ∨ c.op = 8) then d
    else
      let a := slotBase (bitsOf c.arg0 0 5)
      let d := if c.op = 7 then { d with insts := { d.insts with images := putBytes d.insts.images a [0, 0, 0, 0] } } else d
      let d := if c.op = 5 then (d.wr (instPage n) Reg.INST_STAT.FREEZING 0).setInst n { d.inst n with freezeAt := none }
        else ((d.maintEnd (instPage n) 0x0B).wr (instPage n) Reg.INST_STAT.IMG_BUSY 0).raise (instPage n) 20
      d.instEnd 7

/-- FUNCTION_LEVEL_RESET (R403, R448, R507): the physical function takes the virtual functions with it. -/
def execFunctionLevelReset (n : Fin 64) : State → Host.Outcome State Fault Refusal := onDevL fun d =>
  let n := n.val
  let d := if n = 0 then d.physicalDefault else d.functionDefault n
  if d.exists_ n then (d.abortOf n).instReset n 1 else d

/-- PCIE_LINK_DOWN (R506, R507): a hot reset or link down: configuration space and the class I fields of instance 0 return
to their defaults. What was admitted toward its receive queues fails, as when they are turned off (R410). -/
def execPcieLinkDown : State → Host.Outcome State Fault Refusal := onDevL fun d =>
  let d := d.physicalDefault
  let d := (List.range 16).foldl (fun d q => d.failSet (rxSet 0 q) 0x02) d
  let d := d.areaDefault 0
  ((d.wr 0x010 Reg.HBR_PCIE_STAT.SPEED 0).wr 0x010 Reg.HBR_PCIE_STAT.WIDTH 0).wr 0x010 Reg.HBR_PCIE_STAT.DL_UP 0

end Sys2Proof.Machine
end

