-- ==== Sys2Proof/Machine/RegSet.lean ====
section
/-! DEFINITION. Writes of RW fields (R11, R88): what is stored, what the write of a field sets going, the lock of a page
(R85, R86), and the register lists of rig images (R503, R525). -/

namespace Sys2Proof.Machine

open Sys2Proof

/-! ### What a write stores -/

/-- R88: the bits of the enabled bytes. -/
def byteMask (be : BitVec 4) : Nat := sumOf (fun i => if bitAt be.toNat i then 255 * 2 ^ (8 * i) else 0) [0, 1, 2, 3]

/-- R88: the value of a field that held `old`, after a write of `v` to the enabled bytes of its register. -/
def Fld.merged (f : Fld) (old v mask : Nat) : Nat :=
  Nat.lor (Nat.land (old * 2 ^ f.lo) (2 ^ 32 - 1 - mask)) (Nat.land v mask) / 2 ^ f.lo % 2 ^ f.wid

/-- R88: the write touches the field: some bit of it lies in an enabled byte. -/
def Fld.inMask (f : Fld) (mask : Nat) : Bool := Nat.land mask (2 ^ (f.lo + f.wid) - 2 ^ f.lo) != 0

def clip (lo hi x : Nat) : Nat := max lo (min hi x)

/-- What a field stores of a number written to it, by its register table (R108, R123, R256, R284, R287, R311, R388, R440, R493,
R510, R537, R560): 1 to 1,000, at least 1, and so on. A field with a stated range and no stated
limit of its writes stores what is written, such as ETH_PREEMPT.VERIFY_MS of R153 (DESIGN CHOICE, notes/assumptions/51.md). -/
def Dev.clamped (d : Dev) (p : PageId) (f : Fld) (i x : Nat) : Nat :=
  if [Reg.HBR_HOLD.PCIE_US, Reg.SWC_RESEQ_CFG.TIMEOUT_US, Reg.STY_CFG.TMO_US].contains f then clip 1 1000 x
  else if [Reg.PCH_PWR_CTRL.DRAIN_MS, Reg.ENG_ST_CFG.PERIOD_MS, Reg.PCH_SCRUB.PASS_MIN, Reg.STY_LINK_CFG.RETRAIN_MS,
      Reg.HBR_Q_CFG.WIN_UNITS].contains f then max 1 x
  else if f = Reg.PCH_WAKE_CFG.RAIL_MS then clip 1 20 x
  else if f = Reg.ETH_MAXLEN.MAXLEN then clip 64 (if p ≤ 0x073 then 9216 else 2000) x
  else if f = Reg.ETH_FC_CFG.TX_MODE then (if x = 3 then 0 else x)
  else if f = Reg.ETH_FC_CFG.TX_MODE_ethM then (if x = 3 then 3 else 0)
  else if f = Reg.BUF_XM_CFG.CELLS_MI then min (2 ^ (1 + d.rd p Reg.BUF_XM_CFG.DENSITY)) x
  else if f = Reg.TBU_RING_CFG.MODE then (if x = 3 then d.rd p f i else x)
  else if f = Reg.HBR_Q_CFG.SIZE then min 9 x
  else if f = Reg.HBR_Q_CFG.MODE then (if x = 3 then 0 else x)
  else if f = Reg.PCH_TEMP_CFG.CRIT then min 140 x
  else if f = Reg.PCH_SVC.LEVEL then min 5 x
  else if f = Reg.MST_SEC_CFG.SIG_REQ then (if d.mst.keys.isEmpty && !d.on p f then 0 else x)
  else x

/-- What bits that are not enabled keep: a half of GWY_SLOT_VLO that is written is held with the other half (R361). -/
def Dev.oldOf (d : Dev) (via : Via) (p : PageId) (f : Fld) (i : Nat) : Nat :=
  if f = Reg.GWY_SLOT_VLO.VALUE then (SMap.get (fun _ => (0 : BitVec 32)) d.gwy.vlo (viaCode via)).toNat
  else d.field p f i (viaCode via)

/-- Store element `i` of an RW field. MST_DOWNGRADE.PERMIT follows its KEY (R529). Fields whose value does not live in the
register map act on what it stands for. -/
def Dev.putRw (d : Dev) (via : Via) (p : PageId) (f : Fld) (i x : Nat) : Dev :=
  if between 0x042 0x046 p && 0x800 ≤ f.off && setLimitReset ((p - 0x042) * 256 + i) == 0 then d
  else if f = Reg.MST_DOWNGRADE.PERMIT then d
  else if f = Reg.TBU_DOM_CFG.SYNC then d.domCfg i (x == 1)
  else if f = Reg.TBU_DOM_RATE.RATE then d.rateWrite i x
  else match f.home with
  | .stored => (d.keepOld p f i).wr p f (d.clamped p f i x) i
  | .view .GWY_WIN_SEG =>
    { d with gwy := { d.gwy with segs := SMap.put (fun _ => (0 : BitVec 4)) d.gwy.segs (viaCode via) (BitVec.ofNat 4 x) } }
  | .view .GWY_SLOT_VLO_VALUE => d.slotVlo via (BitVec.ofNat 32 x)
  | .view .GWY_SLOT_VHI_VALUE => d.slotVhi via (BitVec.ofNat 32 x)
  | .view .ENG_TS_DATA_DATA => d.tsWrite via (BitVec.ofNat 18 x)
  | .view .INST_IMG_DATA_DATA => d.imgWrite (BitVec.ofNat 32 x)
  | _ => d

/-! ### What a write sets going -/

/-- R75: EN of a page changes from what it was in `d`. -/
def Dev.enableChange (d e : Dev) (p : PageId) : Dev :=
  let is := e.on p Reg.PG_CTRL.EN
  if d.on p Reg.PG_CTRL.EN = is then e
  else if between 0x070 0x085 p then (if is then e.portOn (p - 0x070) else e.portOff (p - 0x070))
  else if pageIsLink p then (if is then e.stayOn (p - 0x061) else e.stayOff (p - 0x061))
  else if is then e
  else if between 0x090 0x0AF p then e.canOff (p - 0x090)
  else if between 0x0B0 0x0BF p then e.linOff (p - 0x0B0)
  else if between 0x0C0 0x0C7 p then e.uarOff (p - 0x0C0)
  else if between 0x0C8 0x0CF p then e.pollOff (p - 0x0C8)
  else e

/-- R106, R141: ETH_MODE of port `k` was written: it sends its new control word, and a port that is UP loses its link when the
settings are no combination of R104, or when the control word received names another speed (DEDUCED, notes/assumptions/51.md). -/
def Dev.modeWritten (e : Dev) (k : Nat) : Dev :=
  let e := e.sendInBand k
  if (e.modeBad k || e.speedDiffers k) && (e.eport k).link == .up then e.linkDrops k else e

/-- R106, R121 to R124, R141, R153: a write of a port page. -/
def Dev.ethChange (d e : Dev) (k off : Nat) : Dev :=
  let pg := ethPage k
  if off = 0x040 then (if d.rd pg Reg.ETH_MODE.LANE = e.rd pg Reg.ETH_MODE.LANE ∧ d.rd pg Reg.ETH_MODE.SPEED = e.rd pg Reg.ETH_MODE.SPEED
    then e else e.modeWritten k)
  else if off = 0x078 then
    d.verifyFollow (if isB k && !d.on pg Reg.ETH_PREEMPT.EN && e.on pg Reg.ETH_PREEMPT.EN then
      e.setEport k { e.eport k with verify := 0, tries := 0 } else e) k
  else if off = 0x054 ∨ off = 0x058 then e.flow k
  else e

/-- R188: a write of RUN. -/
def Dev.runChange (d e : Dev) (b : Nat) : Dev :=
  if d.pollRun b = e.pollRun b then e else if e.pollRun b then e.pollGo b else e.pollStop b

/-- R283, R389: BUF_XM_CFG.EN may have fallen from what it was in `d`: the extended ring is no longer available, and goes on on
chip as when READY falls (DEDUCED, notes/assumptions/31.md). -/
def Dev.xmEnable (d e : Dev) : Dev := if d.xmOn && !e.xmOn && e.xm.extRing then e.ringShrinks else e

/-- What follows a write at offset `off` of page `p` that made `e` of `d`. -/
def Dev.writeActs (d e : Dev) (p : PageId) (off : Nat) : Dev :=
  if off = 0x008 then d.enableChange e p
  else if p = 0x000 ∧ off = 0x05C then
    (if d.rd p Reg.PCH_WDOG.TIMEOUT_MS = e.rd p Reg.PCH_WDOG.TIMEOUT_MS then e
     else { e with pwr := { e.pwr with wdogAt := some e.now } })
  else if p = 0x022 ∧ between 0x080 0x11F off = true then e.tsoRestart ((off - 0x080) / 32)
  else if p = 0x040 ∧ off = 0x050 then
    let e := e.wr p Reg.BUF_XM_CFG.CELLS_MI (e.clamped p Reg.BUF_XM_CFG.CELLS_MI 0 (e.rd p Reg.BUF_XM_CFG.CELLS_MI))
    (if d.rd p Reg.BUF_XM_CFG.RETRAIN_S = e.rd p Reg.BUF_XM_CFG.RETRAIN_S then d.xmEnable e
     else d.xmEnable { e with xm := { e.xm with due := e.retrainDue } })
  else if p = 0x050 ∧ off = 0x04C then
    (if e.on p Reg.ENG_SHARE_CFG.EN then e else { e with eng := { e.eng with credits := [] } })
  else if p = 0x060 ∧ between 0x080 0x0BF off = true then e.choosePaths
  else if between 0x070 0x085 p then d.ethChange e (p - 0x070) off
  else if between 0x090 0x0AF p && Nat.ble 0x800 off then d.canPast e (p - 0x090) ((off - 0x800) / 4)
  else if between 0x090 0x0AF p then (if e.canBad (p - 0x090) then e.canOff (p - 0x090) else e)
  else if between 0x0B0 0x0BF p then
    (if off = 0x040 ∧ e.on p Reg.LIN_CTRL.RUN = false then e.linStop (p - 0x0B0) else e)
  else if between 0x0C8 0x0CF p then d.runChange e (p - 0x0C8)
  else if between 0x900 0x93F p ∧ between 0x040 0x33F off = true ∧ (off - 0x040) % 32 = 0 then
    e.queueCfg (p - 0x900) ((off - 0x040) / 32)
  else e

/-- R239: the credits of the ports of a scheduler page are brought up to now before its settings change. -/
def Dev.shapePage (d : Dev) (p : PageId) : Dev :=
  if between 0x038 0x03F p then (d.shape (2 * (p - 0x038))).shape (2 * (p - 0x038) + 1) else d

/-- R238: a write of GATE_EN or HOLD_EN can close a gate on a frame that is being sent. -/
def Dev.gatePage (d : Dev) (p : PageId) : Dev :=
  if between 0x038 0x03F p then (d.gateHold (2 * (p - 0x038))).gateHold (2 * (p - 0x038) + 1) else d

/-- R11, R88: write the RW fields of one register of which `ok` holds. PG_LOCK has its own rule. -/
def Dev.rwWrite (d : Dev) (via : Via) (ok : Fld → Bool) (p : PageId) (off v mask : Nat) : Dev :=
  d.watching p fun d =>
    let d := d.shapePage p
    let e := (fieldsOf p).foldl (fun (e : Dev) f =>
      match f.elemAt off with
      | some i =>
        if f.acc == .rw && f != Reg.PG_LOCK.LOCK && ok f && f.inMask mask then
          e.putRw via p f i (f.merged (e.oldOf via p f i) v mask)
        else e
      | none => e) d
    (d.writeActs e p off).gatePage p

/-! ### The lock (R85, R86) -/

/-- R85: a write of PG_LOCK with these bits of enabled bytes. -/
def Dev.lockWrite (d : Dev) (p : PageId) (v mask : Nat) : Dev :=
  if Nat.land mask 255 = 0 then d
  else
    let v := Nat.land v mask
    let d := if bitAt v 1 then d.wr p Reg.PG_LOCK.STICKY 1 else d
    if bitAt v 0 then d.wr p Reg.PG_LOCK.LOCK 1
    else if v / 256 % 256 = 0xA5 ∧ d.on p Reg.PG_LOCK.STICKY = false then d.wr p Reg.PG_LOCK.LOCK 0
    else if d.locked p then d.raise p 0 else d

/-- R86: RW and RWS fields at this offset are covered by the lock. -/
def lockCovers (off : Nat) : Bool :=
  between 0x040 0x3FF off || between 0x800 0xBFF off || off == 0x008 || off == 0x010 || off == 0x018 || off == 0x01C

/-- R86, R88: write the RW fields in the enabled bytes unless the lock discards it. -/
def Dev.rwLocked (d : Dev) (via : Via) (p : PageId) (off v mask : Nat) : Dev :=
  if regHas p off fun f => f.acc == .rw && f.inMask mask then
    (if lockCovers off then d.unlocked p fun d => d.rwWrite via (fun _ => true) p off v mask
     else d.rwWrite via (fun _ => true) p off v mask)
  else d

/-! ### Register lists (R503, R525, R526) -/

/-- R525: carry out one pair of a register list by the Hoist loader. At fast start only class W and V fields are written,
and the lock does not hold them (R503, R86). -/
def Dev.listWrite (d : Dev) (start : Bool) (addr v : Nat) : Dev :=
  let full := 2 ^ 32 - 1
  if addr < 0x100000 then
    let p := addr / 0x1000
    let off := addr % 0x1000
    if off = 0x028 then d.lockWrite p v full
    else if start then d.rwWrite .mh (fun f => f.clsOn p == .w || f.clsOn p == .v) p off v full
    else d.rwLocked .mh p off v full
  else if addr = 0x400200 then
    (if v % 2 = 1 then d.instWrite .mh (v / 16 % 16) (v / 256 % 64)
     else if start then d.rwWrite .mh (fun _ => true) 0x100 0x200 v full else d.rwLocked .mh 0x100 0x200 v full)
  else if between 0x400204 0x40020C addr then
    (if start then d.rwWrite .mh (fun _ => true) 0x100 (addr - 0x400000) v full else d.rwLocked .mh 0x100 (addr - 0x400000) v full)
  else d

end Sys2Proof.Machine
end

