-- ==== Sys2Proof/Machine/Mst.lean ====
section
/-! DEFINITION. Persistence and update (spec/17_persistence_and_update.md): the settings journal (R515 to R518), bundles and
their checks (R523 to R525, R529), how a component is installed and starts (R526, R530, R531), sessions (R527, R528, R532),
loader mode (R533), and sessions that the manager passes to a worker (R534). -/

namespace Sys2Proof.Machine

open Sys2Proof

/-! ### The settings journal (R515 to R518) -/

/-- The level byte `k` of four levels (R523): 0 MGMT, 1 STAY, 2 SCHEMA, 3 PROG. -/
def levelOf (v k : Nat) : Nat := v / 2 ^ (8 * k) % 256

/-- R518: the level of the running firmware's own records. -/
def Dev.ownSchema (d : Dev) : BitVec 8 := BitVec.ofNat 8 (levelOf d.mst.levels.toNat 2)

/-- R515: the class N fields of the block pages. -/
def Dev.classN (d : Dev) : SMap (BitVec 32) :=
  d.regs.filter fun x => decide (keyPage x.1 < 0x100) && classOfKey (fun c => c == .n) x.1

def Dev.setMst (d : Dev) (m : Mst) : Dev := { d with mst := m }

/-- R515: a commit is refused. -/
def Dev.setRefused (d : Dev) (result : Nat) : Dev := d.wr 0x008 Reg.MST_SET_STAT.RESULT result

/-- R516: the length of a record: its header of 32 bytes, and the parts, up to 64 KiB. The length of a firmware part, and so the
record's, is not stated (notes/assumptions/1.md). -/
def Dev.recordLen (d : Dev) : Nat := 32 + d.freeBits.toNat % (64 * 1024 - 31)

/-- R515, R516: a settings commit starts: it captures every class N field of the block pages, and the firmware's own settings. -/
def Dev.setCommit (d : Dev) (src : Nat) : Dev :=
  if d.mst.commit.isSome || d.on 0x008 Reg.MST_FW_STAT.LOADER then d.setRefused 3
  else
    let r := d.maintTake 0x008 7 src
    if r.1 then
      let seq := match newestRec d.mst.journal with | some x => x.seq + 1 | none => 0
      let rec_ : JRec := ⟨seq, d.ownSchema, true, d.recordLen, d.classN, d.mst.fwSet⟩
      (r.2.drawn.setMst { r.2.mst with commit := some rec_ }).wr 0x008 Reg.MST_SET_CMD.COMMIT 1
    else r.2.setRefused 2

/-- SETTINGS_COMMIT (R515, R86). -/
def execSettingsCommit (via : Via) : State → Host.Outcome State Fault Refusal := onBus .settingsCommit via 0x008 fun d =>
  d.unlocked 0x008 fun d => d.setCommit (viaCode via)

/-- R518: records of another schema level are erased. -/
def Dev.eraseOthers (d : Dev) : Dev :=
  let own := d.ownSchema
  (d.setMst { d.mst with journal := d.mst.journal.filter fun r => r.schema == own }).wr 0x008 Reg.MST_FW_STAT.OLD_RO 0

/-- SETTINGS_COMMIT_DONE (R515, R518): the record is in the journal. The firmware that writes it runs (R44). -/
def execSettingsCommitDone : State → Host.Outcome State Fault Refusal := onDevL fun d =>
  match d.mst.commit with
  | none => d
  | some r =>
    if !d.hlt.running then d
    else
      let d := (d.setMst { d.mst with journal := trimJournal (d.mst.journal ++ [r]), commit := none }).eraseOthers
      let d := (d.wr 0x008 Reg.MST_FW_STAT.FALLBACK 0).wr 0x008 Reg.MST_SET_CMD.COMMIT 0
      let d := (d.wr 0x008 Reg.MST_SET_STAT.RESULT 1).bump 0x008 Reg.MST.SET_COMMITS
      (d.maintEnd 0x008 7).raise 0x008 18

/-! ### Bundles (R523 to R525) -/

/-- `n` bytes at `o`, least significant first. -/
def leAt (b : List Byte) (o n : Nat) : Nat := sumOf (fun i => (listGet 0 b (o + i)).toNat * 256 ^ i) (List.range n)

/-- A 32-byte digest at `o`, most significant byte first. -/
def digestAt (b : List Byte) (o : Nat) : BitVec 256 :=
  BitVec.ofNat 256 (((b.drop o).take 32).foldl (fun acc x => acc * 256 + x.toNat) 0)

/-- `n` bytes at `o`. -/
def slice (b : List Byte) (o n : Nat) : List Byte := (b.drop o).take n

/-- R524: an entry of the component table. -/
structure CompEnt where
  type   : Nat
  off    : Nat
  len    : Nat
  ver    : Nat
  min_   : Nat
  prov   : Nat
  digest : BitVec 256
  deriving DecidableEq, Repr

def entryAt (b : List Byte) (k : Nat) : CompEnt :=
  let o := 0x20 + 0x40 * k
  ⟨leAt b o 1, leAt b (o + 4) 4, leAt b (o + 8) 4, leAt b (o + 12) 4, leAt b (o + 16) 4, leAt b (o + 20) 4,
    digestAt b (o + 32)⟩

def compCount (b : List Byte) : Nat := leAt b 6 2
def bundleLen (b : List Byte) : Nat := leAt b 8 4
def bundleSigned (b : List Byte) : Bool := leAt b 15 1 % 2 == 1
def bundleSlot (b : List Byte) : Nat := leAt b 15 1 / 2 % 4

/-- Where the component table ends, and where the digest stands. -/
def tableEnd (b : List Byte) : Nat := 0x20 + 0x40 * compCount b
def digestOff (b : List Byte) : Nat := bundleLen b - (if bundleSigned b then 96 else 32)

def entriesOf (b : List Byte) : List CompEnt := (List.range (compCount b)).map (entryAt b)

/-- R524: firmware components. -/
def isFirmware (type : Nat) : Bool := between 1 4 type || type == 0x20

/-- R524: the lengths that a TYPE may have. -/
def lengthOk (type len : Nat) : Bool :=
  match type with
  | 0x01 => decide (len ≤ 512 * 1024)
  | 0x02 => decide (len ≤ 256 * 1024)
  | 0x03 => decide (len ≤ 1024 * 1024)
  | 0x04 => decide (len ≤ 4352 * 1024)
  | 0x10 => decide (len ≤ 4 * 1024 * 1024 - 64)
  | 0x11 => len == 16448
  | 0x12 => decide (len ≤ 64 * 1024)
  | 0x20 => len == 64
  | _ => false

/-- R525: a pair of a register list names a register that a list may hold. -/
def pairOk (addr : Nat) : Bool := addr % 4 == 0 && (decide (addr < 0x100000) || between 0x400200 0x40020C addr)

/-- R525: a register list. -/
def listOk (b : List Byte) : Bool :=
  b.length % 8 == 0 && (List.range (b.length / 8)).all fun i => pairOk (leAt b (8 * i) 4)

/-- R525: the range of a table block lies within one shadow window, or within the gateway image. -/
def blockOk (addr len : Nat) : Bool :=
  let inside := fun (r : Nat × Nat) => decide (r.1 ≤ addr) && decide (addr + len ≤ r.2)
  [(0x100000, 0x140000), (0x1C0000, 0x1E0000), (0x200000, 0x240000), (0x2000000, 0x2110000)].any inside

/-- R525: the sections of a rig image: a table block, a register list, or the end section. -/
inductive Section where
  | block (addr : Nat) (data : List Byte)
  | regs (data : List Byte)
  deriving DecidableEq, Repr

/-- R525: read the sections of `b` from `o` on; `none` when they break the format. -/
def sectionsFrom (b : List Byte) : Nat → Nat → Option (List Section)
  | 0, _ => none
  | n + 1, o =>
    if b.length < o + 16 then none
    else
      let len := leAt b (o + 8) 4
      let next := o + 16 + (len + 15) / 16 * 16
      let data := slice b (o + 16) len
      match leAt b o 1 with
      | 0 => if o + 16 = b.length ∧ len = 0 then some [] else none
      | 1 => if next ≤ b.length ∧ blockOk (leAt b (o + 4) 4) len = true then
               (sectionsFrom b n next).map (.block (leAt b (o + 4) 4) data :: ·)
             else none
      | 2 => if next ≤ b.length ∧ listOk data = true then (sectionsFrom b n next).map (.regs data :: ·) else none
      | _ => none

def sectionsOf (b : List Byte) : Option (List Section) := sectionsFrom b (b.length / 16 + 1) 0

/-- R525: the bytes of a component have the format of its TYPE. -/
def contentOk (type : Nat) (b : List Byte) : Bool :=
  if type = 0x10 then (sectionsOf b).isSome else if type = 0x12 then listOk b else true

/-- R524: components in ascending TYPE, each at most once, and one after the other in the bundle, as a write pass takes them while
the bytes arrive (DEDUCED from R530, notes/assumptions/51.md). -/
def orderOk : List CompEnt → Bool
  | [] => true
  | [_] => true
  | x :: y :: zs => decide (x.type < y.type) && decide (x.off + x.len ≤ y.off) && orderOk (y :: zs)

/-- R524: key slot `k` is filled. -/
def Mst.keyFilled (m : Mst) (k : Nat) : Bool := (SMap.get (fun _ => []) m.keys k).length != 0

/-- R529: the check FORMAT. -/
def Dev.formatOk (d : Dev) (b : List Byte) : Bool :=
  let es := entriesOf b
  slice b 0 4 == [0x4B, 0x42, 0x52, 0x44] && leAt b 4 2 == 1 && between 1 8 (compCount b) && leAt b 12 2 == 0x1840 &&
  leAt b 14 1 == 0xB1 && bundleLen b == b.length && decide (tableEnd b ≤ digestOff b) &&
  (es.all fun e => lengthOk e.type e.len && decide (tableEnd b ≤ e.off) && decide (e.off + e.len ≤ digestOff b)) &&
  orderOk es && ((es.all fun e => isFirmware e.type) || es.all fun e => !isFirmware e.type) &&
  (!(es.any fun e => e.type == 0x20) ||
    (if bundleSigned b then d.mst.keyFilled (bundleSlot b) else false) || (List.range 4).all fun k => !d.mst.keyFilled k) &&
  es.all fun e => contentOk e.type (slice b e.off e.len)

/-- R523: the digest of the bundle. -/
def bundleDigest (b : List Byte) : BitVec 256 := Config.sha256 (b.take (digestOff b))

/-- R529: the check DIGEST. -/
def digestsOk (b : List Byte) : Bool :=
  bundleDigest b == digestAt b (digestOff b) && (entriesOf b).all fun e => Config.sha256 (slice b e.off e.len) == e.digest

/-- R529: the check SIGNATURE. -/
def Dev.signatureOk (d : Dev) (b : List Byte) : Bool :=
  if bundleSigned b then
    d.mst.keyFilled (bundleSlot b) && Config.signatureOk (SMap.get (fun _ => []) d.mst.keys (bundleSlot b))
      (slice b (digestOff b) 32) (slice b (bundleLen b - 64) 64)
  else !d.on 0x008 Reg.MST_SEC_CFG.SIG_REQ

/-- R529: the check OLDER. -/
def Dev.olderOk (d : Dev) (b : List Byte) : Bool :=
  d.on 0x008 Reg.MST_DOWNGRADE.PERMIT ||
  (entriesOf b).all fun e => !isFirmware e.type || decide (d.mst.runVersion e.type ≤ e.ver)

/-- R524: levels `run` meet MIN. -/
def levelsMeet (run min : Nat) : Bool := (List.range 4).all fun k => decide (levelOf min k ≤ levelOf run k)

/-- R524: the levels after a component that sets PROV. -/
def levelsAfter (run prov : Nat) : Nat :=
  sumOf (fun k => (if levelOf prov k = 0 then levelOf run k else levelOf prov k) * 2 ^ (8 * k)) (List.range 4)

/-- R535: a component that sets STAY_LEVEL to L is refused while a link's far end stands below L - 1. -/
def Dev.stayMeets (d : Dev) (prov : Nat) : Bool :=
  levelOf prov 1 == 0 || (List.range 4).all fun l =>
    !(d.link l).isUp || decide (levelOf prov 1 ≤ (d.link l).peerLevel.toNat + 1)

/-- R529: MIN of each component, the PROV of those before it applied; the last levels, when all are met. -/
def Dev.levelsThrough (d : Dev) (run : Nat) : List CompEnt → Option Nat
  | [] => some run
  | e :: es =>
    if levelsMeet run e.min_ && d.stayMeets e.prov then d.levelsThrough (levelsAfter run e.prov) es else none

/-- R529: the check LEVEL. -/
def Dev.levelOk (d : Dev) (b : List Byte) : Bool :=
  d.levelsThrough d.mst.levels.toNat (entriesOf b) == some (leAt b 16 4)

/-- R529: the checks of a verify pass, in order; RESULT of the first that fails, or DONE. -/
def Dev.verifyResult (d : Dev) (b : List Byte) : Nat :=
  if !d.formatOk b then 3 else if !digestsOk b then 4 else if !d.signatureOk b then 5
  else if !d.olderOk b then 6 else if !d.levelOk b then 7 else 1

/-! ### The session and what ends it (R527, R532, R534) -/

def Dev.setSess (d : Dev) (s : Session) : Dev := { d with mst := { d.mst with sess := s } }

/-- R534: the class of the control sentences that pass a session on is not stated (notes/assumptions/1.md). -/
def Dev.passControl (d : Dev) (dev : Nat) (payload : List Nat) : Dev :=
  d.drawn.control (d.freeBits.setWidth 3) (.stay dev false 0) payload

/-- R534: apply `f`; a worker whose session the manager passes sends each change of RESULT and STATE to it. -/
def Dev.reporting (d : Dev) (f : Dev → Dev) : Dev :=
  let e := f d
  let s := d.mst.sess
  let t := e.mst.sess
  if (s.relayed || t.relayed) && (s.st != t.st || s.result != t.result) then
    e.passControl 0 [0x0203, t.result + 16 * t.st.code]
  else e

/-- R532: the session ends: its token is released and PERMIT cleared. -/
def Dev.sessionEnds (d : Dev) (result : Option Nat) : Dev :=
  let s := d.mst.sess
  let s := { s with st := .idle, result := result.getD s.result, bytes := [], digest := none, phase := 0, rigTry := none,
                    relayed := false }
  (((d.setMst { d.mst with rigDone := false }).setSess s).wr 0x008 Reg.MST_DOWNGRADE.PERMIT 0).maintEnd 0x008 8

/-- A write pass or a verify pass stops with a result. -/
def Dev.passStops (d : Dev) (result : Nat) : Dev :=
  (d.setMst { d.mst with rigDone := false }).setSess
    { d.mst.sess with st := .opened, result := result, bytes := [], phase := 0, rigTry := none }

/-! ### Components start (R531, R533) -/

/-- R533: a firmware component is invalid. -/
def Mst.invalid (m : Mst) : Bool :=
  [1, 2, 3, 4].any fun t => match m.comp t with | some c => !c.valid | none => true

/-- R533: the device enters loader mode when a firmware component is invalid. -/
def Dev.loaderEnters (d : Dev) : Dev :=
  if d.mst.invalid then
    { d with hlt := { d.hlt with running := false } }.wr 0x008 Reg.MST_FW_STAT.LOADER 1
  else d

/-- R531: the version and the levels of a component become the running ones. -/
def Dev.startComp (d : Dev) (type : Nat) : Dev :=
  match d.mst.comp type with
  | some c =>
    if c.valid then
      let m := { d.mst with run := SMap.put (fun _ => (0 : BitVec 32)) d.mst.run type c.version
                            levels := BitVec.ofNat 32 (levelsAfter d.mst.levels.toNat c.prov.toNat) }
      d.setMst (if type = 4 then { m with schMin := c.schMin, schMax := c.schMax, mhNew := false } else m)
    else d
  | none => d

/-- R531: the PHYs that have not restarted do so, one at a time: the next port that is UP goes down. -/
def Dev.phyGo (d : Dev) : List Nat → Dev
  | [] => d.setMst { d.mst with phyq := [] }
  | p :: ps =>
    if (d.eport p).link == .up then
      let e := d.linkDrops p
      e.setMst { e.mst with phyq := p :: ps, phyAt := d.now }
    else d.phyGo ps

/-- R531: the integrated PHYs of Z0 to Z7 and M0 to M5 restart, in port-code order. -/
def Dev.phyRestart (d : Dev) : Dev := d.phyGo [4, 5, 6, 7, 8, 9, 10, 11, 16, 17, 18, 19, 20, 21]

/-- R531: a port that restarts is back, or its 1.5 ms have passed: the next one follows. -/
def Dev.phyNext (d : Dev) : Dev :=
  match d.mst.phyq with
  | [] => d
  | p :: ps => if (d.eport p).link == .up || decide (d.mst.phyAt + 1500 * Config.perUs ≤ d.now) then d.phyGo ps else d

/-- R524: the key slot of a component of TYPE 0x20. -/
def CompEnt.slot (e : CompEnt) : Nat := e.ver % 4

def Dev.setKey (d : Dev) (k : Nat) (b : List Byte) : Dev :=
  d.setMst { d.mst with keys := SMap.put (fun _ => []) d.mst.keys k b }

/-- R531: what a component that was written starts with. Watch firmware starts at the next entry to Furled or Struck, Masthead
firmware at CLOSE, the others at once. -/
def Dev.compWritten (d : Dev) (e : CompEnt) (b : List Byte) : Dev :=
  match e.type with
  | 0x01 => (d.startComp 1).phyRestart
  | 0x02 => d
  | 0x04 => d.setMst { d.mst with mhNew := true }
  | 0x20 => (d.setKey e.slot b).startComp 0x20
  | t => d.startComp t

/-! ### Rig images, register lists and storm-jib tables (R519, R525, R526) -/

/-- R503, R525: the pairs of a register list, in order. -/
def Dev.applyList (d : Dev) (start : Bool) (b : List Byte) : Dev :=
  (List.range (b.length / 8)).foldl (fun (d : Dev) i => d.listWrite start (leAt b (8 * i) 4) (leAt b (8 * i + 4) 4)) d

/-- R525: the places of the image that a shadow window or the gateway image gives a meaning. -/
def imagePlace (a : Nat) : Bool :=
  if 0x2000000 ≤ a then (gwyPlace true (a - 0x2000000)).isSome else (winPlace 0 a).isSome

/-- The bytes of a table block at their addresses. -/
def placed (addr : Nat) (b : List Byte) : List (Nat × Byte) :=
  ((List.range b.length).map fun i => (addr + i, listGet 0 b i)).filter fun x => imagePlace x.1

/-- R526: clear bank `b` of the whole table set. -/
def Dev.clearBank (d : Dev) (b : BitVec 2) : Dev :=
  { d with
    nrm := { d.nrm with tab := d.nrm.tab.filter fun x => x.1 / 0x4000000 != b.toNat }
    hlt := { d.hlt with badWords := d.hlt.badWords.filter fun k => k / 0x4000000 != b.toNat } }

/-- The table blocks of a rig image go to bank `b`. -/
def Dev.writeBlocks (d : Dev) (b : BitVec 2) (ss : List Section) : Dev :=
  ss.foldl (fun (d : Dev) s => match s with | .block a data => d.tabWrite b (placed a data) | .regs _ => d) d

/-- The register lists of a rig image are carried out. -/
def Dev.writeLists (d : Dev) (start : Bool) (ss : List Section) : Dev :=
  ss.foldl (fun (d : Dev) s => match s with | .block _ _ => d | .regs data => d.applyList start data) d

/-- R526, steps 1 and 2: the shadow bank is cleared, the table blocks are written into it, and the register lists are applied.
A swap that is on its way comes first. While the COMMIT waits for a resynchronisation, which writes over the shadow bank, the
table blocks are written again before each try (DEDUCED from R220 and R224, notes/assumptions/55.md). -/
def Dev.rigSteps (d : Dev) (b : List Byte) : Dev :=
  if d.nrm.swapAt.isSome then d
  else
    let ss := (sectionsOf b).getD []
    let e := (d.clearBank (otherBank d.nrm.active)).writeBlocks (otherBank d.nrm.active) ss
    if d.mst.rigDone then e else (e.setMst { e.mst with rigDone := true }).writeLists false ss

/-- R526, steps 1 to 3: whether the COMMIT was accepted, else the RESULT that ended it, 0 for RESYNC_BUSY. -/
def Dev.applyRig (d : Dev) (b : List Byte) : Option Nat × Dev :=
  let r := (d.rigSteps b).commit 0
  let ended := r.2.setMst { r.2.mst with rigDone := false }
  if r.1 then (none, ended)
  else match r.2.rd 0x028 Reg.NRM_COMMIT_STAT.RESULT with
    | 3 => (some 9, ended)
    | 2 => (some 8, ended)
    | _ => (some 0, r.2)

/-- R519: a copy of the storm-jib table from a component of a digest, with generation `gen`. -/
def sjFrom (b : List Byte) (gen : BitVec 32) (digest : BitVec 256) : SjCopy :=
  let ents := (List.range 4096).foldl (fun (m : SMap (BitVec 32)) i =>
    SMap.put (fun _ => 0) m i (BitVec.ofNat 32 (leAt b (64 + 4 * i) 4))) []
  ⟨gen, Config.sjHeaderOk (b.take 64) (b.drop 64), ents, digest⟩

/-- R526: the copy that a storm-jib component goes over is B: its generation is the lower one. Of equal ones it is A (DESIGN CHOICE,
notes/assumptions/51.md). -/
def Mst.overB (m : Mst) : Bool := decide (m.sjB.gen.toNat < m.sjA.gen.toNat)

/-- R526, R532: the write of a storm-jib component begins: the copy that it goes over is no longer good. -/
def Dev.sjBegins (d : Dev) : Dev :=
  let m := d.mst
  d.setMst (if m.overB then { m with sjB := { m.sjB with good := false } } else { m with sjA := { m.sjA with good := false } })

/-- R526: a storm-jib component goes over the copy of the lower generation. -/
def Dev.writeSj (d : Dev) (b : List Byte) (digest : BitVec 256) : Dev :=
  let m := { d.mst with sjWas := some (d.now / Config.cellTime, d.sjCopy) }
  d.setMst (if m.overB then { m with sjB := sjFrom b (m.sjA.gen + 1) digest } else { m with sjA := sjFrom b (m.sjB.gen + 1) digest })

/-! ### The write pass (R530) -/

/-- R530: the component that the write pass is at. -/
def Session.entry (s : Session) : CompEnt := entryAt s.bytes s.comp

/-- R530: the region of a component already holds the same digest: for a storm-jib table that of the copy in use. A settings
register list has no region. -/
def Dev.sameInstalled (d : Dev) (e : CompEnt) : Bool :=
  match e.type with
  | 0x10 => (match d.mst.cache with | some c => c.good && c.digest == e.digest | none => false)
  | 0x11 => (match d.sjBest with | some c => c.2.digest == e.digest | none => false)
  | 0x12 => false
  | 0x20 => Config.sha256 (SMap.get (fun _ => []) d.mst.keys e.slot) == e.digest
  | t => match d.mst.comp t with | some c => c.valid && c.digest == e.digest | none => false

def Dev.setComp (d : Dev) (type : Nat) (c : Comp) : Dev :=
  d.setMst { d.mst with comps := SMap.put (fun _ => none) d.mst.comps type (some c) }

/-- R530, R532: the header of a component's region is invalidated. The versions of the configuration components stand beside their
regions, which keep their own marks. -/
def Dev.compInvalid (d : Dev) (type : Nat) : Dev := d.setComp type ⟨0, 0, 0, false, 0, 0, []⟩

/-- R530: the next component. -/
def Dev.nextComp (d : Dev) : Dev := d.setSess { d.mst.sess with comp := d.mst.sess.comp + 1, phase := 0, rigTry := none }

def Dev.compCounted (d : Dev) : Dev := (d.bump 0x008 Reg.MST.COMP_WRITTEN).nextComp

/-- R530, R533: the bytes of a component begin: it is skipped, or its MIN is checked and its region invalidated. -/
def Dev.compBegins (d : Dev) (e : CompEnt) : Dev :=
  let s := d.mst.sess
  if d.sameInstalled e then (d.bump 0x008 Reg.MST.COMP_SKIPPED).setSess { s with phase := 1 }
  else if !levelsMeet d.mst.levels.toNat e.min_ then d.passStops 7
  else
    let d := d.setSess { s with phase := 2 }
    if between 1 4 e.type then (d.compInvalid e.type).loaderEnters
    else if e.type = 0x20 then (d.compInvalid 0x20).setKey e.slot []
    else if e.type = 0x11 then d.sjBegins else d

/-- R530, R531: a component is valid and starts. The schema range that Masthead firmware declares is not stated
(notes/assumptions/1.md). -/
def Dev.compValid (d : Dev) (e : CompEnt) (b : List Byte) : Dev :=
  let x := d.freeBits
  let c : Comp := ⟨BitVec.ofNat 32 e.ver, e.digest, BitVec.ofNat 32 e.prov, true,
    if e.type = 4 then x.extractLsb' 0 8 else 0, if e.type = 4 then x.extractLsb' 8 8 else 0, if between 1 4 e.type then b else []⟩
  let d := if e.type = 4 then d.drawn else d
  ((d.setComp e.type c).compWritten e b).compCounted

/-- R526, step 3: try to COMMIT the rig image of the write pass. Once that is accepted, the pass waits for the swap. -/
def Dev.rigTries (d : Dev) (b : List Byte) (since : Nat) : Dev :=
  let r := d.applyRig b
  match r.1 with
  | none => r.2.setSess { r.2.mst.sess with phase := 4, rigTry := none }
  | some 0 => r.2.setSess { r.2.mst.sess with phase := 3, rigTry := some since }
  | some k => r.2.passStops k

/-- R526, step 4: after the swap, the header of the cache is invalidated; then the cache is written, its header last. -/
def Dev.cacheStep (d : Dev) : Dev :=
  let s := d.mst.sess
  let e := s.entry
  let b := slice s.bytes e.off e.len
  if s.phase = 4 then
    if d.nrm.swapAt.isSome then d
    else (d.setMst { d.mst with cache := some ⟨[], e.digest, false⟩ }).setSess { s with phase := 5 }
  else (d.setMst { d.mst with cache := some ⟨b, e.digest, true⟩ }).compValid e b

/-- R530: the last byte of a component is there. -/
def Dev.compEnds (d : Dev) (e : CompEnt) : Dev :=
  let b := slice d.mst.sess.bytes e.off e.len
  if d.mst.sess.phase = 1 then d.nextComp
  else if Config.sha256 b ≠ e.digest then d.passStops 4
  else match e.type with
    | 0x10 => d.rigTries b d.now
    | 0x11 => (d.writeSj b e.digest).compValid e b
    | 0x12 => ((d.applyList false b).setCommit 0).compValid e b
    | _ => d.compValid e b

/-- R530: the write pass is complete. -/
def Dev.passEnds (d : Dev) : Dev :=
  let s := d.mst.sess
  if s.digest = some (bundleDigest s.bytes) then (d.setSess { s with st := .written, result := 1 }).raise 0x008 16
  else d.passStops 4

/-- R530: what the bytes that have arrived let the write pass do. Each of the two stages of the rig-image cache takes a time
of its own (R526). -/
def Dev.writeOn (d : Dev) : Nat → Dev
  | 0 => d
  | n + 1 =>
    let s := d.mst.sess
    if s.st != .writing || s.phase = 3 || s.phase = 4 || s.phase = 5 || decide (s.bytes.length < tableEnd s.bytes) then d
    else if s.comp < min 8 (compCount s.bytes) then
      let e := s.entry
      if s.phase = 0 then (if e.off ≤ s.bytes.length then (d.compBegins e).writeOn n else d)
      else if e.off + e.len ≤ s.bytes.length then (d.compEnds e).writeOn n else d
    else if bundleLen s.bytes ≤ s.bytes.length then d.passEnds else d

/-- Steps that a write pass can take at once: two for each component, and its end. -/
def Dev.writeRuns (d : Dev) : Dev :=
  (if d.mst.sess.st == .writing && decide (4 ≤ d.mst.sess.phase) then d.cacheStep else d).writeOn 18

/-! ### Commands (R527, R529, R530, R532, R534) -/

/-- R527: an OPEN is refused. -/
def Dev.openRefused (d : Dev) (src : Nat) : Dev :=
  let d := (d.wr 0x008 Reg.MST_UPD_REFUSED.REQ src).wr 0x008 Reg.MST_UPD_REFUSED.HOLDER d.mst.sess.holder
  ((d.wr 0x008 Reg.MST_UPD_REFUSED.VALID 1).bump 0x008 Reg.MST.REFUSED_OPENS).raise 0x008 17

/-- R534: the session is one that the manager passes to a worker. -/
def Dev.passes (d : Dev) : Bool := d.pwr.manager && d.mst.sess.target != d.pwr.devId

/-- R527, R534: OPEN. What an OPEN for another device gives on a worker is not stated (notes/assumptions/1.md). -/
def Dev.updOpen (d : Dev) (src target : Nat) (relayed : Bool) : Dev :=
  if d.mst.sess.st != .idle then d.openRefused src
  else if target ≠ d.pwr.devId ∧ d.pwr.manager = false then
    d.drawn.setSess { d.mst.sess with result := d.freeBits.toNat % 16 }
  else
    let s := { d.mst.sess with st := .opened, holder := src, target := target, bytes := [], digest := none, at_ := d.now,
                               phase := 0, rigTry := none, relayed := relayed }
    let d := (d.setSess s).bump 0x008 Reg.MST.SESSIONS
    if d.passes then d.passControl target [0x0201, 1] else d

/-- R529: VERIFY. -/
def Dev.updVerify (d : Dev) : Dev :=
  let s := d.mst.sess
  if s.st == .opened || s.st == .verified then
    d.setSess { s with st := .verifying, bytes := [], count := 0, comp := 0, phase := 0, digest := none }
  else d.setSess { s with result := 12 }

/-- R530: WRITE. -/
def Dev.updWrite (d : Dev) (src : Nat) : Dev :=
  let s := d.mst.sess
  if s.st != .verified then d.setSess { s with result := 12 }
  else
    let go := fun (d : Dev) => d.setSess { d.mst.sess with st := .writing, bytes := [], count := 0, comp := 0, phase := 0 }
    if !s.fw || d.holds 0x008 8 then go d
    else
      let r := d.maintTake 0x008 8 src
      if r.1 then go r.2 else r.2.setSess { s with result := 8 }

/-- R531, R533: what CLOSE leaves to the Masthead controller: it restarts into firmware that was written, or out of loader
mode, and then applies the rig-image cache when items are still looked up in the storm-jib table. -/
def Dev.closeRestarts (d : Dev) : Dev :=
  let loader := d.on 0x008 Reg.MST_FW_STAT.LOADER
  if d.mst.invalid || !(loader || d.mst.mhNew) then d
  else
    let good := match d.mst.cache with | some c => c.good && Config.sha256 c.bytes == c.digest | none => false
    let d := (d.startComp 4).wr 0x008 Reg.MST_FW_STAT.LOADER 0
    let d := { d with hlt := { d.hlt with running := false } }
    if loader && d.nrm.sj && good then d.setMst { d.mst with applyAt := some d.now } else d

/-- R532, R533: ABORT, or the loader for want of a command, ends the session. One that ends WRITTEN in loader mode lets the firmware
start again. -/
def Dev.sessionStops (d : Dev) (result : Nat) : Dev :=
  let e := d.sessionEnds (some result)
  if d.mst.sess.st == .written && d.on 0x008 Reg.MST_FW_STAT.LOADER then e.closeRestarts else e

/-- R532: CLOSE. -/
def Dev.updClose (d : Dev) : Dev :=
  match d.mst.sess.st with
  | .opened => d.sessionEnds none
  | .verified => d.sessionEnds none
  | .written => (d.sessionEnds none).closeRestarts
  | _ => d.setSess { d.mst.sess with result := 12 }

/-- R527: a command of the holder. -/
def Dev.updHeld (d : Dev) (src op : Nat) : Dev :=
  let d := d.setSess { d.mst.sess with at_ := d.now }
  if d.passes then d.passControl d.mst.sess.target [0x0201, op]
  else match op with
    | 2 => d.updVerify
    | 3 => d.updWrite src
    | 4 => d.updClose
    | 5 => d.sessionStops 11
    | _ => d

/-- R527: a command. -/
def Dev.updCmd (d : Dev) (src op target : Nat) (relayed : Bool) : Dev :=
  d.reporting fun d =>
    if op = 1 then d.updOpen src target relayed
    else if d.mst.sess.st == .idle || d.mst.sess.holder != src || d.mst.sess.relayed != relayed then d.raise 0x008 4
    else d.updHeld src op

/-- R528: bytes of source `src` reach the loader. Those beyond the total length are discarded; the 12 that give it come in
whatever it says, and a lower one fails the check FORMAT (R529). -/
def Dev.updTake (d : Dev) (src : Nat) (relayed : Bool) (b : List Byte) : Dev :=
  let s := d.mst.sess
  let all := s.bytes ++ b
  let total := if 12 ≤ all.length then max 12 (bundleLen all) else all.length
  if (s.st != .verifying && s.st != .writing) || s.holder != src || s.relayed != relayed || decide (total ≤ s.bytes.length) then
    d.raise 0x008 4
  else
    d.reporting fun d =>
      let now := all.take total
      let off := s.bytes.length
      let d := d.setSess { s with bytes := now, count := now.length, at_ := d.now }
      if d.passes then
        d.passControl s.target ([0x0202, off % 65536, off / 65536] ++ pairWords (now.drop off))
      else d.writeRuns

/-- R534: STATE of a 0x0203. -/
def sessStOf : Nat → SessSt
  | 1 => .opened | 2 => .verifying | 3 => .verified | 4 => .writing | 5 => .written | _ => .idle

/-- R534: the manager copies STATE and RESULT of a 0x0203. -/
def Dev.updStatus (d : Dev) (result state : Nat) : Dev :=
  let s := d.mst.sess
  let t := sessStOf state
  if s.st == .idle || !d.passes then d
  else if t == .idle then d.sessionEnds (some result)
  else
    let pass := s.st != t && (t == .verifying || t == .writing)
    d.setSess { s with st := t, result := result, bytes := if pass then [] else s.bytes,
                       count := if pass then 0 else s.count }

/-! ### What waits for the firmware (R44, R533) -/

/-- R44, R533: sessions are served: the firmware runs, or in loader mode the Hoist loader does. -/
def Dev.served (d : Dev) : Bool := !d.hlt.halted && (d.hlt.running || d.on 0x008 Reg.MST_FW_STAT.LOADER)

/-- The work is one that can be done now. In loader mode only sessions are served (R533). -/
def Dev.canDo (d : Dev) : MhWork → Bool
  | .report _ => d.hlt.running
  | .erase => d.hlt.running
  | _ => d.served

/-- Do the work. -/
def Dev.doWork (d : Dev) : MhWork → Dev
  | .cmd src op target relayed => d.updCmd src op target relayed
  | .push src relayed b => d.updTake src relayed b
  | .status result state => d.updStatus result state
  | .report payload => d.sendFault payload
  | .erase => d.eraseOthers.wr 0x008 Reg.MST_SET_CMD.ERASE_OLD 0

/-- R44: the work is done, or waits behind what waits already. While a command waits, MST_UPD_CMD.GO
reads 1, and while an erasure waits, MST_SET_CMD.ERASE_OLD (R11). -/
def Dev.work (d : Dev) (w : MhWork) : Dev :=
  if d.canDo w then d.doWork w
  else
    let d := d.setWaits (d.mst.waits ++ [w])
    match w with
    | .cmd _ _ _ false => d.wr 0x008 Reg.MST_UPD_CMD.GO 1
    | .erase => d.wr 0x008 Reg.MST_SET_CMD.ERASE_OLD 1
    | _ => d

/-- R44: the firmware is back, or the loader serves: what waited is done in order. -/
def Dev.workOn (d : Dev) : Dev :=
  let ws := d.mst.waits
  ws.foldl (fun (d : Dev) w => d.work w) ((d.setWaits []).wr 0x008 Reg.MST_UPD_CMD.GO 0)

/-- R44, R429: pushes that were held for want of room follow. -/
def Dev.mhResumes (d : Dev) : Dev := d.workOn.retryHeld.workOn

/-- R518, R533: a write of ERASE_OLD, which waits for the firmware. -/
def Dev.eraseOld (d : Dev) (key : Nat) : Dev := if key = 0xE5 then d.work .erase else d

/-- ERASE_OLD (R518, R86). -/
def execEraseOld (via : Via) (key : Byte) : State → Host.Outcome State Fault Refusal :=
  onBus (.eraseOld key) via 0x008 fun d =>
  d.unlocked 0x008 fun d => d.eraseOld key.toNat

/-- R527, R86: a write of MST_UPD_CMD with OP, TARGET and GO. -/
def Dev.updGo (d : Dev) (via : Via) (op target : Nat) : Dev :=
  d.unlocked 0x008 fun d =>
    ((d.wr 0x008 Reg.MST_UPD_CMD.OP op).wr 0x008 Reg.MST_UPD_CMD.TARGET target).work (.cmd (viaCode via) op target false)

/-- A command whose row names no TARGET: the register keeps its own. -/
def Dev.updOp (d : Dev) (via : Via) (op : Nat) : Dev := d.updGo via op (d.rd 0x008 Reg.MST_UPD_CMD.TARGET)

/-- OPEN (R527, R534). -/
def execOpenSession (via : Via) (target : Fin 16) : State → Host.Outcome State Fault Refusal :=
  onBus (.openSession target) via 0x008 fun d => d.updGo via 1 target.val

/-- VERIFY (R529). -/
def execVerify (via : Via) : State → Host.Outcome State Fault Refusal := onBus .verify via 0x008 fun d => d.updOp via 2

/-- WRITE (R530). -/
def execWrite (via : Via) : State → Host.Outcome State Fault Refusal := onBus .write via 0x008 fun d => d.updOp via 3

/-- CLOSE (R532). -/
def execClose (via : Via) : State → Host.Outcome State Fault Refusal := onBus .close via 0x008 fun d => d.updOp via 4

/-- ABORT (R532). -/
def execAbort (via : Via) : State → Host.Outcome State Fault Refusal := onBus .abort via 0x008 fun d => d.updOp via 5

/-- VERIFY_DONE (R529): the checks end, once the whole bundle has arrived. They wait for the firmware (R44). -/
def execVerifyDone : State → Host.Outcome State Fault Refusal := onDevL fun d =>
  let s := d.mst.sess
  if s.st != .verifying || !d.served || d.passes || decide (s.bytes.length < 12) || decide (s.bytes.length < bundleLen s.bytes) then d
  else
    d.reporting fun d =>
      let r := d.verifyResult s.bytes
      if r = 1 then
        d.setSess { s with st := .verified, result := 1, digest := some (bundleDigest s.bytes),
                           fw := isFirmware (entryAt s.bytes 0).type, bytes := [] }
      else d.passStops r

/-! ### Pushes (R528) -/

/-- R429, R528: a push of source `via`. While the firmware is away the queue of 1,024 dwords fills, and a push that finds no room
is held. -/
def Dev.updPush (d : Dev) (via : Via) (b : List Byte) : Dev :=
  let x : HeldPush := ⟨64, 0, 0, via == .lhp, 0, some (viaCode via, b)⟩
  if d.served then d.updTake (viaCode via) false b
  else if d.hbr.held.any (fun y => y.lhp == x.lhp) || (d.heldLands x).isNone then d.holdPush x
  else (d.heldLands x).getD d

/-- UPD_DATA (R528). -/
def execUpdData (via : Via) (data : BitVec 32) : State → Host.Outcome State Fault Refusal :=
  onBus (.updData data) via 0x008 fun d =>
  d.updPush via (dwordBytes [data.toNat])

/-- UPD_DATA16 (R528). -/
def execUpdData16 (via : Via) (data : BitVec 16) : State → Host.Outcome State Fault Refusal :=
  onBus (.updData16 data) via 0x008 fun d =>
  d.updPush via [data.extractLsb' 0 8, data.extractLsb' 8 8]

/-- SESSION_ABANDON (R532): the Hoist loader ends the session, when it is served (R44). -/
def execSessionAbandon : State → Host.Outcome State Fault Refusal := onDevL fun d =>
  if d.mst.sess.st == .idle || !d.served then d
  else
    let d := d.reach (d.mst.sess.at_ + 10000 * Config.perMs)
    (d.reporting fun d => d.sessionStops 10).raise 0x008 21

/-- R529, R537: a write of MST_DOWNGRADE. PERMIT is set only with KEY 0xD6. -/
def Dev.downgrade (d : Dev) (key : Nat) (permit : Bool) : Dev :=
  if permit && key != 0xD6 then d else d.wrB 0x008 Reg.MST_DOWNGRADE.PERMIT permit

/-- DOWNGRADE_PERMIT (R529, R86). -/
def execDowngradePermit (via : Via) (key : Byte) (permit : Bool) : State → Host.Outcome State Fault Refusal :=
  onBus (.downgradePermit key permit) via 0x008 fun d =>
  d.unlocked 0x008 fun d => d.downgrade key.toNat permit

/-! ### The COMMIT of a rig image that waits (R526, R533) -/

/-- R526: a further try for a rig image of the write pass; the RESULT of one that found RESYNC_BUSY for 10 ms is not stated
(notes/assumptions/1.md). -/
def Dev.rigAgain (d : Dev) (since : Nat) : Dev :=
  d.reporting fun d =>
    let s := d.mst.sess
    let e := s.entry
    let d := d.rigTries (slice s.bytes e.off e.len) since
    if d.mst.sess.phase = 3 ∧ since + 10 * Config.perMs ≤ d.now then d.drawn.passStops (d.freeBits.toNat % 16) else d.writeRuns

/-- R533: the firmware tries to apply the rig-image cache. -/
def Dev.cacheApplies (d : Dev) (since : Nat) : Dev :=
  let b := match d.mst.cache with | some c => c.bytes | none => []
  let r := d.applyRig b
  match r.1 with
  | some 0 => if since + 10 * Config.perMs ≤ d.now then r.2.setMst { r.2.mst with applyAt := none, rigDone := false } else r.2
  | _ => r.2.setMst { r.2.mst with applyAt := none }

/-- RIG_COMMIT_RETRY (R526, R533): 100 µs have passed since the last try. -/
def execRigCommitRetry : State → Host.Outcome State Fault Refusal := onDevL fun d =>
  match d.mst.sess.rigTry, d.mst.applyAt with
  | some t, _ => if d.served then (d.pass (100 * Config.perUs)).rigAgain t else d
  | none, some t => if d.hlt.running then (d.pass (100 * Config.perUs)).cacheApplies t else d
  | none, none => d

/-! ### What goes on with the cell times (R230, R526, R531) -/

/-- R526: the write pass goes on behind the swap of its COMMIT. -/
def Dev.cacheNext (d : Dev) : Dev :=
  let s := d.mst.sess
  if s.st == .writing && decide (4 ≤ s.phase) && d.served then d.reporting fun d => d.writeRuns else d

/-- MATCH_ROUND (R230 to R233): a cell time; with it the restart of the PHYs and the write of the rig-image cache go on
(DESIGN CHOICE, notes/assumptions/55.md). -/
def execMatchRound : State → Host.Outcome State Fault Refusal := onDevL fun d => d.matchCells.phyNext.cacheNext

/-! ### Control sentences of a session (R534) -/

/-- UPD_COMMAND_RELAY (R534): control sentence 0x0201 reaches this worker. -/
def execUpdCommandRelay (op : BitVec 3) : State → Host.Outcome State Fault Refusal := onDevL fun d =>
  if d.pwr.manager then d else d.work (.cmd 3 op.toNat d.pwr.devId true)

/-- UPD_DATA_RELAY (R534): control sentence 0x0202 reaches this worker. -/
def execUpdDataRelay (off : BitVec 32) (bytes : List Byte) : State → Host.Outcome State Fault Refusal := onDevL fun d =>
  if d.pwr.manager || d.served && d.mst.sess.bytes.length != off.toNat then d
  else d.work (.push 3 true (bytes.take 2048))

/-- UPD_STATUS_RELAY (R534): control sentence 0x0203 reaches the manager. -/
def execUpdStatusRelay (result : BitVec 4) (state : BitVec 3) : State → Host.Outcome State Fault Refusal := onDevL fun d =>
  d.work (.status result.toNat state.toNat)

/-! ### The MRAM scrub (R514) -/

/-- MRAM_SCRUB (R514): the scrub falls due. -/
def execMramScrub : State → Host.Outcome State Fault Refusal := onDevL fun d =>
  let d := d.reach d.mst.scrubAt
  let r := d.maintTake 0x008 2 0
  if r.1 then r.2 else r.2.setMst { r.2.mst with scrubAt := d.now + 1000 * Config.perMs }

/-- R537: the version of a configuration component whose region is invalid reads 0. -/
def Dev.versionGone (d : Dev) (type : Nat) : Dev :=
  match d.mst.comp type with
  | some c => d.setComp type { c with valid := false }
  | none => d

/-- R514: the item that holds an uncorrectable error is invalid. An invalid entry of the freeze ring reads as one never
written; for the Hoist loader the spec gives no outcome (notes/assumptions/55.md). -/
def Dev.mramBad (d : Dev) : MramItem → Dev
  | .comp type =>
    (match d.mst.comp type.val with
     | some c => (d.setComp type.val { c with valid := false }).loaderEnters.mhResumes
     | none => d)
  | .record seq =>
    d.setMst { d.mst with
      journal := d.mst.journal.map fun (r : JRec) => if r.seq = seq then { r with good := false } else r }
  | .sj b =>
    let e := if b then d.setMst { d.mst with sjB := { d.mst.sjB with good := false } }
      else d.setMst { d.mst with sjA := { d.mst.sjA with good := false } }
    if e.sjBest.isSome then e else e.versionGone 0x11
  | .cache => (d.setMst { d.mst with cache := d.mst.cache.map fun (c : RigCache) => { c with good := false } }).versionGone 0x10
  | .key slot =>
    let e := d.setKey slot.val []
    match d.mst.comp 0x20 with
    | some c => if c.version.toNat % 4 = slot.val then e.versionGone 0x20 else e
    | none => e
  | .freeze entry => { d with hlt := { d.hlt with freeze := SMap.put (fun _ => none) d.hlt.freeze entry.val none } }
  | .loader => d

/-- MRAM_SCRUB_DONE (R514, R540): the scrub ends; `bad` are the items in which it found uncorrectable errors. -/
def execMramScrubDone (corrected : Nat) (bad : List MramItem) : State → Host.Outcome State Fault Refusal := onDevL fun d =>
  if !d.holds 0x008 2 then d
  else
    let d := d.bump 0x008 Reg.MST.MRAM_CORRECTED corrected
    let d := if corrected = 0 then d else d.fault 0x008 0x0B 0
    let d := bad.foldl (fun (d : Dev) i => (d.mramBad i).fault 0x008 0x0C 0) d
    (d.setMst { d.mst with scrubAt := d.now + 24 * 3600 * 1000 * Config.perMs }).maintEnd 0x008 2

end Sys2Proof.Machine
end

