-- ==== Sys2Proof/Machine/Power.lean ====
section
/-! DEFINITION. Power states, wake, start and resets (spec/16_power_reset_retention.md): requests and entries (R496, R497),
wake events and the watch engine (R499 to R501), the start (R502, R503), resets (R504, R505) and what they keep (R506, R507,
R581), the safe state after a reset (R551), and the clocks that stop in Reefed (R49). -/

namespace Sys2Proof.Machine

open Sys2Proof

/-! ### Requests (R496) -/

def Dev.setPwr (d : Dev) (p : Pwr) : Dev := { d with pwr := p }

/-- R496: a request is refused. -/
def Dev.powerRefused (d : Dev) : Dev := (d.wr 0x000 Reg.PCH_PWR_STAT.RESULT 2).raise 0x000 18

/-- R497: a request is done. -/
def Dev.powerDone (d : Dev) : Dev :=
  ((d.wr 0x000 Reg.PCH_PWR_STAT.RESULT 1).wr 0x000 Reg.PCH_PWR_CTRL.GO 0).raise 0x000 17

/-- R496: nothing bars an entry to Furled or Struck. -/
def Dev.mayEnter (d : Dev) : Bool :=
  !(d.maint.any fun x => x.2.held.isSome) && d.insts.cmd.isNone && d.mst.sess.st == .idle

/-- R48, R497: the entry to Furled or Struck is accepted. -/
def Dev.entryStarts (d : Dev) (struck : Bool) : Dev :=
  (d.setPwr { d.pwr with
    power := if struck then .enterStruck else .enterFurled, entryAt := d.now, drained := false,
    coreStopped := false, engineStopped := false,
    wakeTo := if d.pwr.power = .reefed then 1 else 0 }).wr 0x000 Reg.PCH_PWR_CTRL.GO 1

/-- R496, R508, R550: GO is written while TARGET holds `target`. -/
def Dev.powerGo (d : Dev) (target : Nat) : Dev :=
  if d.on 0x001 Reg.PCH_SAFE.ACTIVE || d.entering || d.pwr.power == .waking || d.pwr.rst.isSome then d.powerRefused
  else match target with
    | 0 => (d.setPwr { d.pwr with power := .full, coreStopped := false, engineStopped := false }).powerDone
    | 1 => (d.setPwr { d.pwr with power := .reefed }).powerDone
    | 2 => if d.mayEnter then d.entryStarts false else d.powerRefused
    | _ => if d.mayEnter then d.entryStarts true else d.powerRefused

/-- R86, R496: a write of TARGET with GO. -/
def Dev.powerWrite (d : Dev) (target : Nat) : Dev :=
  d.unlocked 0x000 fun d => (d.wr 0x000 Reg.PCH_PWR_CTRL.TARGET target).powerGo target

/-- REQUEST_FULL (R496). -/
def execRequestFull (via : Via) : State → Host.Outcome State Fault Refusal :=
  onBus .requestFull via 0x000 fun d => d.powerWrite 0
/-- REQUEST_REEFED (R496). -/
def execRequestReefed (via : Via) : State → Host.Outcome State Fault Refusal :=
  onBus .requestReefed via 0x000 fun d => d.powerWrite 1
/-- REQUEST_FURLED (R496, R497). -/
def execRequestFurled (via : Via) : State → Host.Outcome State Fault Refusal :=
  onBus .requestFurled via 0x000 fun d => d.powerWrite 2
/-- REQUEST_STRUCK (R496, R497). -/
def execRequestStruck (via : Via) : State → Host.Outcome State Fault Refusal :=
  onBus .requestStruck via 0x000 fun d => d.powerWrite 3

/-! ### What a cold event leaves (R506, R507) -/

/-- R308, R507: RETIRED returns to its default on power-on reset only. -/
def Spe.retiredOnly (x : Spe) : Spe := if x.retired then { Spe.reset with state := .retired, retired := true } else .reset

/-- R507: the time of domain `n` is kept, without the rate and what waited to apply. -/
def Dev.domKeptTime (d : Dev) (n : Nat) : Domain := { Domain.reset with time := d.domTime n, at_ := d.wclk }

/-- R507: the field buses keep the RAM of the CAN controllers, the publish buffers of the LIN channels and the side-band queue. -/
def Fbus.restarted (x : Fbus) : Fbus :=
  { Fbus.reset with mram := x.mram, lins := x.lins.mapVals .reset fun c => { LinCh.reset with bufs := c.bufs }
                    gpiq := x.gpiq, lost := x.lost, debs := x.debs }

/-- R507: the Stay fabric keeps the message numbers. -/
def Sty.restarted (x : Sty) : Sty := { Sty.reset with msnTx := x.msnTx, msnRx := x.msnRx, domSeq := x.domSeq }

/-- R507: the state beside registers after RESET_N: retired engines, working clock and domain times, the side-band queue, what
stands in MRAM, and the memories that no row of the rule returns to their default. -/
def Dev.coldState (d : Dev) : Dev :=
  let doms := (List.range 4).foldl (fun (m : SMap Domain) n => SMap.put (fun _ => .reset) m n (d.domKeptTime n)) []
  { d with
    maint := []
    swc := .reset
    xm := .reset
    nrm := { Nrm.reset with items := d.fbus.gpiq.map fun g => g.item, nextFid := d.nrm.nextFid }
    eng := { Eng.reset with spes := d.eng.spes.mapVals .reset Spe.retiredOnly, dmem := d.eng.dmem }
    gwy := .reset
    tbu := { Tbu.reset with doms := doms, clock := d.tbu.clock, tsos := d.tbu.tsos }
    hbr := .reset
    eth := []
    fbus := d.fbus.restarted
    insts := ⟨none, [], []⟩
    sty := d.sty.restarted
    mst := d.mst.restarted
    hlt := { Hlt.reset with freeze := d.hlt.freeze, frzNext := d.hlt.frzNext, frzWait := d.hlt.frzWait, tj := d.hlt.tj,
                            badClock := d.hlt.badClock, badSupply := d.hlt.badSupply } }

/-- R443: instance 0 has weight 1. -/
def Dev.weightOne (d : Dev) : Dev := d.wr 0x051 Reg.ENG_SHARE.WEIGHT 1 0

/-- R506: the registers of the retention classes that `cs` holds of return to their defaults. R443: where class W does, the weight
of instance 0 is 1. -/
def Dev.classesDefault (d : Dev) (cs : Cls → Bool) : Dev :=
  let d := d.regsDefault cs fun _ => true
  if cs .w then d.weightOne else d

/-! ### Entry to Furled and Struck (R497) -/

/-- R497: nothing new was taken since T0, and what was under way has ended: reception, runs, lookups and DMA. -/
def Dev.quiesced (d : Dev) : Bool :=
  !(d.eth.any fun x => x.2.rx.any fun f => !f.skip) && !(d.eng.spes.any fun x => x.2.run.isSome) &&
  !(d.nrm.items.any fun i => !i.alwaysOn && i.org != .device) &&
  !((List.range 64).any fun n => (List.range 24).any fun q => d.queueBusy n q)

/-- R509: the periodic outputs stand at their idle level. -/
def Dev.tsosRestart (d : Dev) : Dev := (List.range 5).foldl (fun d o => d.tsoRestart o) d

/-- R497: the clocks stop, in Furled. The PCIe link is down (R499). -/
def Dev.furl (d : Dev) : Dev :=
  let d := (d.powerDone).startComp 2
  let d := (d.wr 0x000 Reg.PCH_BOOT_STAT.FWD 0).wr 0x010 Reg.HBR_PCIE_STAT.DL_UP 0
  (d.setPwr { d.pwr with power := .furled, silent := true, timerAt := some d.now }).tsosRestart.clockKept

/-- R495: Struck keeps classes N and A, the MRAM and the side-band queue alone: the memories of the other domains lose what they
hold, and hold their power-on value after it (DESIGN CHOICE, notes/assumptions/40.md). -/
def Dev.memoriesLost (d : Dev) : Dev :=
  { d with eng := { d.eng with dmem := [] }, cb := [], fbus := { d.fbus with mram := [], lins := [] }, sty := .reset }

/-- R497, R506: the clocks stop, in Struck. -/
def Dev.strike (d : Dev) : Dev :=
  let d := if d.pwr.drained then d else d.wr 0x000 Reg.PCH_PWR_STAT.STRUCK_LOST 0
  let d := ((d.powerDone).startComp 2).coldState.memoriesLost
  let d := d.classesDefault fun c => c == .w || c == .v || c == .i
  (d.setPwr { d.pwr with power := .struck, silent := true, timerAt := some d.now, wakeOut := false, wdogAt := none,
                         coreStopped := false, engineStopped := false }).tsosRestart.clockKept

/-- The device is in Furled or Struck. -/
def Dev.asleep (d : Dev) : Bool := d.pwr.power == .furled || d.pwr.power == .struck

/-- R501, R508: events that came in during the entry start their wake. -/
def Dev.wakeWaiting (d : Dev) : Dev :=
  match d.pwr.wakeq with
  | [] => d
  | e :: _ =>
    if !d.on 0x000 Reg.PCH_WAKE_CFG.WW_EN then d.wake e false 0
    else match d.pwr.wakeq.drop 8 with
      | x :: _ => d.wake x false 0xFE
      | [] => d

/-- R497: the entry ends, once nothing is under way, and in Struck once no sentence is left. -/
def Dev.entryEnds (d : Dev) : Dev :=
  if !d.quiesced then d
  else match d.pwr.power with
    | .enterFurled => d.furl.wakeWaiting
    | .enterStruck => if d.sentences = 0 then d.strike.wakeWaiting else d
    | _ => d

/-- ENTRY_QUIESCED (R497). -/
def execEntryQuiesced : State → Host.Outcome State Fault Refusal := onDevL Dev.entryEnds

/-- R497: the members of a host-posted sentence that have not settled fail with LINK_DOWN. -/
def Dev.drainAcct (d : Dev) (x : Acct) : Dev :=
  match x.org with
  | .host _ _ _ _ _ _ =>
    let ms := x.members.map fun (m : Member) =>
      if m.open_ = 0 ∧ x.sealed = true then m else { m with fail := m.fail.or (some (0x02, 0x7C)) }
    d.complete x.org x.shb.talker x.shb.seq
      (match ms.find? fun m => m.fail.isSome with | some m => (m.fail.getD (0x02, 0)).1 | none => 0x02) ms
  | _ => d

/-- DRAIN_EXPIRY (R497): in the entry to Struck, DRAIN_MS have passed. -/
def execDrainExpiry : State → Host.Outcome State Fault Refusal := onDevL fun d =>
  if d.pwr.power != .enterStruck || d.pwr.drained then d
  else
    let d := d.reach (d.pwr.entryAt + d.rd 0x000 Reg.PCH_PWR_CTRL.DRAIN_MS * Config.perMs)
    let lost := d.sentences
    let d := d.swc.accts.foldl (fun (d : Dev) a => d.drainAcct a.2) d
    let d := d.dropAll.wr 0x000 Reg.PCH_PWR_STAT.STRUCK_LOST (min 65535 lost)
    (d.setPwr { d.pwr with drained := true }).entryEnds

/-! ### Wake events (R499 to R501) -/

/-- R512: FBC_SWK_MODE of channel `c`. -/
def Dev.swkMode (d : Dev) (c : Nat) : Nat :=
  let v := if c < 16 then d.rd 0x0DF Reg.FBC_SWK_MODE_LO.MODE else d.rd 0x0DF Reg.FBC_SWK_MODE_HI.MODE
  v / 4 ^ (c % 16) % 4

/-- Data byte `i` of a wake frame (R501). -/
def wakeByte (w : WakeData) (i : Nat) : Nat :=
  let x := (match i / 2 with | 0 => w.d0 | 1 => w.d1 | 2 => w.d2 | _ => w.d3).toNat
  if i % 2 = 0 then x / 256 else x % 256

/-- R500: filter entry `k` matches a frame of channel `c`. -/
def Dev.swkHits (d : Dev) (c k : Nat) (ide : Bool) (w : WakeData) : Bool :=
  let d0 := d.rd 0x0DF Reg.FBC_SWK_D0.ID k
  let id := w.w1.toNat * 65536 + w.w2.toNat
  let d3 := d.rd 0x0DF Reg.FBC_SWK_D3.DLC k
  let mask := fun (i : Nat) =>
    (if i < 4 then d.rd 0x0DF Reg.FBC_SWK_D4.DMASK k / 256 ^ i else d.rd 0x0DF Reg.FBC_SWK_D5.DMASK k / 256 ^ (i - 4)) % 256
  let bytes := min 8 w.w3.toNat
  d.on 0x0DF Reg.FBC_SWK_D0.VALID k && bitAt (d.rd 0x0DF Reg.FBC_SWK_D2.CHAN k) c && bitAt d0 29 == ide &&
  Nat.land (Nat.xor (d0 % 2 ^ 29) id) (d.rd 0x0DF Reg.FBC_SWK_D1.MASK k) == 0 &&
  (!bitAt d3 4 || d3 % 16 == w.w3.toNat) &&
  (((List.range 8).all fun i => mask i == 0) || (List.range bytes).any fun i => Nat.land (mask i) (wakeByte w i) != 0)

/-- R499: a detection is one of the enabled sources. -/
def Dev.wakeDetects (d : Dev) (src unit : Nat) (ide : Bool) (w : WakeData) : Bool :=
  bitAt (d.rd 0x000 Reg.PCH_WAKE_EN.SRC) src &&
  (match src with
   | 0 => d.swkMode unit == 1 || (d.swkMode unit == 2 && (List.range 32).any fun k => d.swkHits unit k ide w)
   | 1 => decide (unit < 16) && d.on (linPage unit) Reg.LIN_CTRL.ROLE && between 15 500 w.w1.toNat
   | 2 => decide (unit < 8) && d.tc10En (4 + unit) && d.tc10 (4 + unit) == 2
   | 3 => decide (unit < 6)
   | 4 => d.on 0x0D0 Reg.GPI_LINE.WAKE unit && d.gpiSelects unit (bitAt w.w1.toNat 0)
   | 5 => decide (unit < 4) && d.on (linkPage unit) Reg.PG_CTRL.EN_link
   | 6 => true
   | _ => false)

/-- R508: moments of one always-on clock, of 4 MHz. -/
def sameAon (t u : Nat) : Bool := t / 4000 == u / 4000

/-- R508: `e` goes before `x`, which came in the same always-on clock: its source bit is lower, or its unit. -/
def WakeEv.before (e x : WakeEv) : Bool :=
  sameAon e.at_ x.at_ && (decide (e.src < x.src) || (e.src == x.src && decide (e.unit < x.unit)))

/-- R508: an event is queued behind those that came before it. -/
def insertWake (e : WakeEv) : List WakeEv → List WakeEv
  | [] => [e]
  | x :: xs => if e.before x then e :: x :: xs else x :: insertWake e xs

/-- R501, R508: an event of the always-on clock in which the device woke, and of a lower source or unit, is the one that woke it. -/
def Dev.wakeRepeats (d : Dev) (e : WakeEv) : Dev :=
  let x : WakeEv := ⟨d.rd 0x000 Reg.PCH_WAKE_STAT.SRC, d.rd 0x000 Reg.PCH_WAKE_STAT.UNIT, e.data, d.pwr.bootAt⟩
  if e.before x then (d.wr 0x000 Reg.PCH_WAKE_STAT.SRC e.src).wr 0x000 Reg.PCH_WAKE_STAT.UNIT e.unit else d

/-- R501: an event in Furled or Struck: without a wake program it wakes the device; with one it waits for its run. -/
def Dev.wakeArrives (d : Dev) (e : WakeEv) : Dev :=
  let q := insertWake e d.pwr.wakeq
  if d.entering then d.setPwr { d.pwr with wakeq := q }
  else if !d.on 0x000 Reg.PCH_WAKE_CFG.WW_EN then
    (if d.asleep then d.wake e false 0 else if d.pwr.power == .waking then d.wakeRepeats e else d)
  else if !d.asleep then d
  else match q.drop 8 with
    | x :: _ => d.wake x false 0xFE
    | [] => d.setPwr { d.pwr with wakeq := q }

/-- R137: a wake-up pulse on port Z`z`, which is asleep. -/
def Dev.tc10Wakes (d : Dev) (z : Nat) : Dev :=
  if d.tc10En (4 + z) && d.tc10 (4 + z) == 2 then (d.setTc10 (4 + z) 3).raise (ethPage (4 + z)) 23 else d

/-- WAKE_EVENT (R499, R500, R501). -/
def execWakeEvent (src : Fin 8) (unit : Fin 32) (ide : Bool) (w : WakeData) : State → Host.Outcome State Fault Refusal :=
  onAon fun d =>
    if !(d.asleep || d.entering || d.pwr.power == .waking) || !d.wakeDetects src.val unit.val ide w then d
    else (if src.val = 2 then d.tc10Wakes unit.val else d).wakeArrives ⟨src.val, unit.val, w, d.now⟩

abbrev noWakeData : WakeData := ⟨0, 0, 0, 0, 0, 0, 0⟩

/-- TC10_WAKE (R137, R499): a wake-up pulse on Z`z`. -/
def execTc10Wake (z : Fin 8) : State → Host.Outcome State Fault Refusal := onAon fun d =>
  let wakes := d.wakeDetects 2 z.val false noWakeData
  let d := d.tc10Wakes z.val
  if wakes then d.wakeArrives ⟨2, z.val, noWakeData, d.now⟩ else d

/-- R193, R200, R499: one sample of line `i`; a reported change of a line with WAKE is a wake event. -/
def Dev.gpiSampled (d : Dev) (i : Nat) (level : Bool) : Dev :=
  let e := d.gpiLine i level
  let w : WakeData := { noWakeData with w1 := BitVec.ofNat 16 (b2n level) }
  if bitAt (e.rd 0x0D0 Reg.GPI_LEVEL.L) i != bitAt (d.rd 0x0D0 Reg.GPI_LEVEL.L) i && d.wakeDetects 4 i false w then
    e.wakeArrives ⟨4, i, w, d.now⟩
  else e

/-- GPI_SAMPLE (R193, R499): the lines G0 to G31 are sampled; changes are captured in ascending line number (R194). -/
def execGpiSample (levels : BitVec 32) : State → Host.Outcome State Fault Refusal := onAon fun d =>
  (List.range 32).foldl (fun (d : Dev) i => d.gpiSampled i (bitAt levels.toNat i)) d

/-- WAKE_TIMER (R499): PERIOD_MS have passed. -/
def execWakeTimer : State → Host.Outcome State Fault Refusal := onAon fun d =>
  let p := d.rd 0x000 Reg.PCH_WAKE_CFG.PERIOD_MS
  match d.pwr.timerAt with
  | none => d
  | some t =>
    if !d.asleep || p == 0 || !bitAt (d.rd 0x000 Reg.PCH_WAKE_EN.SRC) 7 then d
    else
      let d := d.reach (t + p * Config.perMs)
      (d.setPwr { d.pwr with timerAt := some d.now }).wakeArrives ⟨7, 0, noWakeData, d.now⟩

/-- WAKE_RUN_START (R501): a run starts for the first event that waits. What w0 to w3 start with is not stated, as there is no
input (R319; notes/assumptions/1.md). -/
def execWakeRunStart : State → Host.Outcome State Fault Refusal := onAon fun d =>
  match d.pwr.run, d.pwr.wakeq with
  | none, e :: es =>
    if !d.asleep || !d.on 0x000 Reg.PCH_WAKE_CFG.WW_EN then d
    else
      let free := fun (i : Nat) => (Config.freeValue (d.free + 1 + i)).setWidth 18
      let core := startCore [free 0, free 1, free 2, free 3] [0, 0, 0, 0]
      let d := { d with free := d.free + 4 }
      (d.setPwr { d.pwr with wakeq := es, run := some ⟨e, core⟩ }).bump 0x002 Reg.PCH_WW_RUNS.RUNS
  | _, _ => d

/-- WAKE_RUN_LIMIT (R501): a run reaches 512 cycles. -/
def execWakeRunLimit : State → Host.Outcome State Fault Refusal := onAon fun d =>
  match d.pwr.run with
  | some w => if 512 ≤ w.core.cycles then d.watchFault else d
  | none => d

/-! ### Wake from Furled (R498, R501) -/

/-- R498: an enabled Ethernet port starts in HOLD; a frame that was on its medium goes back to its queue. -/
def Dev.portWakes (d : Dev) (p : Nat) : Dev :=
  if d.on (ethPage p) Reg.PG_CTRL.EN then
    let d := d.cutOff p
    (d.setEport p { d.eport p with rx := [], lock := false, peerSpeed := none, offAt := none }).enterHold p
  else d

/-- R172, R498: an enabled CAN channel starts in HOLD, and recovers as from bus-off. One whose settings are refused keeps off
the bus (R160, R162). -/
def Dev.canWakes (d : Dev) (c : Nat) : Dev :=
  if d.on (canPage c) Reg.PG_CTRL.EN && d.canBad c then d.canOff c
  else if d.on (canPage c) Reg.PG_CTRL.EN then
    let t := d.now + d.rd (canPage c) Reg.CAN_CTRL.HOLD_MS * Config.perMs
    d.setCan c { d.can c with state := .busOff, holdAt := some t, recover := true }
  else d

def Dev.linkWakes (d : Dev) (l : Nat) : Dev :=
  if d.on (linkPage l) Reg.PG_CTRL.EN_link then d.stayHold l else d

/-- R242, R498: every queued sentence is tested against its lifetime: those that wait for admission, those queued toward the engine
array or in a deque, and the copies in their queues. -/
def Dev.testQueued (d : Dev) : Dev :=
  let d := (d.swc.sens.filter fun e => e.2.waits.isSome).foldl (fun (d : Dev) e =>
    match d.sen e.1 with
    | some s => if d.expired s then ((d.bump 0x040 Reg.BUF.ADMIT_LIFETIME).waitingFails e.1 0x03 0x7B).flowOf s.org s.fid else d
    | none => d) d
  let d := (d.swc.copies.filter fun c => c.role == .engine).foldl (fun (d : Dev) c =>
    match d.sen c.sid with
    | some s =>
      if !d.expired s then d
      else if c.place == .pool then d.inputExpires c.sid s
      else if d.swc.voq.any fun x => x.sid == c.sid then d.takenExpires c.sid s
      else d
    | none => d) d
  (d.swc.copies.filter fun c => c.place == .voq || c.place == .egress).foldl (fun (d : Dev) c =>
    match d.sen c.sid with
    | some s => if d.expired s && d.swc.copies.any (fun x => c.is x) then d.copyFails c 0x03 (d.expiryPlace c) else d
    | none => d) d

/-- PLL_RELOCK (R364, R498, R501): in a wake from Furled, the PLLs are locked again. -/
def execPllRelock : State → Host.Outcome State Fault Refusal := onAon fun d =>
  if d.pwr.power != .waking || d.pwr.boot != .running then d
  else
    let slept := d.now - d.pwr.entryAt
    let d := d.clockRuns
    let d := d.setPwr { d.pwr with boot := .waitFwd, wdogAt := d.pwr.wdogAt.map (· + slept) }
    let d := (List.range 22).foldl (fun (d : Dev) p => d.portWakes p) d
    let d := (List.range 32).foldl (fun (d : Dev) c => d.canWakes c) d
    let d := (List.range 4).foldl (fun (d : Dev) l => d.linkWakes l) d
    let d := { d with swc := { d.swc with ctxs := d.swc.ctxs.map fun (x : Ctx) => { x with since := x.since.map fun _ => d.now } } }
    d.testQueued.syncsGone

/-! ### Power-on reset and RESET_N (R502, R504) -/

/-- R506, R507: power-on reset: MRAM alone is kept. -/
def Dev.powerOn (d : Dev) : Dev :=
  { Dev.reset with
    free := d.free
    mst := { d.mst.restarted with boots := d.mst.boots + 1, scrubAt := 0 }
    hlt := { Hlt.reset with freeze := d.hlt.freeze, frzNext := d.hlt.frzNext }
    wires := d.wires }

/-- POWER_ON_RESET (R502, R566): VDD_AON comes into range, the always-on reset is released, and the device senses VDDIO_HOST: in
millivolts, a free value below 4,096 (notes/assumptions/53.md). -/
def execPowerOnReset (s : State) : Host.Outcome State Fault Refusal :=
  let d := s.dev.powerOn
  .next { s with dev := d.drawn.setPwr { d.pwr with pads := padsFor (d.freeBits.toNat % 4096) } }

/-- VDD_AON_LOSS (R504, R509): VDD_AON falls out of range: everything but MRAM is lost. -/
def execVddAonLoss : State → Host.Outcome State Fault Refusal := onAon fun d =>
  let e := d.powerOn
  { e with mst := { e.mst with boots := d.mst.boots }
           pwr := { Pwr.reset with dead := true, svcOk := false, wakeOut := false } }

/-- RESET_N (R504, R509): the reset runs from the rising edge of RESET_N; the periodic outputs stand low. -/
def execResetN (s : State) : Host.Outcome State Fault Refusal :=
  if s.dev.pwr.dead then .next s
  else
    let d := (s.dev.coldState).classesDefault fun c => c != .a
    let d := (d.setPwr { Pwr.reset with pads := d.pwr.pads }).setMst { d.mst with boots := d.mst.boots + 1 }
    let d := (List.range 5).foldl (fun (d : Dev) o => d.tsoDrive o false) d
    .next { s with dev := { d with tbu := { d.tbu with tsos := [] } }.wr 0x000 Reg.PCH_BOOT_STAT.CAUSE 1 }

/-- RESET_N_GLITCH (R504, R510): a low of 200 ns to 1 µs. -/
def execResetNGlitch : State → Host.Outcome State Fault Refusal := onAon fun d => d.wr 0x000 Reg.PCH_BOOT_STAT.RST_GLITCH 1

/-! ### The start (R502, R503) -/

def Dev.setBoot (d : Dev) (b : Boot) : Dev := d.setPwr { d.pwr with boot := b }

/-- R504: the cause of the start under way. -/
def Dev.bootCause (d : Dev) : Nat := d.rd 0x000 Reg.PCH_BOOT_STAT.CAUSE

/-- R502: when the rails are due: RAIL_MS after WAKE_OUT rose, which in a wake is 1 µs after the decision. -/
def Dev.railsBy (d : Dev) : Nat :=
  d.pwr.bootAt + (if d.bootCause = 5 then Config.perUs else 0) + d.rd 0x000 Reg.PCH_WAKE_CFG.RAIL_MS * Config.perMs

/-- RAILS_READY (R502, R62): all rails are in range and RESET_N is high. -/
def execRailsReady (manager : Bool) (dev : Fin 16) : State → Host.Outcome State Fault Refusal := onAon fun d =>
  if d.pwr.boot != .waitRails then d
  else
    let cause := d.bootCause
    let late := decide (d.railsBy < d.now)
    let d := if cause = 1 then d else d.wrB 0x000 Reg.PCH_BOOT_STAT.RAIL_LATE late
    let d := if cause = 5 then d.setMst { d.mst with boots := d.mst.boots + 1 }
      else d.setPwr { d.pwr with manager := manager, devId := dev.val, bootAt := d.now }
    { d with hlt := { d.hlt with badSupply := false } }.setBoot .waitPll

/-- RAIL_WAIT_EXPIRY (R502): RAIL_MS have passed since WAKE_OUT rose, and the device keeps waiting. -/
def execRailWaitExpiry : State → Host.Outcome State Fault Refusal := onAon fun d =>
  if d.pwr.boot == .waitRails && d.bootCause != 1 then
    d.reach (d.railsBy + 1)
  else d

/-- PLL_LOCK (R364, R502). -/
def execPllLock : State → Host.Outcome State Fault Refusal := onAon fun d =>
  if d.pwr.boot != .waitPll then d else ({ d with hlt := { d.hlt with badClock := false } }.setBoot .waitReload).clockRuns

/-- R516, R517: reload every class N field that a record names, and the firmware's own settings. R443: the weight of instance 0
stays 1 after the class W event that the reload follows (notes/assumptions/40.md). -/
def Dev.reloadN (d : Dev) (r : JRec) : Dev :=
  { d with regs := r.regs.foldl (fun m x => SMap.put (fun _ => ~~~x.2) m x.1 x.2) d.regs
           mst := { d.mst with fwSet := r.fw } : Dev }.weightOne

/-- R517: the schema level of the newest record is one that the valid Masthead firmware reads. -/
def Dev.schemaOk (d : Dev) : Bool :=
  match newestRec d.mst.journal, d.mst.comp 4 with
  | some r, some c => !c.valid || (decide (c.schMin ≤ r.schema) && decide (r.schema ≤ c.schMax))
  | _, _ => true

/-- R517, R522, R533: items are forwarded by the storm-jib table; with no good copy of it, that is a fault (R540). -/
def Dev.stormJib (d : Dev) : Dev :=
  let d := { d with nrm := { d.nrm with sj := true } }
  if d.sjCopy.isNone then d.fault 0x008 0x14 0 else d

/-- R517: settings fallback. -/
def Dev.fallback (d : Dev) : Dev :=
  ((d.wr 0x008 Reg.MST_FW_STAT.FALLBACK 1).wr 0x008 Reg.MST_FW_STAT.OLD_RO 1).fault 0x008 0x13 0

/-- R502, R517, R533: class N is reloaded, after a wake from Struck too; then fast start, or without it the storm-jib table. -/
def Dev.settingsReload (d : Dev) : Dev :=
  let d := match newestRec d.mst.journal with | some r => d.reloadN r | none => d
  let d := ([1, 2, 3, 4, 0x10, 0x11, 0x12, 0x20] : List Nat).foldl (fun (d : Dev) t => d.startComp t) d
  let loader := d.mst.invalid
  let d := d.loaderEnters
  let bad := !d.schemaOk
  let d := if bad then d.fallback else d
  let d := if d.on 0x000 Reg.PCH_WDOG.TIMEOUT_MS then d.setPwr { d.pwr with wdogAt := some d.now } else d
  let d := d.syncsGone
  if loader || bad then
    ((d.wr 0x000 Reg.PCH_BOOT_STAT.FASTSTART 0).wr 0x000 Reg.PCH_BOOT_STAT.FS_ERR 0).stormJib.setBoot .waitFwd
  else d.setBoot .waitFast

/-- SETTINGS_RELOAD (R502, R517). -/
def execSettingsReload : State → Host.Outcome State Fault Refusal := onDevL fun d =>
  if d.pwr.boot != .waitReload then d else d.settingsReload

/-- R217, R503: the meters and lists of the image start as at a COMMIT. -/
def Dev.imageStarts (d : Dev) : Dev :=
  let d := (d.usedIn 0x13C000 16 1024).foldl (fun (d : Dev) m =>
    if bitsOf (d.tab32 0 (0x13C000 + 16 * m)) 31 1 = 1 then
      d.setMeter m ⟨bucket (d.cbsOf 0 m), bucket (d.ebsOf 0 m), d.now, false⟩
    else d) d
  (d.usedIn 0x20A0000 64 4096).foldl (fun (d : Dev) l => d.newEpoch l) d

/-- R503: the image of a cache that passes its check goes into both banks of every table set. -/
def Dev.loadCache (d : Dev) (b : List Byte) : Dev :=
  let ss := (sectionsOf b).getD []
  let d := (d.writeBlocks 0 ss).writeBlocks 1 ss
  let d := { d with nrm := { d.nrm with active := 0 } }
  let d := (d.imageStarts).writeLists true ss
  (d.wr 0x000 Reg.PCH_BOOT_STAT.FASTSTART 1).wr 0x000 Reg.PCH_BOOT_STAT.FS_ERR 0

/-- R503: fast start fails. -/
def Dev.fastFails (d : Dev) : Dev :=
  let d := (d.wr 0x000 Reg.PCH_BOOT_STAT.FASTSTART 0).wr 0x000 Reg.PCH_BOOT_STAT.FS_ERR 1
  ((d.raise 0x000 19).fault 0x000 0x15 0).stormJib

/-- FAST_START (R503). -/
def execFastStart : State → Host.Outcome State Fault Refusal := onDevL fun d =>
  if d.pwr.boot != .waitFast then d
  else
    let e := match d.mst.cache with
      | some c => if c.good && Config.sha256 c.bytes == c.digest then d.loadCache c.bytes else d.fastFails
      | none => d.fastFails
    e.setBoot .waitFwd

/-- R551: the condition that keeps the device in the safe state after a reset. -/
def Dev.stillUnsafe (d : Dev) : Option Nat :=
  let crit := 4 * ((d.rd 0x001 Reg.PCH_TEMP_CFG.CRIT : Int) - d.rd 0x001 Reg.PCH_TEMP_CFG.HYST)
  if d.hlt.badClock then some 0x19
  else if d.hlt.badSupply then some 0x1A
  else if decide (crit ≤ signed 11 d.hlt.tj.toNat) then some 0x18 else none

/-- R505, R511: what a start enables: ports, links, poll controllers and periodic outputs. -/
def Dev.enableAll (d : Dev) : Dev :=
  let d := (List.range 22).foldl (fun (d : Dev) p => if d.on (ethPage p) Reg.PG_CTRL.EN then d.portOn p else d) d
  let d := (List.range 4).foldl (fun (d : Dev) l =>
    if !d.on (linkPage l) Reg.PG_CTRL.EN_link then d
    else if (d.link l).state == .train && (d.link l).step == 2 then d.toStep3 l else d.stayOn l) d
  let d := (List.range 8).foldl (fun (d : Dev) b => if d.pollRun b && (d.bus b).runAt.isNone then d.pollGo b else d) d
  d.tsosRestart

/-- R502, R510: FWD is set, and FWD_TIME with it, unless a soft reset set it before. -/
def Dev.forward (d : Dev) : Dev :=
  let power : Power := if d.pwr.power != .waking then d.pwr.power else if d.pwr.wakeTo = 1 then .reefed else .full
  let soft := [2, 3, 4].contains d.bootCause
  let ticks := (d.now - d.pwr.bootAt + 5 * Config.perUs) / (10 * Config.perUs)
  let d := (d.setPwr { d.pwr with
    silent := false, power := power, boot := .running,
    coreStopped := false, engineStopped := false }).enableAll
  let d := d.wr 0x000 Reg.PCH_BOOT_STAT.FWD 1
  if soft then d else d.wr 0x000 Reg.PCH_BOOT_STAT.FWD_TIME (min 65535 ticks)

/-- FORWARDING (R502, R551). -/
def execForwarding : State → Host.Outcome State Fault Refusal := onDevL fun d =>
  if d.pwr.boot != .waitFwd || d.pwr.rst.isSome || d.on 0x001 Reg.PCH_SAFE.ACTIVE then d
  else match d.stillUnsafe with
    | some c => (d.safeState c).tsosRestart
    | none => d.forward

/-- MASTHEAD_START (R44, R502, R533): the Masthead firmware runs, does what waited for it, and applies the rig-image cache
when that waits for it. -/
def execMastheadStart : State → Host.Outcome State Fault Refusal := onDevL fun d =>
  if d.hlt.running || d.hlt.halted || d.on 0x008 Reg.MST_FW_STAT.LOADER || d.mst.runVersion 4 == 0 then d
  else
    let d := { d with hlt := { d.hlt with running := true } }.mhResumes
    match d.mst.applyAt with
    | some _ => d.cacheApplies d.now
    | none => d

/-! ### Soft, watchdog and Stay resets (R504, R505, R581) -/

/-- R505, R508, R532: such a reset starts. -/
def Dev.resetStarts (d : Dev) (k : SoftKind) (cause : Nat) : Dev :=
  if d.pwr.rst.isSome then d
  else
    let d := (d.entryAborted).wr 0x000 Reg.PCH_BOOT_STAT.CAUSE cause
    let d := if d.mst.sess.st == .idle then d else d.sessionEnds (some 11)
    d.setPwr { d.pwr with rst := some (k, d.now), stayAt := none }

/-- R504: a write of PCH_RESET. -/
def Dev.softReset (d : Dev) (key : Nat) (soft : Bool) : Dev := if soft && key == 0x5A then d.resetStarts .soft 2 else d

/-- SOFT_RESET (R504). -/
def execSoftReset (via : Via) (key : Byte) : State → Host.Outcome State Fault Refusal :=
  onBus (.softReset key) via 0x000 fun d =>
  d.softReset key.toNat true

/-- WATCHDOG_RESET (R504, R508): TIMEOUT_MS have passed without a KICK. -/
def execWatchdogReset : State → Host.Outcome State Fault Refusal := onDevL fun d =>
  let t := d.rd 0x000 Reg.PCH_WDOG.TIMEOUT_MS
  match d.pwr.wdogAt with
  | none => d
  | some at_ => if t == 0 || d.entering then d else (d.reach (at_ + t * Config.perMs)).resetStarts .watchdog 3

/-- R504: a write of KICK. -/
def Dev.kick (d : Dev) : Dev := if d.on 0x000 Reg.PCH_WDOG.TIMEOUT_MS then d.setPwr { d.pwr with wdogAt := some d.now } else d

/-- KICK (R504, R510). -/
def execKick (via : Via) : State → Host.Outcome State Fault Refusal := onBus .kick via 0x000 fun d => d.kick

/-- STAY_RESET (R504): 1 µs after the write of the manager was completed. -/
def execStayReset : State → Host.Outcome State Fault Refusal := onDevL fun d =>
  match d.pwr.stayAt with
  | none => d
  | some t => (d.reach t).resetStarts .stay 4

/-- R505: a port keeps its PHY and starts again from DOWN. -/
def Dev.portRestarts (d : Dev) (p : Nat) : Dev :=
  d.setEport p { EthPort.reset with link := if d.on (ethPage p) Reg.PG_CTRL.EN then .down else .disabled }

/-- R505: a link trains again from step 3. -/
def Dev.linkRestarts (d : Dev) (l : Nat) : Dev :=
  d.setLink l (if d.on (linkPage l) Reg.PG_CTRL.EN_link then { StayLink.reset with state := .train, step := 2 } else .reset)

/-- R217, R507: the state of the meters is of class V: those in use start with empty buckets. -/
def Meter.restarts (now : Nat) (m : Meter) : Meter := if m = .reset then m else ⟨0, 0, now, false⟩

/-- R339, R355, R507: a pack list keeps its epoch. -/
def PList.restarts (x : PList) : PList := { PList.reset with epoch := x.epoch, nextDue := x.nextDue }

/-- R505 to R507, R581: what soft, watchdog and Stay resets leave of the state beside registers. A COMMIT under way goes on,
with its token; the ring, what LPDDR5 holds, the fault log, PCIe configuration, the clocks and every state that R507 does not
name are kept. READY and FAIL of the memory are of class V, so it trains once more (DEDUCED, notes/assumptions/17.md). -/
def Dev.softState (d : Dev) : Dev :=
  let going := d.nrm.swapAt.isSome || d.nrm.resync.isSome
  let held := d.maint.filterMap fun (x : Nat × Maint) =>
    match x.2.held with
    | some (6, s) => if going && x.1 == 0x028 then some (x.1, (⟨some (6, s), none⟩ : Maint)) else none
    | _ => none
  let d := { d with
    maint := held
    swc := .reset
    xm := { d.xm with ready := false, fail := false, training := false, retrain := false, due := 0, retryAt := 0, spill := false }
    nrm := { d.nrm with seqs := [], blocked := [], meters := d.nrm.meters.mapVals .reset (Meter.restarts d.now), duals := []
                        sj := false }
    eng := { Eng.reset with spes := d.eng.spes.mapVals .reset fun (x : Spe) => { x.retiredOnly with faults := x.faults }
                            dmem := d.eng.dmem }
    gwy := { Gwy.reset with lists := d.gwy.lists.mapVals .reset PList.restarts, segs := d.gwy.segs }
    tbu := { d.tbu with snaps := [], tsq := .reset, ringPopped := 0, ringSeq := 0, ringLast := [0, 0, 0, 0], lastEdge := [],
                        locked := false, offset := 0, stepTry := none,
                        doms := d.tbu.doms.mapVals .reset fun (x : Domain) => { x with stepAt := none, holdAt := none } }
    hbr := { Hbr.reset with bme := d.hbr.bme, d3 := d.hbr.d3, msix := d.hbr.msix, fns := d.hbr.fns }
    eth := []
    fbus := d.fbus.restarted
    insts := ⟨none, [], d.insts.images⟩
    sty := d.sty.restarted
    mst := d.mst.restarted
    hlt := { d.hlt with warned := false, critRun := 0, restarts := [], halted := false, running := false } }
  let d := (List.range 22).foldl (fun (d : Dev) p => d.portRestarts p) d
  (List.range 4).foldl (fun (d : Dev) l => d.linkRestarts l) d

/-- R506: the class V and class I registers return to their defaults; the PCIe link and its status are kept (R505). -/
def Dev.softRegs (d : Dev) : Dev :=
  let keep := fun (e : Dev) (f : Fld) => e.wr 0x010 f (d.rd 0x010 f)
  let e := d.classesDefault fun c => c == .v || c == .i
  keep (keep (keep e Reg.HBR_PCIE_STAT.SPEED) Reg.HBR_PCIE_STAT.WIDTH) Reg.HBR_PCIE_STAT.DL_UP

/-- R551: whether the condition of cause 0x19 or 0x1A has ended by now: the device sees the clock and the rails, of which the model
has no view, so that it is a free value (notes/assumptions/51.md). -/
def Dev.conditionsSeen (d : Dev) : Dev :=
  let b := d.freeBits.toNat
  { d.drawn with hlt := { d.hlt with badClock := d.hlt.badClock && bitAt b 0, badSupply := d.hlt.badSupply && bitAt b 1 } }

/-- R505, R532, R551: the reset has run. -/
def Dev.resetEnds (d : Dev) (k : SoftKind) : Dev :=
  let lost := d.sentences + d.looseItems
  let boot : Boot := if d.pwr.boot = .running then .waitFwd else d.pwr.boot
  let d := (d.dropAll.softState).softRegs
  let d := (d.wr 0x000 Reg.PCH_RST_LOST.COUNT lost).loaderEnters
  let d := d.setPwr { d.pwr with
    rst := none, boot := boot, silent := true, coreStopped := false, engineStopped := false,
    wdogAt := if d.on 0x000 Reg.PCH_WDOG.TIMEOUT_MS then some d.now else none }
  let d := d.syncsGone
  let d := if k = .watchdog then d.fault 0x000 0x16 0 else d
  let d := d.conditionsSeen
  match d.stillUnsafe with
  | some c => (d.safeState c).raise 0x000 21
  | none => d

/-- RESET_COMPLETE (R505). -/
def execResetComplete : State → Host.Outcome State Fault Refusal := onDevL fun d =>
  match d.pwr.rst with
  | some (k, _) => d.resetEnds k
  | none => d

/-! ### Clocks that stop in Reefed (R49 to R51) -/

/-- CLOCK_STOP (R49, R50): 256 idle cycles of the domain's clock end; an arrival in the last of them wins. -/
def execClockStop (dom : ClockDom) (arrival : Bool) : State → Host.Outcome State Fault Refusal := onDevL fun d =>
  if d.pwr.power != .reefed || arrival || !d.domIdle dom then d
  else match dom with
    | .core => d.setPwr { d.pwr with coreStopped := true }
    | .engine => d.setPwr { d.pwr with engineStopped := true }

/-- DOMAIN_RESTART (R49, R51): an arrival or a register access has restarted the clock of a domain. -/
def Dev.domRestart (d : Dev) (dom : ClockDom) : Dev :=
  match dom with
  | .core => d.setPwr { d.pwr with coreStopped := false }
  | .engine => d.setPwr { d.pwr with engineStopped := false }

end Sys2Proof.Machine
end

