-- ==== Sys2Proof/Machine/Health.lean ====
section
/-! DEFINITION. Health and maintenance (spec/18_health_and_maintenance.md): the freeze ring and acknowledgements (R544, R545),
the causes of the safe state (R540), the thermal sensor (R553, R554), restarts of the Masthead controller (R540), and the
SRAM patrol scrub (R555). -/

namespace Sys2Proof.Machine

open Sys2Proof

def Dev.setHlt (d : Dev) (h : Hlt) : Dev := { d with hlt := h }

/-- R544: the oldest entry that waits goes to its slot of the freeze ring. -/
def Dev.freezeNext (d : Dev) : Dev :=
  match d.hlt.frzWait with
  | [] => d
  | e :: es =>
    let slot := d.hlt.frzNext.toNat % 4096
    let ring := SMap.put (fun _ => none) d.hlt.freeze slot (some e)
    (d.setHlt { d.hlt with freeze := ring, frzNext := d.hlt.frzNext + 1, frzWait := es }).raise 0x000 24

/-- FREEZE_WRITE (R544). -/
def execFreezeWrite : State → Host.Outcome State Fault Refusal := onAon Dev.freezeNext

/-! ### Acknowledgement (R545) -/

/-- R545: PG_FAULT of page `p` is acknowledged. -/
def Dev.ackPage (d : Dev) (p : PageId) : Dev :=
  ((d.wr p Reg.PG_FAULT.WORST 0).wr p Reg.PG_FAULT.COUNT 0).wr p Reg.PG_FAULT.LASTREC 0

/-- R545, R560: a write of PCH_FLT_ACK with GO. TJ_MAX starts again from the present TJ. -/
def Dev.faultAck (d : Dev) (page : Nat) (all : Bool) : Dev :=
  if all then (blockPages.foldl (fun (d : Dev) p => d.ackPage p) d).wr 0x001 Reg.PCH_TEMP.TJ_MAX (d.rd 0x001 Reg.PCH_TEMP.TJ)
  else if blockPages.contains page then d.ackPage page else d

/-- FAULT_ACK (R545). -/
def execFaultAck (via : Via) (page : BitVec 9) (all : Bool) : State → Host.Outcome State Fault Refusal :=
  onBus (.faultAck page all) via 0x001 fun d => d.faultAck page.toNat all

/-! ### Causes of the safe state (R540) -/

/-- R560: a write of PCH_SAFE. -/
def Dev.hostSafe (d : Dev) (key : Nat) (enter : Bool) : Dev := if enter && key == 0x5C then d.fault 0x001 0x1C 0 else d

/-- HOST_SAFE (R540): a write of PCH_SAFE with ENTER. -/
def execHostSafe (via : Via) (key : Byte) : State → Host.Outcome State Fault Refusal :=
  onBus (.hostSafe key) via 0x001 fun d => d.hostSafe key.toNat true

/-- R540: a monitor stands in Full and Reefed. -/
def Dev.monitored (d : Dev) : Bool := !d.asleep && d.pwr.power != .waking

/-- CLOCK_LOSS (R540): a clock is absent for 10 µs, or a PLL loses lock in Full or Reefed. The condition holds until a PLL
locks again (R551, R502). -/
def execClockLoss : State → Host.Outcome State Fault Refusal := onDevL fun d =>
  if d.monitored then (d.setHlt { d.hlt with badClock := true }).fault 0x001 0x19 0 else d

/-- R567: in Struck, rail `rail` must stay in range: VDD_AON, VDDIO_FB, VDDIO_HOST, and for a wake detector that is enabled
VDD_PHY33 and VDDH_SDS. -/
def Dev.railKept (d : Dev) (rail : Nat) : Bool :=
  let src := d.rd 0x000 Reg.PCH_WAKE_EN.SRC
  match rail with
  | 2 => true | 10 => true | 11 => true
  | 6 => bitAt src 2 || bitAt src 3
  | 4 => bitAt src 5
  | _ => false

/-- R568: the monitor of rail `rail` is armed. The rails are numbered in the order of the table of R565, from 0 (DESIGN CHOICE,
notes/assumptions/51.md). -/
def Dev.railWatched (d : Dev) (rail : Nat) : Bool :=
  decide (rail < 12) && !d.pwr.dead && d.pwr.boot != .waitRails && d.pwr.boot != .waitPll &&
  !((rail == 8 || rail == 9) && !d.on 0x040 Reg.BUF_XM_CFG.EN) && (d.pwr.power != .struck || d.railKept rail)

/-- SUPPLY_FAULT (R540): rail `rail` leaves its operating range for 1 µs or longer. The condition holds until the rails are in
range again (R551, R502). In Struck the log and the pages are off (R495, R506): the condition alone stays (DEDUCED,
notes/assumptions/51.md). -/
def execSupplyFault (rail : BitVec 32) : State → Host.Outcome State Fault Refusal := onAon fun d =>
  if !d.railWatched rail.toNat then d
  else
    let d := d.setHlt { d.hlt with badSupply := true }
    if d.pwr.power == .struck then d else d.fault 0x001 0x1A 0 rail.toNat

/-- R35: the port code of the block of page `p`, of those whose control structures carry parity. -/
def pageUnit (p : PageId) : Nat :=
  if between 0x028 0x02F p then 0x7D else if between 0x030 0x03F p then 0x7C else if between 0x040 0x047 p then 0x7B else 0

/-- PARITY (R540): a control structure of the block of page `pg` holds a parity error. -/
def execParity (pg : Fin 256) : State → Host.Outcome State Fault Refusal := onDevL fun d =>
  if blockPages.contains pg.val then d.fault pg.val 0x1B (pageUnit pg.val) else d

/-! ### Thermal monitoring (R553, R554) -/

/-- R554: a threshold in units of 0.25 °C, `lower` degrees below the field's. -/
def Dev.threshold (d : Dev) (f : Fld) (lower : Nat) : Int := 4 * ((d.rd 0x001 f : Int) - lower)

/-- R553: a sample of the die temperature. -/
def Dev.sampled (d : Dev) (tj : BitVec 11) : Dev :=
  let t := signed 11 tj.toNat
  let most := max t (signed 11 (d.rd 0x001 Reg.PCH_TEMP.TJ_MAX))
  let d := (d.wr 0x001 Reg.PCH_TEMP.TJ tj.toNat).wr 0x001 Reg.PCH_TEMP.TJ_MAX (unsigned 11 most)
  d.setHlt { d.hlt with tj := tj }

/-- R554: the warning threshold. -/
def Dev.tempWarn (d : Dev) (tj : BitVec 11) : Dev :=
  let t := signed 11 tj.toNat
  if decide (d.threshold Reg.PCH_TEMP_CFG.WARN 0 ≤ t) && !d.hlt.warned then
    (((d.setHlt { d.hlt with warned := true }).bump 0x001 Reg.PCH.TEMP_WARNS).fault 0x001 0x17 0 tj.toNat).raise 0x000 22
  else if t < d.threshold Reg.PCH_TEMP_CFG.WARN (d.rd 0x001 Reg.PCH_TEMP_CFG.HYST) then d.setHlt { d.hlt with warned := false }
  else d

/-- R554: the critical threshold: the second sample in a row at it makes a record. -/
def Dev.tempCrit (d : Dev) (tj : BitVec 11) : Dev :=
  if d.threshold Reg.PCH_TEMP_CFG.CRIT 0 ≤ signed 11 tj.toNat then
    let d := d.setHlt { d.hlt with critRun := d.hlt.critRun + 1 }
    if d.hlt.critRun = 2 then d.fault 0x001 0x18 0 tj.toNat else d
  else d.setHlt { d.hlt with critRun := 0 }

/-- TEMP_SAMPLE (R553, R554). -/
def execTempSample (tj : BitVec 11) : State → Host.Outcome State Fault Refusal := onDevL fun d =>
  if d.asleep then d else ((d.sampled tj).tempWarn tj).tempCrit tj

/-! ### The Masthead controller (R540) -/

/-- MH_RESTART (R540): the watchdog of the Masthead controller restarts it; a third restart within 600 s halts it. -/
def execMhRestart : State → Host.Outcome State Fault Refusal := onDevL fun d =>
  if !d.hlt.running then d
  else
    let recent := (d.hlt.restarts.filter fun t => decide (d.now < t + 600000 * Config.perMs)) ++ [d.now]
    let d := (d.setHlt { d.hlt with running := false, restarts := recent }).bump 0x001 Reg.PCH.MH_RESTARTS
    let d := d.fault 0x008 0x11 0
    if 3 ≤ recent.length then (d.setHlt { d.hlt with halted := true }).fault 0x008 0x12 0 else d

/-! ### The SRAM patrol scrub (R555) -/

/-- PATROL_SCRUB (R555): the scrub takes its token for the next chunk; a refused take is tried again after 1 ms. -/
def execPatrolScrub : State → Host.Outcome State Fault Refusal := onDevL fun d =>
  if !d.on 0x001 Reg.PCH_SCRUB.EN || d.holds 0x001 1 then d
  else
    let r := (d.reach d.hlt.scrubAt).maintTake 0x001 1 0
    if r.1 then r.2
    else (r.2.setHlt { r.2.hlt with scrubAt := r.2.now + Config.perMs }).bump 0x001 Reg.PCH.SCRUB_REFUSED

/-- R540, R555: the bank, the image address and DETAIL of the word that operand `x` of SCRUB_CHUNK_DONE names: bits 31:28 at 1
a word of talker state (bits 17:4 the talker, 3:0 the word), at 2 the live word of a slot, at 0 a dword by its BAR0 address,
with GWY_WIN.SEG in bits 27:24 (DESIGN CHOICE, notes/assumptions/27.md). -/
def Dev.scrubbed (d : Dev) (x : Nat) : Option (BitVec 2 × Nat) :=
  match x / 2 ^ 28 with
  | 0 => (winPlace (bitsOf (BitVec.ofNat 32 x) 24 4) (x % 2 ^ 24)).map fun w =>
    (if w.shadow then otherBank d.nrm.active else d.nrm.active, w.img / 4 * 4)
  | 1 => some (0, stateKey (x % 2 ^ 18))
  | 2 => some (0, slotKey (x % 2 ^ 16))
  | _ => none

/-- R540, R555: the scrub finds an uncorrectable word: a cell with its handle, or a word of a table, of talker state or of a
slot. No sentence fails; the word stays bad until it is rewritten. -/
def Dev.scrubFinds (d : Dev) (x : Bool × BitVec 32) : Dev :=
  if x.1 then (d.bump 0x001 Reg.PCH.SRAM_UNCORR).fault 0x040 0x02 0x7B x.2.toNat
  else match d.scrubbed x.2.toNat with
    | none => d.bump 0x001 Reg.PCH.SRAM_UNCORR
    | some w =>
      let key := if stateKey 0 ≤ w.2 then w.2 else tabKey w.1 w.2
      (d.setHlt { d.hlt with badWords := d.hlt.badWords ++ [key] }).tableFault w.1 w.2 0 0

/-- SCRUB_CHUNK_DONE (R555). Corrected words of engine memories count twice (R306). -/
def execScrubChunkDone (corrected : Corrected) (bad : List (Bool × BitVec 32)) : State → Host.Outcome State Fault Refusal :=
  onDevL fun d =>
    if !d.holds 0x001 1 then d
    else
      let d := (d.bump 0x001 Reg.PCH.SRAM_CORRECTED corrected.all).bump 0x050 Reg.ENG.ECC_CORRECTED (min corrected.engine corrected.all)
      let d := if corrected.all = 0 then d else d.fault 0x001 0x01 0
      let d := (bad.foldl (fun (d : Dev) x => d.scrubFinds x) d).maintEnd 0x001 1
      let last := d.hlt.chunk = 191
      let d := d.setHlt { d.hlt with chunk := (d.hlt.chunk + 1) % 192 }
      if last then d.bump 0x001 Reg.PCH.SCRUB_PASSES else d

end Sys2Proof.Machine
end

