-- ==== Sys2Proof/Machine/Bus.lean ====
section
/-! DEFINITION. The register bus: where an access lands (R94 to R103), reads (R67 to R71, R91, R93) and writes (R11, R77 to R90). -/

namespace Sys2Proof.Machine

open Sys2Proof

/-! ### Where an access lands -/

/-- R94 to R99: what an address names. -/
inductive Spot where
  /-- A register, or an offset that no table defines, of a present page. -/
  | reg (p : PageId) (off : Nat)
  | table (w : WinPlace)
  /-- Dword `i` of the MSI-X region of function `n`. -/
  | msix (n i : Nat)
  | remote (dev off : Nat)
  /-- An absent page, or a reserved region. -/
  | hole
  deriving DecidableEq, Repr

/-- R90, R94, R97, R99, R100: the address in the BAR0 map of the physical function that an access of a source names. A far device
reaches, beside the block pages, INST_CMD and its arguments on page 0x100 (R445), at their addresses of that map (DEDUCED,
notes/assumptions/54.md). -/
def Dev.barAddr (d : Dev) (via : Via) (addr : Nat) : Option Nat :=
  match via with
  | .mh => some addr
  | .pcie fn => if fn.val = 0 then some addr else if addr < 0x10000 then some (0x400000 + fn.val * 0x10000 + addr) else none
  | .lhp =>
    if addr < 0xF000 then some (0x400000 + d.rd 0x01F Reg.HBR_LHP_CFG.INST * 0x10000 + addr)
    else if addr < 0x10000 then some (0x1F000 + (addr - 0xF000))
    else if addr < 0x20000 then some (d.rd 0x01F Reg.HBR_LHP_WIN.BASE * 0x10000 + (addr - 0x10000)) else none
  | .stay _ => if addr < 0x100000 ∨ between 0x400200 0x40020F addr = true then some addr else none

/-- R64 to R66: a register of a block page. -/
def blockSpot (a : Nat) : Spot := if blockPagePresent (a / 0x1000) then .reg (a / 0x1000) (a % 0x1000 / 4 * 4) else .hole

/-- R402: the MSI-X region of function `n`. -/
def msixSpot (n o : Nat) : Spot := if o < 0x200 ∨ o / 4 = 0x200 then .msix n (if o < 0x200 then o / 4 else 128) else .hole

/-- R96: an offset of instance area `n`. -/
def areaSpot (n o : Nat) : Spot :=
  if o < 0x3000 then .reg (0x100 + n + 0x400 * (o / 0x1000)) (o % 0x1000 / 4 * 4)
  else if o < 0x4000 ∧ n ≠ 0 then msixSpot n (o - 0x3000) else .hole

/-- R94, R99: an address of the BAR0 map; `seg` is GWY_WIN.SEG of the source. -/
def Dev.barSpot (d : Dev) (seg a : Nat) : Spot :=
  if a < 0x100000 then blockSpot a
  else if a < 0x300000 then (match winPlace seg a with | some w => .table w | none => .hole)
  else if a < 0x301000 then msixSpot 0 (a - 0x300000)
  else if between 0x400000 0x7FFFFF a then areaSpot ((a - 0x400000) / 0x10000) (a % 0x10000)
  else if between 0x1000000 0x1FFFFFF a then
    let dev := (a - 0x1000000) / 0x100000
    if dev = d.pwr.devId then blockSpot (a % 0x100000) else .remote dev (a % 0x100000 / 4 * 4)
  else .hole

/-- R358: GWY_WIN.SEG of a source. -/
def Dev.segOf (d : Dev) (via : Via) : Nat := (SMap.get (fun _ => (0 : BitVec 4)) d.gwy.segs (viaCode via)).toNat

/-- What an access names. -/
def Dev.spotOf (d : Dev) (via : Via) (addr : Nat) : Spot :=
  match d.barAddr via addr with
  | some a => d.barSpot (d.segOf via) a
  | none => .hole

/-- R90: an LHP address of the high half of a register. -/
def accHigh (a : Access) : Bool := a.via == .lhp && decide (a.addr % 4 ≥ 2)

/-- R66: an access to an absent page or a reserved region. -/
def Dev.unmapped (d : Dev) : Dev := d.raise 0x010 3

/-- R66: a register table of page `p` defines offset `off`. -/
def offDefined (p : PageId) (off : Nat) : Bool := regHas p off fun _ => true

/-- The side-effect zone (R67). -/
def inSideZone (off : Nat) : Bool := Nat.ble 0xC00 off

/-! ### Pop and push windows -/

/-- R390: pop the ring. -/
def Dev.ringPop (d : Dev) : BitVec 32 × Dev :=
  let t := d.tbu
  match t.ring with
  | [] => (t.ringSeq ++ (0 : Word), d)
  | r :: rs =>
    let w := listGet 0 r.words t.ringPopped
    let x := t.ringSeq ++ w
    let done := decide (r.words.length ≤ t.ringPopped + 1)
    let last := (x :: t.ringLast).take 4
    let ring := if done then rs else t.ring
    let popped := if done then 0 else t.ringPopped + 1
    (x, { d with tbu := { t with ring := ring, ringPopped := popped, ringSeq := t.ringSeq + 1, ringLast := last } })

/-- R69: what the next pop of the ring returns. -/
def Dev.ringPeek (d : Dev) : BitVec 32 := d.ringPop.1

/-- R419: pop the receive window, or the completion window, that is queue `q` of instance `n`. -/
def Dev.rxPop (d : Dev) (n q : Nat) : BitVec 32 × Dev :=
  let h := d.hq n q
  (h.win.pop.1, d.setHq n q { h with win := h.win.pop.2 })
def Dev.txcPop (d : Dev) (n t : Nat) : BitVec 32 × Dev :=
  let h := d.hq n (16 + t)
  (h.compl.pop.1, (d.setHq n (16 + t) { h with compl := h.compl.pop.2 }).retryHeld)

/-- R379: pop the TSQ. -/
def Dev.tsqPop (d : Dev) : BitVec 32 × Dev := (d.tbu.tsq.pop.1, { d with tbu := { d.tbu with tsq := d.tbu.tsq.pop.2 } })

/-- R379, R390, R441: the pop windows: what a pop at `off` of page `p` returns, and the state after it. -/
def Dev.popAt (d : Dev) (p : PageId) (off : Nat) : Option (BitVec 32 × Dev) :=
  if p = 0x020 ∧ off = 0xC00 then some d.tsqPop
  else if p = 0x020 ∧ off = 0xC04 then some d.ringPop
  else if between 0x500 0x53F p && between 0xC00 0xC3F off then some (d.rxPop (p - 0x500) ((off - 0xC00) / 4))
  else if between 0x500 0x53F p && between 0xC80 0xC9F off then some (d.txcPop (p - 0x500) ((off - 0xC80) / 4))
  else none

/-- R69, R428, R528: the free words of a push window. -/
def Dev.pushRoom (d : Dev) (p : PageId) (off : Nat) : Nat :=
  if p = 0x008 then 1024 - d.updWords
  else if p = 0x01F then d.txFree (d.rd 0x01F Reg.HBR_LHP_CFG.INST) ((off - 0xC00) / 16)
  else d.txFree (p - 0x500) ((off - 0xC40) / 4)

/-! ### Reads -/

/-- What the reads of a register make a dword of. -/
def Dev.dwordAt (d : Dev) (via : Via) (p : PageId) (off : Nat) : BitVec 32 :=
  BitVec.ofNat 32 ((d.readAt p off (viaCode via)).getD 0)

/-- R93: the lower offset of the 64-bit counter that `off` lies in. -/
def wideAt (p : PageId) (off : Nat) : Option Nat :=
  if p = 0x030 ∧ (between 0x100 0x19F off || between 0x200 0x29F off) then some (off / 8 * 8)
  else if between 0x100 0x13F p && between 0xC28 0xC3F off then some (off / 8 * 8)
  else none

/-- Store a dword in the fields at an offset, whatever their access code. -/
def Dev.putDword (d : Dev) (p : PageId) (off v : Nat) : Dev :=
  (fieldsOf p).foldl (fun (d : Dev) f => match f.elemAt off with | some i => d.wr p f (v / 2 ^ f.lo) i | none => d) d

/-- R11, R70: the read of an RC register returns it, keeps it in its LASTREAD shadow, and clears it. -/
def Dev.clearRead (d : Dev) (via : Via) (p : PageId) (off : Nat) : BitVec 32 × Dev :=
  let v := d.dwordAt via p off
  (v, (d.putDword p (off - 0x400) v.toNat).putDword p off 0)

/-- R93: a source's snapshot. -/
def Dev.snapFor (d : Dev) (via : Via) : Snap64 := SMap.get (fun _ => Snap64.reset) d.hbr.snap64 (viaReader via)

/-- R93, R70: the read of a 64-bit counter at `off`, whose lower offset is `lo`. -/
def Dev.wideRead (d : Dev) (via : Via) (p : PageId) (lo off : Nat) : BitVec 32 × Dev :=
  if off = lo then
    let v : BitVec 64 := d.dwordAt via p (lo + 4) ++ d.dwordAt via p lo
    let snaps := SMap.put (fun _ => Snap64.reset) d.hbr.snap64 (viaReader via) ⟨p * 4096 + lo, v⟩
    let e := { d with hbr := { d.hbr with snap64 := snaps } }
    (v.setWidth 32, if inSideZone lo then ((e.clearRead via p lo).2.clearRead via p (lo + 4)).2 else e)
  else ((d.snapFor via).val.extractLsb' 32 32, d)

/-- R69: the register at `off` of the side-effect zone, as its mirror returns it. -/
def Dev.mirrorOf (d : Dev) (via : Via) (p : PageId) (off : Nat) : BitVec 32 :=
  match d.popAt p off with
  | some r => r.1
  | none =>
    if regHas p off fun f => f.acc == .wp then BitVec.ofNat 32 (d.pushRoom p off)
    else if p = 0x100 ∧ off = 0xC80 then d.imgRead.1 else d.dwordAt via p off

/-- R66 to R70, R93: a read of a register, with its side effect. -/
def Dev.regRead (d : Dev) (via : Via) (p : PageId) (off : Nat) : BitVec 32 × Dev :=
  if inMirrors off then
    (if offDefined p (off + 0x800) then (d.mirrorOf via p (off + 0x800), d) else (0, d.raise p 3))
  else if !offDefined p off then (0, d.raise p 3)
  else match d.popAt p off, wideAt p off with
    | some r, _ => r
    | none, some lo => d.wideRead via p lo off
    | none, none =>
      if p = 0x100 ∧ off = 0xC80 then d.imgRead
      else if regHas p off fun f => f.acc == .rc then d.clearRead via p off
      else (d.dwordAt via p off, d)

/-- R402: dword `i` of the MSI-X region of function `n`. -/
def Dev.msixRead (d : Dev) (n i : Nat) : BitVec 32 := d.msixWord (n * 256 + i)

/-- A read of a place of this device with all byte enables, with its side effect. -/
def Dev.spotRead (d : Dev) (via : Via) (s : Spot) : BitVec 32 × Dev :=
  match s with
  | .reg p off => d.regRead via p off
  | .table w => (d.winRead w, d)
  | .msix n i => (d.msixRead n i, d)
  | .remote _ _ => (0, d)
  | .hole => (0, d.unmapped)

/-- R91, R93: a read of a high half, without side effect; that of a 64-bit counter is a part of the source's snapshot. -/
def Dev.spotPeek (d : Dev) (via : Via) (s : Spot) : BitVec 32 × Dev :=
  match s with
  | .reg p off =>
    match wideAt p off with
    | some lo => ((if off = lo then (d.snapFor via).val.setWidth 32 else (d.snapFor via).val.extractLsb' 32 32), d)
    | none =>
      if inSideZone off then (if offDefined p off then (d.mirrorOf via p off, d) else (0, d.raise p 3))
      else d.regRead via p off
  | s => d.spotRead via s

/-- R71: a read of the side-effect zone that is not of one whole dword: its page, and whether its offset is defined. -/
def brokenRead (via : Via) (whole : Bool) (s : Spot) : Option (PageId × Bool) :=
  match s with
  | .reg p off => if via != .lhp && inSideZone off && !whole then some (p, offDefined p off) else none
  | _ => none

/-- R66, R71: a read of a dword; `whole` says that the request is of this one dword with all its byte enables. -/
def Dev.readWith (d : Dev) (via : Via) (whole : Bool) (s : Spot) : BitVec 32 × Dev :=
  match brokenRead via whole s with
  | some (p, defined) => (0xFFFFFFFF, if defined then d.raise p 4 else (d.raise p 3).raise p 4)
  | none => d.spotRead via s

/-- R8, R90: the register holds a word in bits 17:0. -/
def holdsWord (s : Spot) : Bool :=
  match s with
  | .reg p off => regWord p off
  | .table w => between 0x209000 0x20AFFF w.img
  | _ => false

/-- R90, R91: LD[17:16] of a low-half read. -/
def tagOut (s : Spot) (v : BitVec 32) : Tag := if holdsWord s then v.extractLsb' 16 2 else 0

/-- The BAR0 address of the register that an LHP access names, by which the latch of R91 knows it. -/
def Dev.lhpReg (d : Dev) (addr : Nat) : Nat := ((d.barAddr .lhp addr).getD 0) / 4 * 4

/-- R430: a remote access of the LHP holds its cycle. -/
def Dev.remoteIssue (d : Dev) (via : Via) (dev off : Nat) (be : BitVec 4) (op : ReqOp) (high : Bool) : Dev :=
  (if via == .lhp then d.lhpHold else d).reqNew via dev off be op high

/-- R69, R91: the offset of a remote register that a high-half read reads. -/
def peekOff (off : Nat) : Nat := if inSideZone (off % 0x1000) then off - 0x800 else off

/-- R91: a high-half read over the LHP, with what the latch held. -/
def Dev.highRead (d : Dev) (addr : Nat) (latch : Option (Nat × BitVec 32)) : Dev :=
  let s := d.spotOf .lhp addr
  let hit := match latch with | some x => if x.1 = d.lhpReg addr then some x.2 else none | none => none
  match hit, s with
  | some v, _ => d.readBack .lhp (d.lhpReg addr) 0 v true
  | none, .remote dev off => d.remoteIssue .lhp dev (peekOff off) 0xF .read true
  | none, s => (d.spotPeek .lhp s).2.readBack .lhp (d.lhpReg addr) 0 (d.spotPeek .lhp s).1 true

/-- R71, R99, R480: the byte enables that a read of a dword travels with. A dword of a longer request to the far side-effect zone
travels with none, so that the far device refuses it (DEDUCED, notes/assumptions/54.md). -/
def readBe (via : Via) (off : Nat) (be : BitVec 4) (alone : Bool) : BitVec 4 :=
  if via == .lhp then 0xF else if inSideZone (off % 0x1000) && !alone then 0 else be

/-- R316: a PCIe read of ENG_TS_DATA (page 0x050, offset 0x054) comes behind a waiting PCIe write of the word. -/
def Dev.tsHolds (d : Dev) (via : Via) (s : Spot) : Bool :=
  s == .reg 0x050 0x054 && viaCode via == 1 && d.eng.tsWait.any fun x => x.1 == d.tsKey && x.2.2 == 1

/-- R71, R88 to R91, R316: a read of the dword at `addr`; `alone` says that the request asks for no other. -/
def Dev.readDword (d : Dev) (via : Via) (addr : Nat) (be : BitVec 4) (alone : Bool) : Dev :=
  match d.spotOf via addr with
  | .remote dev off => d.remoteIssue via dev off (readBe via off be alone) .read false
  | s =>
    if d.tsHolds via s then { d with eng := { d.eng with tsReads := d.eng.tsReads ++ [(via, d.tsKey)] } } else
    let r := d.readWith via (alone && be == 0xF) s
    r.2.readBack via (d.lhpReg addr) (tagOut s r.1) r.1

/-- R71, R89: the further dwords of a PCIe read request, at ascending addresses. -/
def Dev.readMore (d : Dev) (via : Via) (addr : Nat) : Nat → Dev
  | 0 => d
  | n + 1 => (d.readDword via (addr + 4) 0xF false).readMore via (addr + 4) n

/-- R88 to R91: a read. -/
def Dev.readNow (d : Dev) (a : Access) : Dev :=
  let latch := d.hbr.latch
  let d := d.entered a.via
  if accHigh a then d.highRead a.addr latch
  else (d.readDword a.via a.addr a.be (a.more == 0)).readMore a.via a.addr a.more

/-! ### Writes to headers (R75 to R85) -/

/-- R78: events are latched as if their sources had raised them. -/
def Dev.inject (d : Dev) (p : PageId) (v : Nat) : Dev := d.unlocked p fun d => d.latch p (Nat.land v (eventBits p))

/-- R78: a W1C write of PG_EVT. -/
def Dev.evtClear (d : Dev) (p : PageId) (v : Nat) : Dev :=
  d.watching p fun d => d.wr p Reg.PG_EVT.EVT (newBits v (d.rd p Reg.PG_EVT.EVT))

/-- R6, R77, R78: writes of the enable mask; a reserved event bit has none. -/
def Dev.evtEnable (d : Dev) (p : PageId) (v : Nat) : Dev :=
  d.unlocked p fun d => d.watching p fun d =>
    d.wr p Reg.PG_EVT_EN_SET.EN (Nat.lor (d.rd p Reg.PG_EVT_EN_SET.EN) (Nat.land v (eventBits p)))
def Dev.evtDisable (d : Dev) (p : PageId) (v : Nat) : Dev :=
  d.unlocked p fun d => d.watching p fun d => d.wr p Reg.PG_EVT_EN_SET.EN (newBits v (d.rd p Reg.PG_EVT_EN_SET.EN))

/-- R81 to R83: TAKE. -/
def Dev.takeToken (d : Dev) (p : PageId) (src : Nat) : Dev := (d.maintTake p (d.rd p Reg.PG_MAINT.ACT) src).2

/-- R81, R84: DROP. -/
def Dev.dropToken (d : Dev) (p : PageId) (src : Nat) : Dev :=
  match (d.maintOf p).held with
  | some h => if h.2 = src then d.setMaint p { d.maintOf p with held := none } else d
  | none => d

/-- R81: a write of PG_MAINT, after ACT is stored. DESIGN CHOICE: a write with TAKE and DROP both 1 takes first and then drops
(notes/assumptions/51.md). -/
def Dev.maintWrite (d : Dev) (p : PageId) (v src : Nat) : Dev :=
  let d := if bitAt v 8 then d.takeToken p src else d
  if bitAt v 9 then d.dropToken p src else d

/-- A write of a header register; `v` holds the bits of the enabled bytes alone. R86: the lock discards any write of PG_CTRL,
PG_EVT_RAW, PG_EVT_EN_SET or PG_EVT_EN_CLR, whatever fields it holds. -/
def Dev.headerWrite (d : Dev) (via : Via) (p : PageId) (off v mask : Nat) : Dev :=
  if mask = 0 then d else
  match off with
  | 0x008 => d.unlocked p fun d => d.rwLocked via p off v mask
  | 0x010 => d.inject p v
  | 0x014 => d.evtClear p v
  | 0x018 => d.evtEnable p v
  | 0x01C => d.evtDisable p v
  | 0x024 => (d.rwLocked via p off v mask).maintWrite p v (viaCode via)
  | 0x028 => d.lockWrite p v mask
  | _ => d

/-! ### What writes of other fields do (R11) -/

/-- R11: a W1C write of the stored fields at an offset. -/
def Dev.clearOnes (d : Dev) (p : PageId) (off v : Nat) : Dev :=
  (fieldsOf p).foldl (fun (d : Dev) f =>
    match f.elemAt off with
    | some i =>
      if f.acc == .w1c && f.home == .stored then d.wr p f (newBits (v / 2 ^ f.lo % 2 ^ f.wid) (d.rd p f i)) i else d
    | none => d) d

/-- R504, R510: a write of PCH_RESET. The manager's write to a worker resets it 1 µs after the completion. -/
def Dev.resetWrite (d : Dev) (via : Via) (v : Nat) : Dev :=
  let far := match via with | .stay dev => dev.val == 0 && !d.pwr.manager | _ => false
  if far then
    (if v / 256 % 256 = 0x5A ∧ bitAt v 0 = true then d.setPwr { d.pwr with stayAt := some (d.now + Config.perUs) } else d)
  else d.softReset (v / 256 % 256) (bitAt v 0)

/-- PCH pages. -/
def Dev.pchActs (d : Dev) (via : Via) (p : PageId) (off v : Nat) : Dev :=
  if p = 0x000 ∧ off = 0x044 then (if bitAt v 4 then d.powerGo (d.rd 0x000 Reg.PCH_PWR_CTRL.TARGET) else d)
  else if p = 0x000 ∧ off = 0x058 then d.resetWrite via v
  else if p = 0x000 ∧ off = 0x05C then (if bitAt v 16 then d.kick else d)
  else if p = 0x001 ∧ off = 0x054 then (if bitAt v 16 then d.faultAck (v % 512) (bitAt v 15) else d)
  else if p = 0x001 ∧ off = 0x05C then d.hostSafe (v / 256 % 256) (bitAt v 0)
  else d.clearOnes p off v

/-- The MST page. -/
def Dev.mstActs (d : Dev) (via : Via) (off v mask : Nat) : Dev :=
  if off = 0x048 then
    (if bitAt v 4 then d.updGo via (d.rd 0x008 Reg.MST_UPD_CMD.OP) (d.rd 0x008 Reg.MST_UPD_CMD.TARGET) else d)
  else if off = 0x058 then (if Nat.land mask 255 = 0 then d else d.downgrade (v / 256 % 256) (bitAt v 0))
  else if off = 0x060 then
    let d := if bitAt v 0 then d.setCommit (viaCode via) else d
    if bitAt v 1 then d.eraseOld (v / 256 % 256) else d
  else d.clearOnes 0x008 off v

/-- TBU, NRM, SWC, BUF and ENG pages. -/
def Dev.coreActs (d : Dev) (via : Via) (p : PageId) (off v : Nat) : Dev :=
  let src := viaCode via
  if p = 0x020 ∧ off = 0x040 then (if bitAt v 0 then d.snap src else d)
  else if p = 0x021 ∧ off % 64 = 0x10 ∧ between 0x050 0x110 off = true then
    (if bitAt v 0 then d.domStep ((off - 0x050) / 64) src else d)
  else if p = 0x028 ∧ off = 0x040 then (if bitAt v 0 then (d.commit src).2 else d)
  else if p = 0x028 ∧ off = 0x054 then (if bitAt v 0 then d.sfUnblock else d)
  else if p = 0x028 ∧ off = 0x05C then (if bitAt v 0 then d.redClear else d)
  else if between 0x038 0x03F p then
    (if (off = 0x040 ∨ off = 0x240) ∧ bitAt v 2 = true then d.gclChange (2 * (p - 0x038) + (off - 0x040) / 512) else d)
  else if p = 0x040 ∧ off = 0x058 then (if bitAt v 0 then d.xmStart src else d)
  else if p = 0x050 ∧ off = 0x044 then
    let d := if bitAt v 8 then d.engReturn else d
    if bitAt v 9 then d.engRetire else d
  else d

/-- Pages of ports, channels, links and instances. -/
def Dev.portActs (d : Dev) (via : Via) (p : PageId) (off v mask : Nat) : Dev :=
  let src := viaCode via
  if between 0x061 0x064 p then (if off = 0x04C ∧ bitAt v 0 = true then d.laneRetrain (p - 0x061) src else d)
  else if p = 0x060 ∧ off = 0x04C then
    (if bitAt v 31 then (d.wr 0x060 Reg.STY_REM_ERR.ALL 0).wr 0x060 Reg.STY_REM_ERR.VALID 0 else d)
  else if between 0x074 0x07B p && off == 0x088 then
    let d := if bitAt v 1 then d.sleepReq (p - 0x070) else d
    let d := if bitAt v 2 then d.wakeReq (p - 0x070) else d
    if bitAt v 8 then d.diagStart (p - 0x070) src else d
  else if between 0x090 0x0AF p then (if off = 0x058 ∧ bitAt v 20 = true then d.canRecover (p - 0x090) else d)
  else if between 0x0B0 0x0BF p then
    (if off = 0x048 ∧ bitAt v 16 = true then d.linSwitch (p - 0x0B0) (d.rd p Reg.LIN_SCHED.START) (d.rd p Reg.LIN_SCHED.END) else d)
  else if between 0x500 0x53F p then (if off = 0x040 then d.windowFlush (p - 0x500) v else d)
  else if between 0x900 0x93F p then
    (if Nat.land mask 0xFFFF = 0 then d
     else
       let n := p - 0x900
       let idx := BitVec.ofNat 16 v
       if between 0x800 0x87F off then
         (if off % 8 = 0 then d.dbTail n ((off - 0x800) / 8) idx else d.dbHead n ((off - 0x800) / 8) idx)
       else if between 0x880 0x8BF off then
         (if off % 8 = 0 then d.dbTail n (16 + (off - 0x880) / 8) idx else d.dbHead n (16 + (off - 0x880) / 8) idx)
       else d)
  else d.clearOnes p off v

/-- R11: what a write does beside storing RW fields. -/
def Dev.regActs (d : Dev) (via : Via) (p : PageId) (off v mask : Nat) : Dev :=
  if p ≤ 0x002 then d.pchActs via p off v
  else if p = 0x008 then d.mstActs via off v mask
  else if p = 0x01F then d.clearOnes p off v
  else if between 0x020 0x058 p then d.coreActs via p off v
  else d.portActs via p off v mask

/-- R86: a write of the bits of `mask` at this offset is one that the lock of the page discards. -/
def Dev.lockDiscards (d : Dev) (p : PageId) (off mask : Nat) : Bool :=
  d.locked p && lockCovers off && (regHas p off fun f => (f.acc == .rw || f.acc == .rws) && f.inMask mask) &&
  !(p == 0x028 && off == 0x040)

/-- R86, R470: a write of the bits of `mask` at this offset is discarded under PG_LOCK, header registers among them. -/
def Dev.writeLocked (d : Dev) (p : PageId) (off mask : Nat) : Bool :=
  d.lockDiscards p off mask ||
    (d.locked p && (off == 0x008 || off == 0x010 || off == 0x018 || off == 0x01C) && decide (mask ≠ 0))

/-- The RW and other fields of a register below the side-effect zone. INST_CMD has a rule of its own (R445). -/
def Dev.bodyWrite (d : Dev) (via : Via) (p : PageId) (off v mask : Nat) : Dev :=
  if p = 0x100 ∧ off = 0x200 ∧ (bitAt v 0 || d.on 0x100 Reg.INST_CMD.GO) = true then
    (if bitAt v 0 then
      d.instWrite via (Reg.INST_CMD.OP.merged (d.rd p Reg.INST_CMD.OP) v mask)
        (Reg.INST_CMD.TARGET.merged (d.rd p Reg.INST_CMD.TARGET) v mask)
     else d.unlocked p fun d => d.raise p 22)
  else
    let acts := !(d.lockDiscards p off mask) || regHas p off fun f => f.acc == .w1c || f.acc == .wo
    let v' := if d.lockDiscards p off mask then 0 else v
    let e := if d.lockDiscards p off mask then d.raise p 0 else d.rwLocked via p off v mask
    if (regHas p off (fun f => f.acc == .rws) || p == 0x008 && off == 0x058) && d.lockDiscards p off mask then e
    else if acts then e.regActs via p off (if regHas p off fun f => f.acc == .rws then v' else v) mask else e

/-! ### Pushes -/

/-- R90, R421, R528, R103: a push of the low half or of a dword; `tag` as it came with the data. -/
def Dev.pushAt (d : Dev) (via : Via) (p : PageId) (off v : Nat) (tag : Tag) : Dev :=
  let lhp := via == .lhp
  let bytes := fun (n : Nat) => (List.range n).map fun i => BitVec.ofNat 8 (v / 256 ^ i)
  if p = 0x008 ∧ off = 0xC00 then
    (if lhp then
      d.drawn.updPush via (bytes 2 ++ [d.freeBits.extractLsb' 0 8, d.freeBits.extractLsb' 8 8])
     else d.updPush via (bytes 4))
  else if p = 0x008 then d.updPush via (bytes 2)
  else if p = 0x01F then
    d.push (d.rd 0x01F Reg.HBR_LHP_CFG.INST) ((off - 0xC00) / 16 % 8)
      (Word.mk (BitVec.ofNat 2 (off / 4)) (BitVec.ofNat 16 v)) lhp
  else d.push (p - 0x500) ((off - 0xC40) / 4) (Word.mk tag (BitVec.ofNat 16 v)) lhp

/-! ### Writes -/

/-- R444: the instance of a Sentence Window or doorbell page does not exist. -/
def Dev.noInst (d : Dev) (p : PageId) (off : Nat) : Bool :=
  (between 0x500 0x53F p || between 0x900 0x93F p) && Nat.ble 0x040 off && !d.on (instPage ((p - 0x100) % 0x400)) Reg.INST_STAT.EXISTS

/-- R66, R67, R71, R88, R444: a write of a register. -/
def Dev.regWrite (d : Dev) (via : Via) (p : PageId) (off : Nat) (be : BitVec 4) (data : BitVec 32) (tag : Tag) : Dev :=
  let mask := byteMask be
  let v := Nat.land data.toNat mask
  let pushes := regHas p off fun f => f.acc == .wp
  if d.noInst p off then (if offDefined p (if inMirrors off then off + 0x800 else off) then d.raise p 4 else (d.raise p 3).raise p 4)
  else if inMirrors off then (if offDefined p (off + 0x800) then d else d.raise p 3)
  else if via != .lhp && inSideZone off && be != 0xF then (if offDefined p off then d.raise p 4 else (d.raise p 3).raise p 4)
  else if !offDefined p off then d.raise p 3
  else if pushes && via == .lhp && between 0x500 0x53F p && d.on 0x01F Reg.HBR_LHP_CFG.NARROW then d.raise p 4
  else if pushes then (if Nat.land mask 0xFFFF = 0 then d else d.pushAt via p off v tag)
  else if off < 0x040 then d.headerWrite via p off v mask
  else d.bodyWrite via p off v mask

/-- R402, R404: a write of the MSI-X table. The pending-bit array is not written. -/
def Dev.msixWrite (d : Dev) (n i : Nat) (be : BitVec 4) (v : BitVec 32) : Dev :=
  if 128 ≤ i then d
  else
    let mask := BitVec.ofNat 32 (byteMask be)
    (d.setMsix (n * 256 + i) ((d.msixWord (n * 256 + i) &&& ~~~mask) ||| (v &&& mask))).flushPba n

/-- A write of a place of this device. -/
def Dev.spotWrite (d : Dev) (via : Via) (s : Spot) (be : BitVec 4) (v : BitVec 32) (tag : Tag) : Dev :=
  match s with
  | .reg p off => d.regWrite via p off be v tag
  | .table w => d.tableWrite (viaReader via) w be v
  | .msix n i => d.msixWrite n i be v
  | .remote _ _ => d
  | .hole => d.unmapped

/-- R90: the byte enables and the dword of a write; an LHP write applies to its own 16 bits. -/
def accEnables (a : Access) : BitVec 4 := if a.via == .lhp then (if accHigh a then 0xC else 0x3) else a.be
def accDword (a : Access) : BitVec 32 :=
  if a.via == .lhp then (let x : BitVec 32 := a.data &&& 0xFFFF; if accHigh a then x <<< 16 else x) else a.data
def accTag (a : Access) : Tag := a.data.extractLsb' 16 2

/-- R88 to R91: a write. -/
def Dev.writeNow (d : Dev) (a : Access) : Dev :=
  let d := d.entered a.via
  match d.spotOf a.via a.addr with
  | .remote dev off => d.remoteIssue a.via dev off (accEnables a) (.write (accDword a)) false
  | s => d.spotWrite a.via s (accEnables a) (accDword a) (accTag a)

/-! ### Header registers as commands -/

/-- A command on a page that is present, else on none (R66). -/
def Dev.onPage (d : Dev) (pg : PageRef) (f : Dev → Dev) : Dev := if pagePresent (PageRef.id pg) then f d else d.unmapped

/-- EVENT_INJECT (R78). -/
def execEventInject (via : Via) (pg : PageRef) (data : BitVec 32) : State → Host.Outcome State Fault Refusal :=
  onBus (.eventInject pg data) via (PageRef.id pg) fun d =>
  d.onPage pg fun d => d.inject (PageRef.id pg) data.toNat

/-- PG_EVT_CLEAR (R78). -/
def execPgEvtClear (via : Via) (pg : PageRef) (data : BitVec 32) : State → Host.Outcome State Fault Refusal :=
  onBus (.pgEvtClear pg data) via (PageRef.id pg) fun d =>
  d.onPage pg fun d => d.evtClear (PageRef.id pg) data.toNat

/-- TAKE (R83): a write of PG_MAINT with ACT and TAKE. -/
def execTake (via : Via) (pg : PageRef) (act : BitVec 5) : State → Host.Outcome State Fault Refusal :=
  onBus (.take pg act) via (PageRef.id pg) fun d =>
  d.onPage pg fun d => (d.wr (PageRef.id pg) Reg.PG_MAINT.ACT act.toNat).takeToken (PageRef.id pg) (viaCode via)

/-- DROP (R84). -/
def execDrop (via : Via) (pg : PageRef) : State → Host.Outcome State Fault Refusal :=
  onBus (.drop pg) via (PageRef.id pg) fun d =>
  d.onPage pg fun d => d.dropToken (PageRef.id pg) (viaCode via)

/-- PG_LOCK_WRITE (R85). -/
def execPgLockWrite (via : Via) (pg : PageRef) (data : BitVec 32) : State → Host.Outcome State Fault Refusal :=
  onBus (.pgLockWrite pg data) via (PageRef.id pg) fun d =>
  d.onPage pg fun d => d.lockWrite (PageRef.id pg) data.toNat (2 ^ 32 - 1)

end Sys2Proof.Machine
end

