-- ==== Sys2Proof/Machine/Remote.lean ====
section
/-! DEFINITION. Accesses between devices (R98, R99, R478 to R484): AtomicOps, requests of far devices, completions, and the
order in which what waits for the register bus has it. -/

namespace Sys2Proof.Machine

open Sys2Proof

/-! ### AtomicOps (R480, R482) -/

/-- R482: what an AtomicOp of `n` bits writes over `old`; a CAS that does not match writes nothing. -/
def atomNew (op : AtomOp) (n : Nat) (old : Nat) : Option Nat :=
  match op with
  | .fetchAdd v => some ((old + v.toNat) % 2 ^ n)
  | .swap v => some (v.toNat % 2 ^ n)
  | .cas cmp new => if old = cmp.toNat % 2 ^ n then some (new.toNat % 2 ^ n) else none

/-- R480: an AtomicOp may act on the dword at `off`: every field there is RW. -/
def atomDword (p : PageId) (off : Nat) : Bool :=
  (between 0x040 0x3FF off || between 0x800 0xBFF off) && regHas p off (fun f => f.acc == .rw) &&
    !(regHas p off fun f => f.acc != .rw)

/-- R480: the dwords of an AtomicOp. -/
def atomOffs (off : Nat) (wide : Bool) : List Nat := if wide then [off, off + 4] else [off]

/-- R480, R482: apply an AtomicOp: the STATUS of R470, the original value, and the state after it. -/
def Dev.atomApply (d : Dev) (via : Via) (s : Spot) (op : AtomOp) (wide : Bool) : RemStatus × Nat × Dev :=
  match s with
  | .reg p off =>
    let offs := atomOffs off wide
    if !offs.all fun o => atomDword p o then (.unsupported, 0, d)
    else
      let old := sumOf (fun (o : Nat) => (d.dwordAt via p o).toNat * 2 ^ (8 * (o - off))) offs
      match atomNew op (32 * offs.length) old with
      | none => (.ok, old, d)
      | some v =>
        let e := offs.foldl (fun (d : Dev) o => d.regWrite via p o 0xF (BitVec.ofNat 32 (v / 2 ^ (8 * (o - off)))) 0) d
        (if d.lockDiscards p off (2 ^ 32 - 1) then .locked else .ok, old, e)
  | _ => (.unsupported, 0, d)

/-- R481, R491: what a status other than OK means for a request. -/
def statusFail : RemStatus → Option RemFail
  | .ok => none
  | .retry => some .retry
  | .locked => some .locked
  | .unsupported => some .unsupported
  | .noPath => some .noPath

/-- R470: the code of a status. -/
def statusCode : RemStatus → Nat
  | .ok => 0 | .retry => 1 | .locked => 2 | .unsupported => 3 | .noPath => 4

/-- R98, R99, R482: an AtomicOp of function `fn`. In the window of the own number it applies at once; toward another device
it holds the own register bus until its completion returns. -/
def Dev.atomNow (d : Dev) (fn : Fin 64) (addr : Nat) (op : AtomOp) (wide : Bool) : Dev :=
  let own := 0x1000000 + d.pwr.devId * 0x100000
  match if fn.val = 0 ∧ between 0x1000000 0x1FFFFFF addr = true then some (d.spotOf (.pcie fn) addr) else none with
  | none => d.emitWire (.atomicUr fn.val)
  | some (.remote dev off) =>
    { d with sty := { d.sty with busBy := some fn.val } }.reqNew (.pcie fn) dev off 0xF (.atom op wide) false
  | some s =>
    let r := d.atomApply (.pcie fn) s op wide
    let q : StayReq := ⟨0, none, .pcie fn, d.pwr.devId, addr - own, 0xF, .atom op wide, 0, d.now, none, false⟩
    match statusFail r.1 with
    | some why => r.2.2.atomEnds q why.result none
    | none => r.2.2.atomEnds q 0 (some (BitVec.ofNat 64 r.2.1))

/-! ### Requests of far devices (R480, R483) -/

/-- R470: the words of a value in a completion. -/
def replyWords (n v : Nat) : List (BitVec 16) := valueWords n (BitVec.ofNat 64 v)

/-- R480: apply a request of a far device, and answer it. -/
def Dev.farNow (d : Dev) (l : Fin 4) (r : RemReq) : Dev :=
  let via := Via.stay r.src
  let s := d.spotOf via r.off.val
  let answer := fun (e : Dev) (st : RemStatus) (ws : List (BitVec 16)) =>
    e.sendCompletion l.val r.src.val r.tag.val (statusCode st) ws
  match r.op with
  | .read => answer (d.readWith via (r.be == 0xF) s).2 .ok (replyWords 2 (d.readWith via (r.be == 0xF) s).1.toNat)
  | .write v =>
    let held := match s with | .reg p off => d.writeLocked p off (byteMask r.be) | _ => false
    answer (d.spotWrite via s r.be v 0) (if held then .locked else .ok) []
  | .atom op wide =>
    let x := d.atomApply via s op wide
    answer x.2.2 x.1 (if x.1 = .ok then replyWords (if wide then 4 else 2) x.2.1 else [])

/-- R483: a locked request from a higher DEV_ID that finds the bus held by the device's own AtomicOp. -/
def Dev.crossing (d : Dev) (l : Fin 4) (r : RemReq) : Dev :=
  ((d.bump 0x060 Reg.STY.CROSSINGS).raise 0x060 18).sendCompletion l.val r.src.val r.tag.val (statusCode .retry) []

def ReqOp.locks : ReqOp → Bool
  | .atom _ _ => true | _ => false

/-! ### The register bus (R92, R482, R483, R489) -/

/-- What a meaning makes of the block. -/
def Dev.effectOf (d : Dev) (m : State → Host.Outcome State Fault Refusal) : Dev :=
  match m ⟨d, []⟩ with | .next s => s.dev | _ => d

/-- The meaning of a command that is the write or read of one named register by source `via`. -/
def namedMeaning (via : Via) : NamedCmd → State → Host.Outcome State Fault Refusal
  | .eventInject pg data => execEventInject via pg data
  | .pgEvtClear pg data => execPgEvtClear via pg data
  | .take pg act => execTake via pg act
  | .drop pg => execDrop via pg
  | .pgLockWrite pg data => execPgLockWrite via pg data
  | .slotVloWrite data => execSlotVloWrite via data
  | .slotVhiWrite data => execSlotVhiWrite via data
  | .recover c => execRecover via c
  | .faultAck page all => execFaultAck via page all
  | .hostSafe key => execHostSafe via key
  | .snapshot => execSnapshot via
  | .domainStep n => execDomainStep via n
  | .portEnable p => execPortEnable via p
  | .portDisable p => execPortDisable via p
  | .sleepReq z => execSleepReq via z
  | .wakeReq z => execWakeReq via z
  | .diagStart z => execDiagStart via z
  | .windowFlush n data => execWindowFlush via n data
  | .queueOff n q => execQueueOff via n q
  | .queueDma n q => execQueueDma via n q
  | .queueWindow n q => execQueueWindow via n q
  | .dbTail n q idx => execDbTail via n q idx
  | .dbCqHead n q idx => execDbCqHead via n q idx
  | .sfUnblock => execSfUnblock via
  | .redLatchClear => execRedLatchClear via
  | .schedSwitch l start stop => execSchedSwitch via l start stop
  | .requestFull => execRequestFull via
  | .requestReefed => execRequestReefed via
  | .requestFurled => execRequestFurled via
  | .requestStruck => execRequestStruck via
  | .softReset key => execSoftReset via key
  | .kick => execKick via
  | .laneRetrainStart l => execLaneRetrainStart via l
  | .xmRetrainStart => execXmRetrainStart via
  | .engReturn => execEngReturn via
  | .engRetire => execEngRetire via
  | .tsWrite data => execTsWrite via data
  | .settingsCommit => execSettingsCommit via
  | .eraseOld key => execEraseOld via key
  | .openSession target => execOpenSession via target
  | .verify => execVerify via
  | .write => execWrite via
  | .close => execClose via
  | .abort => execAbort via
  | .updData data => execUpdData via data
  | .updData16 data => execUpdData16 via data
  | .downgradePermit key permit => execDowngradePermit via key permit
  | .gclChange p => execGclChange via p
  | .commit => execCommit via
  | .create target => execCreate via target
  | .destroy target => execDestroy via target
  | .setShare target => execSetShare via target
  | .reset target => execReset via target
  | .freeze target => execFreeze via target
  | .thaw target => execThaw via target
  | .save target => execSave via target
  | .restore target => execRestore via target
  | .copy target => execCopy via target
  | .imgData write data => execImgData via write data

/-- R51: the command is one to the engine array. -/
def NamedCmd.toEngines : NamedCmd → Bool
  | .engReturn | .engRetire | .tsWrite _ => true
  | .take pg _ | .drop pg | .eventInject pg _ | .pgEvtClear pg _ | .pgLockWrite pg _ => blockCode (PageRef.id pg) == 9
  | _ => false

/-- The reader that waits (R93), and the DEV_ID of an AtomicOp. -/
def BusReq.reader : BusReq → Nat
  | .own a _ => viaReader a.via
  | .named via _ => viaReader via
  | .atom fn _ _ _ => viaReader (.pcie fn)
  | .far _ r => viaReader (.stay r.src)

def Dev.lockDev (d : Dev) : BusReq → Option Nat
  | .own _ _ => none
  | .named _ _ => none
  | .atom _ _ _ _ => some d.pwr.devId
  | .far _ r => if ReqOp.locks r.op then some r.src.val else none

/-- The entries of a queue before which the same reader has none. -/
def firstsOf : List Nat → List BusReq → List BusReq
  | _, [] => []
  | seen, q :: qs => if seen.contains q.reader then firstsOf seen qs else q :: firstsOf (q.reader :: seen) qs

/-- R489: the lower requesting DEV_ID takes a free bus first; else the order of arrival holds. -/
def Dev.nextBus (d : Dev) : Option BusReq :=
  match d.sty.busQ with
  | [] => none
  | q :: qs =>
    match d.lockDev q with
    | none => some q
    | some _ =>
      let locked := (firstsOf [] (q :: qs)).filter fun x => (d.lockDev x).isSome
      locked.foldl (fun (b : Option BusReq) x =>
        match b with
        | none => some x
        | some y => if (d.lockDev x).getD 0 < (d.lockDev y).getD 0 then some x else some y) none

/-- Take a waiting access off the queue and apply it. -/
def Dev.busTurn (d : Dev) (q : BusReq) : Dev :=
  let d := { d with sty := { d.sty with busQ := d.sty.busQ.erase q } }
  match q with
  | .own a write =>
    let d := if a.via == .lhp then { d with hbr := { d.hbr with lwait := none } } else d
    if write then d.writeNow a else d.readNow a
  | .named via i =>
    let d := if via == .lhp then { d with hbr := { d.hbr with lwait := none } } else d
    d.effectOf (namedMeaning via i)
  | .atom fn addr op wide => d.atomNow fn addr op wide
  | .far l r => (d.farNow l r).pump l.val

/-- R49, R51: the access is one to a domain whose clock is stopped. -/
def Dev.stopsFor (d : Dev) (a : Access) : Bool :=
  match d.spotOf a.via a.addr with
  | .reg p _ => d.pageStopped p
  | _ => d.pwr.coreStopped

/-- R51: what waits, waits for a clock. -/
def Dev.stopsReq (d : Dev) : BusReq → Bool
  | .own a _ => d.stopsFor a
  | .named _ i => d.pwr.coreStopped || d.pwr.engineStopped && NamedCmd.toEngines i
  | _ => d.pwr.coreStopped

/-- R51, R482: while the bus is free and the clocks run, what waits for it has it in turn. -/
def Dev.drainN (d : Dev) : Nat → Dev
  | 0 => d
  | n + 1 =>
    if d.sty.busBy.isSome then d
    else match d.nextBus with
      | none => d
      | some q => if d.stopsReq q then d else (d.busTurn q).drainN n

def Dev.drainBus (d : Dev) : Dev := d.drainN d.sty.busQ.length

/-! ### Accesses (R429, R430, R482) -/

/-- R51, R482: an access that finds the register bus held, or the clock of its domain stopped, waits for it; on the LHP it holds
the cycle. -/
def Dev.access (d : Dev) (a : Access) (write : Bool) : Dev :=
  let d := d.drainBus
  if !d.reaches a.via write then d
  else if d.sty.busBy.isSome || d.stopsFor a then d.awaitBus a.via (.own a write)
  else if write then d.writeNow a else d.readNow a

/-! ### Commands -/

/-- REMOTE_ACCESS (R99, R478, R479, R488). -/
def execRemoteAccess (a : Access) (write : Bool) : State → Host.Outcome State Fault Refusal := onDevL fun d =>
  match d.spotOf a.via a.addr with
  | .remote _ _ => d.access a write
  | _ => d

/-- DOMAIN_RESTART (R49, R51): what waited for the clock goes on. -/
def execDomainRestart (dom : ClockDom) : State → Host.Outcome State Fault Refusal := onDevL fun d => (d.domRestart dom).drainBus

/-- REMOTE_REQUEST (R480, R483). -/
def execRemoteRequest (l : Fin 4) (r : RemReq) : State → Host.Outcome State Fault Refusal := onDevL fun d =>
  let d := (d.entered (.stay r.src)).drainBus
  if d.sty.busBy.isNone then d.farNow l r
  else if ReqOp.locks r.op && decide (d.pwr.devId < r.src.val) then d.crossing l r
  else d.awaitBus (.stay r.src) (.far l r)

/-- R478, R481, R484: the completion of request `q`. -/
def Dev.completed (d : Dev) (q : StayReq) (status : RemStatus) (value : BitVec 64) : Dev :=
  match statusFail status, q.op with
  | some why, _ => d.reqFails q why
  | none, .read =>
    let n : StayReq := { q with got := some value }
    { d with sty := { d.sty with reqs := d.sty.reqs.map fun (r : StayReq) => if r.num = q.num then n else r } }.readsReturn
  | none, .write _ =>
    let d := d.dropReq q
    (match q.via with | .lhp => { d with hbr := { d.hbr with lwait := none } } | _ => d).readsReturn
  | none, .atom _ _ => ((d.dropReq q).atomEnds q 0 (some value)).readsReturn

/-- R479: the outstanding request with tag `t`. -/
def Dev.reqOf (d : Dev) (t : Nat) : Option StayReq := d.sty.reqs.find? fun q => q.tag == some t && q.got.isNone

/-- REMOTE_COMPLETION (R478, R479, R481, R484). One whose tag is not in use has no effect. -/
def execRemoteCompletion (tag : Fin 64) (status : RemStatus) (value : BitVec 64) :
    State → Host.Outcome State Fault Refusal := onDevL fun d =>
  match d.reqOf tag.val with
  | none => d
  | some q => (d.completed q status value).reqsLeave.drainBus

/-- REMOTE_TIMEOUT (R481). -/
def execRemoteTimeout (tag : Fin 64) : State → Host.Outcome State Fault Refusal := onDevL fun d =>
  match d.reqOf tag.val with
  | none => d
  | some q =>
    ((d.reach (q.at_ + d.rd 0x060 Reg.STY_CFG.TMO_US * Config.perUs)).reqFails q .timeout).reqsLeave.drainBus

/-- ATOMICOP (R98, R482): a PCIe AtomicOp. -/
def execAtomicop (fn : Fin 64) (addr : Nat) (op : AtomOp) (wide : Bool) : State → Host.Outcome State Fault Refusal := onDevL fun d =>
  let d := (d.entered (.pcie fn)).drainBus
  if d.sty.busBy.isSome then d.awaitBus (.pcie fn) (.atom fn addr op wide) else d.atomNow fn addr op wide

end Sys2Proof.Machine
end

