-- ==== Sys2Proof/Machine/Access.lean ====
section
/-! DEFINITION. The commands that are one access of the register bus, or the write of one header register
(spec/03_register_pages.md). -/

namespace Sys2Proof.Machine

open Sys2Proof

/-- The access names a register with a field of which `f` holds. -/
def Dev.names (d : Dev) (a : Access) (f : Fld → Bool) : Bool :=
  match d.spotOf a.via a.addr with | .reg p off => regHas p off f | _ => false

/-- REGISTER_READ (R88). -/
def execRegisterRead (a : Access) : State → Host.Outcome State Fault Refusal := onDevL fun d => d.access a false

/-- REGISTER_WRITE (R88). -/
def execRegisterWrite (a : Access) : State → Host.Outcome State Fault Refusal := onDevL fun d => d.access a true

/-- CLEARING_READ (R11, R70): a read of an RC register. -/
def execClearingRead (a : Access) : State → Host.Outcome State Fault Refusal := onDevL fun d =>
  if d.names a fun f => f.acc == .rc then d.access a false else d

/-- COUNTER_SNAPSHOT_READ (R93): a read of the lowest part of a 64-bit counter. -/
def execCounterSnapshotRead (a : Access) : State → Host.Outcome State Fault Refusal := onDevL fun d =>
  match d.spotOf a.via a.addr with
  | .reg p off => if wideAt p off = some off ∧ accHigh a = false then d.access a false else d
  | _ => d

/-- POP (R419): a read of a pop window. -/
def execPop (a : Access) : State → Host.Outcome State Fault Refusal := onDevL fun d =>
  if d.names a fun f => f.acc == .rp then d.access a false else d

/-- PUSH (R421): a write of a push window. -/
def execPush (a : Access) : State → Host.Outcome State Fault Refusal := onDevL fun d =>
  if d.names a fun f => f.acc == .wp then d.access a true else d

/-- TAG_ALIAS_PUSH (R103): a low-half write of the tag alias window over the LHP. -/
def execTagAliasPush (q : Fin 8) (t : Tag) (data : BitVec 16) : State → Host.Outcome State Fault Refusal := onDevL fun d =>
  d.access ⟨.lhp, 0xFC00 + 16 * q.val + 4 * t.toNat, 0xF, data.setWidth 32, 0⟩ true

/-- SHADOW_WRITE (R220): a write to a shadow window. -/
def execShadowWrite (a : Access) : State → Host.Outcome State Fault Refusal := onDevL fun d =>
  match d.spotOf a.via a.addr with
  | .table w => if w.shadow then d.access a true else d
  | _ => d

/-- DUAL_WRITE (R221): a write to a dual-write window. -/
def execDualWrite (a : Access) : State → Host.Outcome State Fault Refusal := onDevL fun d =>
  match d.spotOf a.via a.addr with
  | .table w => if w.shadow then d else d.access a true
  | _ => d

end Sys2Proof.Machine
end

