-- ==== Sys2Proof/Machine/Egress.lean ====
section
/-! DEFINITION. The two commands that act on units of several kinds: the hand-on at an egress point that is no Ethernet
port (R240), and the end of a hold (R136, R172, R487). -/

namespace Sys2Proof.Machine

open Sys2Proof

/-- R240, R241: the egress point of a queue set takes its next sentence. Ethernet ports take theirs by frame starts. -/
def Dev.setTakes (d : Dev) (s : Nat) : Dev :=
  if between 0x18 0x1B s then d.stayTake (s - 0x18)
  else if between 0x20 0x3F s then d.canTake (s - 0x20)
  else if between 0x40 0x4F s then d.linTake (s - 0x40)
  else if between 0x50 0x57 s then d.uarTake (s - 0x50)
  else if between 0x58 0x5F s then d.busWrite (s - 0x58)
  else if s = 0x79 then d.gwyHandOn
  else if 0x100 ≤ s then d.rxHandOn ((s - 0x100) / 16) ((s - 0x100) % 16)
  else d

/-- EGRESS_HAND_ON (R240). -/
def execEgressHandOn (set : Fin 1280) : State → Host.Outcome State Fault Refusal := onDevL fun d => d.setTakes set.val

/-- HOLD_EXPIRY (R136, R172, R487). -/
def execHoldExpiry (u : HoldUnit) : State → Host.Outcome State Fault Refusal := onDevL fun d =>
  match u with
  | .eth p => d.ethHoldExpiry p.val
  | .can c => d.canHoldExpiry c.val
  | .link l => d.stayHoldExpiry l.val

end Sys2Proof.Machine
end

