-- ==== Sys2Proof/Machine/Dispatch.lean ====
section
/-! DEFINITION. The dispatch: one arm per command. -/

namespace Sys2Proof.Machine

open Sys2Proof

/-- The effect of a command on everything but the queue. -/
def exec (i : Instr) (s : State) : Host.Outcome State Fault Refusal :=
  match i with
  | .registerWrite a => Sys2Proof.Machine.execRegisterWrite a s
  | .clearingRead a => Sys2Proof.Machine.execClearingRead a s
  | .counterSnapshotRead a => Sys2Proof.Machine.execCounterSnapshotRead a s
  | .pop a => Sys2Proof.Machine.execPop a s
  | .push a => Sys2Proof.Machine.execPush a s
  | .tagAliasPush q t data => Sys2Proof.Machine.execTagAliasPush q t data s
  | .eventInject via pg data => Sys2Proof.Machine.execEventInject via pg data s
  | .pgEvtClear via pg data => Sys2Proof.Machine.execPgEvtClear via pg data s
  | .take via pg act => Sys2Proof.Machine.execTake via pg act s
  | .drop via pg => Sys2Proof.Machine.execDrop via pg s
  | .pgLockWrite via pg data => Sys2Proof.Machine.execPgLockWrite via pg data s
  | .clockStop dom arrival => Sys2Proof.Machine.execClockStop dom arrival s
  | .domainRestart dom => Sys2Proof.Machine.execDomainRestart dom s
  | .frameHeadReceived p age head => Sys2Proof.Machine.execFrameHeadReceived p age head s
  | .frameEndReceived p tail how => Sys2Proof.Machine.execFrameEndReceived p tail how s
  | .pauseTimerExpiry p c => Sys2Proof.Machine.execPauseTimerExpiry p c s
  | .pauseRefresh p => Sys2Proof.Machine.execPauseRefresh p s
  | .cbRecoveryReset pair k => Sys2Proof.Machine.execCbRecoveryReset pair k s
  | .egressFrameStart p => Sys2Proof.Machine.execEgressFrameStart p s
  | .frameTxEnd p => Sys2Proof.Machine.execFrameTxEnd p s
  | .preemptVerifyDone p ok => Sys2Proof.Machine.execPreemptVerifyDone p ok s
  | .verifyRetry p => Sys2Proof.Machine.execVerifyRetry p s
  | .collision p late => Sys2Proof.Machine.execCollision p late s
  | .backoffExpiry p => Sys2Proof.Machine.execBackoffExpiry p s
  | .plcaLoss p => Sys2Proof.Machine.execPlcaLoss p s
  | .plcaBeaconReturn p => Sys2Proof.Machine.execPlcaBeaconReturn p s
  | .linkGood p rxSpeed => Sys2Proof.Machine.execLinkGood p rxSpeed s
  | .linkLoss p lost => Sys2Proof.Machine.execLinkLoss p lost s
  | .linkReturn p => Sys2Proof.Machine.execLinkReturn p s
  | .holdExpiry u => Sys2Proof.Machine.execHoldExpiry u s
  | .portEnable via p => Sys2Proof.Machine.execPortEnable via p s
  | .portDisable via p => Sys2Proof.Machine.execPortDisable via p s
  | .sleepReq via z => Sys2Proof.Machine.execSleepReq via z s
  | .tc10SleepReceived z => Sys2Proof.Machine.execTc10SleepReceived z s
  | .tc10SleepAck z => Sys2Proof.Machine.execTc10SleepAck z s
  | .tc10Asleep z => Sys2Proof.Machine.execTc10Asleep z s
  | .tc10Wake z => Sys2Proof.Machine.execTc10Wake z s
  | .wakeReq via z => Sys2Proof.Machine.execWakeReq via z s
  | .diagStart via z => Sys2Proof.Machine.execDiagStart via z s
  | .diagDone z res dist => Sys2Proof.Machine.execDiagDone z res dist s
  | .canFrameReceived c age own f => Sys2Proof.Machine.execCanFrameReceived c age own f s
  | .canError c inc age => Sys2Proof.Machine.execCanError c inc age s
  | .canTxDone c age => Sys2Proof.Machine.execCanTxDone c age s
  | .arbLost c => Sys2Proof.Machine.execArbLost c s
  | .busoff c => Sys2Proof.Machine.execBusoff c s
  | .busoffRecovered c => Sys2Proof.Machine.execBusoffRecovered c s
  | .recover via c => Sys2Proof.Machine.execRecover via c s
  | .linSlotStart l => Sys2Proof.Machine.execLinSlotStart l s
  | .schedSwitch via l start stop => Sys2Proof.Machine.execSchedSwitch via l start stop s
  | .linHeaderReceived l head age => Sys2Proof.Machine.execLinHeaderReceived l head age s
  | .linResponseReceived l age bytes framingOk => Sys2Proof.Machine.execLinResponseReceived l age bytes framingOk s
  | .noResp l => Sys2Proof.Machine.execNoResp l s
  | .uartCharReceived u age ch ok => Sys2Proof.Machine.execUartCharReceived u age ch ok s
  | .uartIdle u => Sys2Proof.Machine.execUartIdle u s
  | .uartTxDone u => Sys2Proof.Machine.execUartTxDone u s
  | .pollDue b k => Sys2Proof.Machine.execPollDue b k s
  | .pollCaptured b bytes => Sys2Proof.Machine.execPollCaptured b bytes s
  | .nack b => Sys2Proof.Machine.execNack b s
  | .i2cTimeout b => Sys2Proof.Machine.execI2cTimeout b s
  | .busWriteStart b => Sys2Proof.Machine.execBusWriteStart b s
  | .busWriteDone b => Sys2Proof.Machine.execBusWriteDone b s
  | .gpiSample levels => Sys2Proof.Machine.execGpiSample levels s
  | .lookup pipe => Sys2Proof.Machine.execLookup pipe s
  | .lookupPartB p => Sys2Proof.Machine.execLookupPartB p s
  | .sfUnblock via => Sys2Proof.Machine.execSfUnblock via s
  | .redLatchClear via => Sys2Proof.Machine.execRedLatchClear via s
  | .shadowWrite a => Sys2Proof.Machine.execShadowWrite a s
  | .dualWrite a => Sys2Proof.Machine.execDualWrite a s
  | .commit via => Sys2Proof.Machine.execCommit via s
  | .commitSwap => Sys2Proof.Machine.execCommitSwap s
  | .resyncCopy part => Sys2Proof.Machine.execResyncCopy part s
  | .resyncDone => Sys2Proof.Machine.execResyncDone s
  | .matchRound => Sys2Proof.Machine.execMatchRound s
  | .expressGrant => Sys2Proof.Machine.execExpressGrant s
  | .gclChange via p => Sys2Proof.Machine.execGclChange via p s
  | .gclChangeTime p => Sys2Proof.Machine.execGclChangeTime p s
  | .gclEntryEnd p => Sys2Proof.Machine.execGclEntryEnd p s
  | .lifetimeExpiry sid member => Sys2Proof.Machine.execLifetimeExpiry sid member s
  | .egressHandOn set => Sys2Proof.Machine.execEgressHandOn set s
  | .memberDelivered sid member => Sys2Proof.Machine.execMemberDelivered sid member s
  | .reseqTimeout out talker => Sys2Proof.Machine.execReseqTimeout out talker s
  | .admission => Sys2Proof.Machine.execAdmission s
  | .admitLifetime sid => Sys2Proof.Machine.execAdmitLifetime sid s
  | .spill => Sys2Proof.Machine.execSpill s
  | .prefetch => Sys2Proof.Machine.execPrefetch s
  | .memFault sid cell => Sys2Proof.Machine.execMemFault sid cell s
  | .xmTraining => Sys2Proof.Machine.execXmTraining s
  | .xmTrainingDone ok => Sys2Proof.Machine.execXmTrainingDone ok s
  | .xmRetrain => Sys2Proof.Machine.execXmRetrain s
  | .xmRetrainStart via => Sys2Proof.Machine.execXmRetrainStart via s
  | .xmRetrainDone ok => Sys2Proof.Machine.execXmRetrainDone ok s
  | .engineTake k => Sys2Proof.Machine.execEngineTake k s
  | .runCommit k => Sys2Proof.Machine.execRunCommit k s
  | .speHwFault k => Sys2Proof.Machine.execSpeHwFault k s
  | .wdogExpired k => Sys2Proof.Machine.execWdogExpired k s
  | .selfTestDone k pass => Sys2Proof.Machine.execSelfTestDone k pass s
  | .selfTestRotation => Sys2Proof.Machine.execSelfTestRotation s
  | .engReturn via => Sys2Proof.Machine.execEngReturn via s
  | .engRetire via => Sys2Proof.Machine.execEngRetire via s
  | .creditRefill => Sys2Proof.Machine.execCreditRefill s
  | .tsWrite via data => Sys2Proof.Machine.execTsWrite via data s
  | .tsWriteApply => Sys2Proof.Machine.execTsWriteApply s
  | .runCancel n => Sys2Proof.Machine.execRunCancel n s
  | .nop u => Sys2Proof.Machine.execNop u s
  | .mov u d src => Sys2Proof.Machine.execMov u d src s
  | .ldi u d tg imm => Sys2Proof.Machine.execLdi u d tg imm s
  | .tag u d src tg => Sys2Proof.Machine.execTag u d src tg s
  | .ld u d a inc imm => Sys2Proof.Machine.execLd u d a inc imm s
  | .st u d a inc imm => Sys2Proof.Machine.execSt u d a inc imm s
  | .ldb u d a inc imm => Sys2Proof.Machine.execLdb u d a inc imm s
  | .stb u d a inc imm => Sys2Proof.Machine.execStb u d a inc imm s
  | .lda u a imm => Sys2Proof.Machine.execLda u a imm s
  | .adda u a imm => Sys2Proof.Machine.execAdda u a imm s
  | .mova u a src => Sys2Proof.Machine.execMova u a src s
  | .movw u d a => Sys2Proof.Machine.execMovw u d a s
  | .add u d src t => Sys2Proof.Machine.execAdd u d src t s
  | .adc u d src t => Sys2Proof.Machine.execAdc u d src t s
  | .sub u d src t => Sys2Proof.Machine.execSub u d src t s
  | .sbc u d src t => Sys2Proof.Machine.execSbc u d src t s
  | .and u d src t => Sys2Proof.Machine.execAnd u d src t s
  | .or u d src t => Sys2Proof.Machine.execOr u d src t s
  | .xor u d src t => Sys2Proof.Machine.execXor u d src t s
  | .not u d src => Sys2Proof.Machine.execNot u d src s
  | .addi u d src imm => Sys2Proof.Machine.execAddi u d src imm s
  | .subi u d src imm => Sys2Proof.Machine.execSubi u d src imm s
  | .andi u d src imm => Sys2Proof.Machine.execAndi u d src imm s
  | .ori u d src imm => Sys2Proof.Machine.execOri u d src imm s
  | .xori u d src imm => Sys2Proof.Machine.execXori u d src imm s
  | .cmp u src t => Sys2Proof.Machine.execCmp u src t s
  | .cmpi u src imm => Sys2Proof.Machine.execCmpi u src imm s
  | .shl u d src n => Sys2Proof.Machine.execShl u d src n s
  | .shr u d src n => Sys2Proof.Machine.execShr u d src n s
  | .sar u d src n => Sys2Proof.Machine.execSar u d src n s
  | .mul u d src t => Sys2Proof.Machine.execMul u d src t s
  | .ext u d src p w => Sys2Proof.Machine.execExt u d src p w s
  | .ins u d src p w => Sys2Proof.Machine.execIns u d src p w s
  | .br u cond target => Sys2Proof.Machine.execBr u cond target s
  | .btag u src tg target => Sys2Proof.Machine.execBtag u src tg target s
  | .dbnz u a target => Sys2Proof.Machine.execDbnz u a target s
  | .endProg u => Sys2Proof.Machine.execEndProg u s
  | .hdr u a => Sys2Proof.Machine.execHdr u a s
  | .emit u a src => Sys2Proof.Machine.execEmit u a src s
  | .sld u d src => Sys2Proof.Machine.execSld u d src s
  | .sst u d src => Sys2Proof.Machine.execSst u d src s
  | .time u d => Sys2Proof.Machine.execTime u d s
  | .cut => Sys2Proof.Machine.execCut s
  | .slotVloWrite via data => Sys2Proof.Machine.execSlotVloWrite via data s
  | .slotVhiWrite via data => Sys2Proof.Machine.execSlotVhiWrite via data s
  | .stale slot => Sys2Proof.Machine.execStale slot s
  | .firingDue l => Sys2Proof.Machine.execFiringDue l s
  | .changeCheck l => Sys2Proof.Machine.execChangeCheck l s
  | .firingStart => Sys2Proof.Machine.execFiringStart s
  | .acfMessage l => Sys2Proof.Machine.execAcfMessage l s
  | .acfHoldExpiry l => Sys2Proof.Machine.execAcfHoldExpiry l s
  | .snapshot via => Sys2Proof.Machine.execSnapshot via s
  | .rateApply n => Sys2Proof.Machine.execRateApply n s
  | .syncLost n => Sys2Proof.Machine.execSyncLost n s
  | .domainStep via n => Sys2Proof.Machine.execDomainStep via n s
  | .domainStepApply n => Sys2Proof.Machine.execDomainStepApply n s
  | .eventInput inp rising age => Sys2Proof.Machine.execEventInput inp rising age s
  | .tsoRise o => Sys2Proof.Machine.execTsoRise o s
  | .tsoFall o => Sys2Proof.Machine.execTsoFall o s
  | .timeExchange l => Sys2Proof.Machine.execTimeExchange l s
  | .boardLockLost => Sys2Proof.Machine.execBoardLockLost s
  | .boardStepRetry => Sys2Proof.Machine.execBoardStepRetry s
  | .domRelayApply n => Sys2Proof.Machine.execDomRelayApply n s
  | .dbTail via n q idx => Sys2Proof.Machine.execDbTail via n q idx s
  | .dbCqHead via n q idx => Sys2Proof.Machine.execDbCqHead via n q idx s
  | .descriptorFetch n q desc => Sys2Proof.Machine.execDescriptorFetch n q desc s
  | .dmaReadDone n t bytes => Sys2Proof.Machine.execDmaReadDone n t bytes s
  | .dmaReadError n q => Sys2Proof.Machine.execDmaReadError n q s
  | .rxCompletion n q => Sys2Proof.Machine.execRxCompletion n q s
  | .holdoffExpiry n q => Sys2Proof.Machine.execHoldoffExpiry n q s
  | .hostHandOn => Sys2Proof.Machine.execHostHandOn s
  | .queueOff via n q => Sys2Proof.Machine.execQueueOff via n q s
  | .queueDma via n q => Sys2Proof.Machine.execQueueDma via n q s
  | .queueWindow via n q => Sys2Proof.Machine.execQueueWindow via n q s
  | .queueStopped n q => Sys2Proof.Machine.execQueueStopped n q s
  | .windowFlush via n data => Sys2Proof.Machine.execWindowFlush via n data s
  | .pushHoldTimeout => Sys2Proof.Machine.execPushHoldTimeout s
  | .lhpTimeout => Sys2Proof.Machine.execLhpTimeout s
  | .busMasterEnable n => Sys2Proof.Machine.execBusMasterEnable n s
  | .functionLevelReset n => Sys2Proof.Machine.execFunctionLevelReset n s
  | .pcieLinkDown => Sys2Proof.Machine.execPcieLinkDown s
  | .create via target => Sys2Proof.Machine.execCreate via target s
  | .destroy via target => Sys2Proof.Machine.execDestroy via target s
  | .setShare via target => Sys2Proof.Machine.execSetShare via target s
  | .reset via target => Sys2Proof.Machine.execReset via target s
  | .resetDone n => Sys2Proof.Machine.execResetDone n s
  | .freeze via target => Sys2Proof.Machine.execFreeze via target s
  | .frozen n => Sys2Proof.Machine.execFrozen n s
  | .freezeTimeout n => Sys2Proof.Machine.execFreezeTimeout n s
  | .thaw via target => Sys2Proof.Machine.execThaw via target s
  | .save via target => Sys2Proof.Machine.execSave via target s
  | .restore via target => Sys2Proof.Machine.execRestore via target s
  | .imgDone n => Sys2Proof.Machine.execImgDone n s
  | .copy via target => Sys2Proof.Machine.execCopy via target s
  | .copyDone farReady crcOk pathOk => Sys2Proof.Machine.execCopyDone farReady crcOk pathOk s
  | .imgData via write data => Sys2Proof.Machine.execImgData via write data s
  | .linkTraining l => Sys2Proof.Machine.execLinkTraining l s
  | .stayLinkUp l lanes asym => Sys2Proof.Machine.execStayLinkUp l lanes asym s
  | .ident l dev manager level => Sys2Proof.Machine.execIdent l dev manager level s
  | .identRetry l => Sys2Proof.Machine.execIdentRetry l s
  | .creditInit l c0 c1 c2 => Sys2Proof.Machine.execCreditInit l c0 c1 c2 s
  | .flitReceive l f => Sys2Proof.Machine.execFlitReceive l f s
  | .ack l count => Sys2Proof.Machine.execAck l count s
  | .nak l count => Sys2Proof.Machine.execNak l count s
  | .ackTimer l => Sys2Proof.Machine.execAckTimer l s
  | .timeReq l seq t1 => Sys2Proof.Machine.execTimeReq l seq t1 s
  | .timeResp l seq t2 t3 => Sys2Proof.Machine.execTimeResp l seq t2 t3 s
  | .domRelay l m => Sys2Proof.Machine.execDomRelay l m s
  | .laneStat l lanes => Sys2Proof.Machine.execLaneStat l lanes s
  | .staySentence l => Sys2Proof.Machine.execStaySentence l s
  | .stayForward l => Sys2Proof.Machine.execStayForward l s
  | .remoteAccess a write => Sys2Proof.Machine.execRemoteAccess a write s
  | .remoteRequest l r => Sys2Proof.Machine.execRemoteRequest l r s
  | .remoteCompletion tag status value => Sys2Proof.Machine.execRemoteCompletion tag status value s
  | .remoteTimeout tag => Sys2Proof.Machine.execRemoteTimeout tag s
  | .atomicop fn addr op wide => Sys2Proof.Machine.execAtomicop fn addr op wide s
  | .laneFail l k => Sys2Proof.Machine.execLaneFail l k s
  | .laneRetrain l => Sys2Proof.Machine.execLaneRetrain l s
  | .laneRetrainStart via l => Sys2Proof.Machine.execLaneRetrainStart via l s
  | .laneRejoin l => Sys2Proof.Machine.execLaneRejoin l s
  | .stayLinkFail l => Sys2Proof.Machine.execStayLinkFail l s
  | .requestFull via => Sys2Proof.Machine.execRequestFull via s
  | .requestReefed via => Sys2Proof.Machine.execRequestReefed via s
  | .requestFurled via => Sys2Proof.Machine.execRequestFurled via s
  | .requestStruck via => Sys2Proof.Machine.execRequestStruck via s
  | .entryQuiesced => Sys2Proof.Machine.execEntryQuiesced s
  | .drainExpiry => Sys2Proof.Machine.execDrainExpiry s
  | .wakeEvent src unit ide w => Sys2Proof.Machine.execWakeEvent src unit ide w s
  | .wakeTimer => Sys2Proof.Machine.execWakeTimer s
  | .wakeRunStart => Sys2Proof.Machine.execWakeRunStart s
  | .wakeRunLimit => Sys2Proof.Machine.execWakeRunLimit s
  | .pllRelock => Sys2Proof.Machine.execPllRelock s
  | .powerOnReset => Sys2Proof.Machine.execPowerOnReset s
  | .resetN => Sys2Proof.Machine.execResetN s
  | .resetNGlitch => Sys2Proof.Machine.execResetNGlitch s
  | .railsReady manager dev => Sys2Proof.Machine.execRailsReady manager dev s
  | .railWaitExpiry => Sys2Proof.Machine.execRailWaitExpiry s
  | .pllLock => Sys2Proof.Machine.execPllLock s
  | .settingsReload => Sys2Proof.Machine.execSettingsReload s
  | .fastStart => Sys2Proof.Machine.execFastStart s
  | .forwarding => Sys2Proof.Machine.execForwarding s
  | .mastheadStart => Sys2Proof.Machine.execMastheadStart s
  | .softReset via key => Sys2Proof.Machine.execSoftReset via key s
  | .watchdogReset => Sys2Proof.Machine.execWatchdogReset s
  | .kick via => Sys2Proof.Machine.execKick via s
  | .stayReset => Sys2Proof.Machine.execStayReset s
  | .resetComplete => Sys2Proof.Machine.execResetComplete s
  | .mhRestart => Sys2Proof.Machine.execMhRestart s
  | .settingsCommit via => Sys2Proof.Machine.execSettingsCommit via s
  | .settingsCommitDone => Sys2Proof.Machine.execSettingsCommitDone s
  | .eraseOld via key => Sys2Proof.Machine.execEraseOld via key s
  | .mramScrub => Sys2Proof.Machine.execMramScrub s
  | .openSession via target => Sys2Proof.Machine.execOpenSession via target s
  | .verify via => Sys2Proof.Machine.execVerify via s
  | .verifyDone => Sys2Proof.Machine.execVerifyDone s
  | .write via => Sys2Proof.Machine.execWrite via s
  | .close via => Sys2Proof.Machine.execClose via s
  | .abort via => Sys2Proof.Machine.execAbort via s
  | .updData via data => Sys2Proof.Machine.execUpdData via data s
  | .updData16 via data => Sys2Proof.Machine.execUpdData16 via data s
  | .sessionAbandon => Sys2Proof.Machine.execSessionAbandon s
  | .downgradePermit via key permit => Sys2Proof.Machine.execDowngradePermit via key permit s
  | .rigCommitRetry => Sys2Proof.Machine.execRigCommitRetry s
  | .updCommandRelay op => Sys2Proof.Machine.execUpdCommandRelay op s
  | .updDataRelay off bytes => Sys2Proof.Machine.execUpdDataRelay off bytes s
  | .updStatusRelay result state => Sys2Proof.Machine.execUpdStatusRelay result state s
  | .freezeWrite => Sys2Proof.Machine.execFreezeWrite s
  | .faultAck via page all => Sys2Proof.Machine.execFaultAck via page all s
  | .hostSafe via key => Sys2Proof.Machine.execHostSafe via key s
  | .tempSample tj => Sys2Proof.Machine.execTempSample tj s
  | .patrolScrub => Sys2Proof.Machine.execPatrolScrub s
  | .clockLoss => Sys2Proof.Machine.execClockLoss s
  | .supplyFault rail => Sys2Proof.Machine.execSupplyFault rail s
  | .parity pg => Sys2Proof.Machine.execParity pg s
  | .registerRead a => Sys2Proof.Machine.execRegisterRead a s
  | .pcieLinkUp speed width => Sys2Proof.Machine.execPcieLinkUp speed width s
  | .d3hotTransition n toD3 => Sys2Proof.Machine.execD3hotTransition n toD3 s
  | .spillDone => Sys2Proof.Machine.execSpillDone s
  | .prefetchDone => Sys2Proof.Machine.execPrefetchDone s
  | .mramScrubDone corrected bad => Sys2Proof.Machine.execMramScrubDone corrected bad s
  | .scrubChunkDone corrected bad => Sys2Proof.Machine.execScrubChunkDone corrected bad s
  | .laneRetrainFailed l => Sys2Proof.Machine.execLaneRetrainFailed l s
  | .vddAonLoss => Sys2Proof.Machine.execVddAonLoss s
  | .canBusJoin c => Sys2Proof.Machine.execCanBusJoin c s

end Sys2Proof.Machine
end

