-- ==== Sys2Proof/Machine/Step.lean ====
section
/-! DEFINITION. The step: the command at the front of the queue is taken and has its effect; on an empty queue time
passes. -/

namespace Sys2Proof.Machine

open Sys2Proof

/-- A cell time passes with nothing to do (R47; notes/assumptions/5.md). -/
def State.idle (s : State) : State := { s with dev := s.dev.pass Config.cellTime }

/-- One step of the block. -/
def step (s : State) : Host.Outcome State Fault Refusal :=
  match s.pending with
  | [] => .next s.idle
  | i :: rest => exec i { s with pending := rest }

/-- The command that a word spells is put at the front of the queue. -/
def State.withFetchWord (s : State) (nbits w : Nat) : State :=
  match decodeTableWord nbits w with
  | some i => { s with pending := i :: s.pending }
  | none => s

end Sys2Proof.Machine
end

