-- ==== Sys2Proof/Laws/SMap.lean ====
section
/-! SUPPORT. Sparse maps: what a read gives after a write or a clear, for every list of entries, and that the operations
keep the canonical form. -/

namespace Sys2Proof.Machine

variable {α : Type}

theorem SMap.get_erase_same (dflt : Nat → α) (m : SMap α) (k : Nat) : SMap.get dflt (SMap.erase m k) k = dflt k := by
  induction m with
  | nil => rfl
  | cons e m ih =>
    obtain ⟨j, v⟩ := e
    by_cases h : j = k
    · simpa [SMap.erase, h] using ih
    · have h' : k ≠ j := fun x => h x.symm
      simpa [SMap.erase, SMap.get, h, h'] using ih

theorem SMap.get_filter (dflt : Nat → α) (m : SMap α) (p : Nat → Bool) (k : Nat) (h : p k = true) :
    SMap.get dflt (m.filter fun e => p e.1) k = SMap.get dflt m k := by
  induction m with
  | nil => rfl
  | cons e m ih =>
    obtain ⟨j, v⟩ := e
    by_cases hj : p j
    · simp only [List.filter, hj, SMap.get, ih]
    · have hk : k ≠ j := fun x => by subst x; exact hj h
      simp [List.filter, hj, SMap.get, hk, ih]

theorem SMap.get_filter_out (dflt : Nat → α) (m : SMap α) (p : Nat → Bool) (k : Nat) (h : p k = false) :
    SMap.get dflt (m.filter fun e => p e.1) k = dflt k := by
  induction m with
  | nil => rfl
  | cons e m ih =>
    obtain ⟨j, v⟩ := e
    by_cases hj : p j
    · have hk : k ≠ j := fun x => by subst x; simp [h] at hj
      simp [List.filter, hj, SMap.get, hk, ih]
    · simp [List.filter, hj, ih]

theorem SMap.get_insert_same (dflt : Nat → α) (m : SMap α) (k : Nat) (v : α) :
    SMap.get dflt (SMap.insert m k v) k = v := by
  induction m with
  | nil => simp [SMap.insert, SMap.get]
  | cons e m ih =>
    obtain ⟨j, w⟩ := e
    unfold SMap.insert
    split
    · simp [SMap.get]
    · split
      · simp [SMap.get]
      · rename_i h
        simp [SMap.get, h, ih]

theorem SMap.get_insert_other (dflt : Nat → α) (m : SMap α) (k j : Nat) (v : α) (h : j ≠ k) :
    SMap.get dflt (SMap.insert m k v) j = SMap.get dflt m j := by
  induction m with
  | nil => simp [SMap.insert, SMap.get, h]
  | cons e m ih =>
    obtain ⟨i, w⟩ := e
    unfold SMap.insert
    split
    · simp [SMap.get, h]
    · split
      · rename_i hk
        subst hk
        simp [SMap.get, h]
      · simp [SMap.get, ih]

theorem SMap.get_clear (dflt : Nat → α) (m : SMap α) (drop : Nat → Bool) (k : Nat) :
    SMap.get dflt (SMap.clear m drop) k = if drop k then dflt k else SMap.get dflt m k := by
  unfold SMap.clear
  by_cases h : drop k
  · simpa [h] using SMap.get_filter_out dflt m (fun i => !drop i) k (by simp [h])
  · simpa [h] using SMap.get_filter dflt m (fun i => !drop i) k (by simp [h])

theorem SMap.above_filter (lo : Nat) (m : SMap α) (p : Nat × α → Bool) (h : SMap.above lo m = true) :
    SMap.above lo (m.filter p) = true := by
  simp only [SMap.above, List.all_eq_true] at *
  exact fun e he => h e (List.mem_filter.mp he).1

theorem SMap.above_insert (lo : Nat) (m : SMap α) (k : Nat) (v : α) (hk : lo < k) (h : SMap.above lo m = true) :
    SMap.above lo (SMap.insert m k v) = true := by
  induction m with
  | nil => simp [SMap.insert, SMap.above, hk]
  | cons e m ih =>
    obtain ⟨j, w⟩ := e
    simp only [SMap.above, List.all_cons, Bool.and_eq_true, decide_eq_true_eq] at h ih
    unfold SMap.insert
    split
    · simp [SMap.above, hk, h.1]
      simpa using h.2
    · split
      · simp [SMap.above, hk]
        simpa using h.2
      · simp [SMap.above, h.1]
        simpa [SMap.above] using ih h.2

theorem SMap.above_mono (lo hi : Nat) (m : SMap α) (hl : lo ≤ hi) (h : SMap.above hi m = true) : SMap.above lo m = true := by
  simp only [SMap.above, List.all_eq_true, decide_eq_true_eq] at *
  exact fun e he => Nat.lt_of_le_of_lt hl (h e he)

variable [DecidableEq α]

@[simp] theorem SMap.get_put_same (dflt : Nat → α) (m : SMap α) (k : Nat) (v : α) :
    SMap.get dflt (SMap.put dflt m k v) k = v := by
  unfold SMap.put
  split
  · rename_i h
    rw [SMap.get_erase_same, h]
  · exact SMap.get_insert_same ..

theorem SMap.get_put_other (dflt dflt' : Nat → α) (m : SMap α) (k j : Nat) (v : α) (h : j ≠ k) :
    SMap.get dflt' (SMap.put dflt m k v) j = SMap.get dflt' m j := by
  unfold SMap.put
  split
  · exact SMap.get_filter dflt' m (fun i => i != k) j (by simpa using h)
  · exact SMap.get_insert_other _ _ _ _ _ h

theorem SMap.filter_wf (dflt : Nat → α) (m : SMap α) (p : Nat × α → Bool) (h : SMap.wf dflt m = true) :
    SMap.wf dflt (m.filter p) = true := by
  induction m with
  | nil => rfl
  | cons e m ih =>
    obtain ⟨k, v⟩ := e
    simp only [SMap.wf, Bool.and_eq_true] at h
    by_cases hp : p (k, v)
    · simp only [List.filter, hp, SMap.wf, Bool.and_eq_true]
      exact ⟨⟨h.1.1, SMap.above_filter _ _ _ h.1.2⟩, ih h.2⟩
    · simpa [List.filter, hp] using ih h.2

theorem SMap.insert_wf (dflt : Nat → α) (m : SMap α) (k : Nat) (v : α) (hv : v ≠ dflt k) (h : SMap.wf dflt m = true) :
    SMap.wf dflt (SMap.insert m k v) = true := by
  induction m with
  | nil => simp [SMap.insert, SMap.wf, SMap.above, hv]
  | cons e m ih =>
    obtain ⟨j, w⟩ := e
    have h0 := h
    simp only [SMap.wf, Bool.and_eq_true] at h
    unfold SMap.insert
    split
    · rename_i hj
      have ha : SMap.above k ((j, w) :: m) = true := by
        have := SMap.above_mono k j m (Nat.le_of_lt hj) h.1.2
        simp only [SMap.above, List.all_cons, Bool.and_eq_true, decide_eq_true_eq] at *
        exact ⟨hj, this⟩
      rw [SMap.wf, ha, h0]
      simp [hv]
    · split
      · rename_i hj
        subst hj
        rw [SMap.wf, h.1.2, h.2]
        simp [hv]
      · rename_i h1 h2
        rw [SMap.wf, ih h.2, SMap.above_insert j m k v (by omega) h.1.2]
        simpa using h.1.1

/-- Writing a key keeps the canonical form. -/
theorem SMap.put_wf (dflt : Nat → α) (m : SMap α) (k : Nat) (v : α) (h : SMap.wf dflt m = true) :
    SMap.wf dflt (SMap.put dflt m k v) = true := by
  unfold SMap.put
  split
  · exact SMap.filter_wf dflt m _ h
  · rename_i hv
    exact SMap.insert_wf dflt m k v hv h

/-- Clearing keys keeps the canonical form. -/
theorem SMap.clear_wf (dflt : Nat → α) (m : SMap α) (drop : Nat → Bool) (h : SMap.wf dflt m = true) :
    SMap.wf dflt (SMap.clear m drop) = true := SMap.filter_wf dflt m _ h

/-- Writing any list of keys keeps the canonical form. -/
theorem SMap.puts_wf {β : Type} (dflt : Nat → α) (key : β → Nat) (val : β → α) (l : List β) (m : SMap α)
    (h : SMap.wf dflt m = true) :
    SMap.wf dflt (l.foldl (fun m x => SMap.put dflt m (key x) (val x)) m) = true := by
  induction l generalizing m with
  | nil => exact h
  | cons x l ih => exact ih _ (SMap.put_wf dflt m _ _ h)

end Sys2Proof.Machine
end

