-- ==== Sys2Proof/WellFormed.lean ====
section
/-! DEFINITION. What a sender keeps to beyond the operands' types: alignment, lengths and numbers of units that exist. Every
command has a meaning whether or not it is well formed; these checks say which commands the device's surroundings can make. -/

namespace Sys2Proof

/-- R88, R90: a dword address of a source other than the LHP is a multiple of 4, an LHP address a multiple of 2; a write
enables some byte. Only a PCIe read request asks for more than one dword (R71), at most the 1,024 of a request. -/
def Access.wellFormed (a : Access) (write : Bool) : Bool :=
  match a.via with
  | .lhp => a.addr % 2 == 0 && a.more == 0
  | .pcie _ => a.addr % 4 == 0 && (if write then a.be != 0 && a.more == 0 else decide (a.more < 1024))
  | _ => a.addr % 4 == 0 && (!write || a.be != 0) && a.more == 0

/-- R167: the longest data field, of CAN XL. -/
def CanFrame.wellFormed (f : CanFrame) : Bool := f.data.length ≤ 2048

/-- R463: a flit holds 62 message words. -/
def Flit.wellFormed (f : Flit) : Bool := f.words.length ≤ 62

/-- R482: an AtomicOp is aligned to its own width. -/
def atomAligned (addr : Nat) (wide : Bool) : Bool := addr % (if wide then 8 else 4) == 0

/-- R470, R482. -/
def RemReq.wellFormed (r : RemReq) : Bool :=
  match r.op with
  | .atom _ wide => atomAligned r.off.val wide
  | .write _ => r.off.val % 4 == 0 && r.be != 0
  | .read => r.off.val % 4 == 0

/-- R35, R266: the queue sets of egress points that are no Ethernet port: Stay links, CAN, LIN, UART and poll channels, the
gateway, receive queues. -/
def handOnSet (s : Nat) : Bool :=
  (0x18 ≤ s && s ≤ 0x1B) || (0x20 ≤ s && s ≤ 0x5F) || s == 0x79 || 0x100 ≤ s

/-- The command is one that the surroundings of the device can make. -/
def Instr.wellFormed : Instr → Bool
  | .registerWrite a | .push a | .shadowWrite a | .dualWrite a => a.wellFormed true
  | .registerRead a | .clearingRead a | .counterSnapshotRead a | .pop a => a.wellFormed false
  | .remoteAccess a w => a.wellFormed w
  | .frameHeadReceived _ _ head => head.length == 64
  | .frameEndReceived _ tail _ => tail.short.isNone || decide (tail.bytes.length < 64)
  | .linkLoss _ lost => decide (lost.part < 64)
  | .canFrameReceived _ _ _ f => f.wellFormed
  | .linResponseReceived _ _ bytes _ => bytes.length ≤ 9
  | .flitReceive _ f => f.wellFormed
  | .egressHandOn set => handOnSet set.val
  | .railsReady manager dev => manager == (dev.val == 0)
  | .atomicop _ addr _ wide => atomAligned addr wide
  | .remoteRequest _ r => r.wellFormed
  | _ => true

end Sys2Proof
end

