-- ==== Sys2Proof/Safety.lean ====
section
/-! DEFINITION. The terms that claims about runs use: the outcome of a command by its effect on the block, the invariants,
and what a run of the queue leaves. -/

namespace Sys2Proof.Machine

open Sys2Proof

/-- Command `i` in state `s` completes, with the block as `e` after its own effect. -/
def Completes (i : Instr) (s : State) (e : Dev) : Prop := exec i s = .next { s with dev := s.dev.closing e }

/-- The block has clocks, and nothing holds a command back. -/
abbrev State.Runs (s : State) : Prop := s.dev.clocked = true

/-- R51, R482: the register bus is free, nothing waits for it, and the clocks that stop in Reefed run. -/
abbrev State.BusFree (s : State) : Prop :=
  s.dev.sty.busBy = none ∧ s.dev.sty.busQ = [] ∧ s.dev.pwr.coreStopped = false ∧ s.dev.pwr.engineStopped = false

/-- R97, R429, R430, R482: a write (or read) of a named register of page `p` by source `via` takes effect: the page is in the map of
the source, no earlier access of it is held, no AtomicOp has the register bus, and the clock of the page runs. -/
abbrev State.Reached (s : State) (via : Via) (p : PageId) (write : Bool := true) : Prop :=
  viaMaps via p = true ∧ s.dev.reaches via write = true ∧ s.dev.sty.busBy = none ∧ s.dev.pageStopped p = false

/-- The always-on domain has its supply. -/
abbrev State.Alive (s : State) : Prop := s.dev.pwr.dead = false

/-- R552: the pin SVC_OK is high exactly while its conditions hold. -/
def State.SvcTrue (s : State) : Prop := s.dev.pwr.svcOk = s.dev.svcHolds

/-- The queue after `n` steps of a run that no command stops. -/
def runs (n : Nat) (s : State) : Host.Outcome State Fault Refusal := Host.Core.run core n s

/-- The commands that the always-on domain takes, and those that the device's resets are (R497, R502, R504). -/
def Instr.alwaysOn : Instr → Bool
  | .tc10Wake _ | .gpiSample _ | .nop _ | .mov _ _ _ | .ldi _ _ _ _ | .tag _ _ _ _ | .ld _ _ _ _ _ | .st _ _ _ _ _
    | .ldb _ _ _ _ _ | .stb _ _ _ _ _ | .lda _ _ _ | .adda _ _ _ | .mova _ _ _ | .movw _ _ _ | .add _ _ _ _
    | .adc _ _ _ _ | .sub _ _ _ _ | .sbc _ _ _ _ | .and _ _ _ _ | .or _ _ _ _ | .xor _ _ _ _ | .not _ _ _ | .addi _ _ _ _
    | .subi _ _ _ _ | .andi _ _ _ _ | .ori _ _ _ _ | .xori _ _ _ _ | .cmp _ _ _ | .cmpi _ _ _ | .shl _ _ _ _
    | .shr _ _ _ _ | .sar _ _ _ _ | .mul _ _ _ _ | .ext _ _ _ _ _ | .ins _ _ _ _ _ | .br _ _ _ | .btag _ _ _ _
    | .dbnz _ _ _ | .endProg _ | .hdr _ _ | .emit _ _ _ | .sld _ _ _ | .sst _ _ _ | .time _ _ | .wakeEvent _ _ _ _
    | .wakeTimer | .wakeRunStart | .wakeRunLimit | .pllRelock | .powerOnReset | .resetN | .resetNGlitch | .railsReady _ _
    | .railWaitExpiry | .supplyFault _ | .pllLock | .freezeWrite | .vddAonLoss => true
  | _ => false

/-- R326: the unit that executes the instruction of a command. -/
def Instr.unit : Instr → Option PUnit
  | .nop u | .mov u _ _ | .ldi u _ _ _ | .tag u _ _ _ | .ld u _ _ _ _ | .st u _ _ _ _ | .ldb u _ _ _ _
    | .stb u _ _ _ _ | .lda u _ _ | .adda u _ _ | .mova u _ _ | .movw u _ _ | .add u _ _ _ | .adc u _ _ _
    | .sub u _ _ _ | .sbc u _ _ _ | .and u _ _ _ | .or u _ _ _ | .xor u _ _ _ | .not u _ _ | .addi u _ _ _
    | .subi u _ _ _ | .andi u _ _ _ | .ori u _ _ _ | .xori u _ _ _ | .cmp u _ _ | .cmpi u _ _ | .shl u _ _ _
    | .shr u _ _ _ | .sar u _ _ _ | .mul u _ _ _ | .ext u _ _ _ _ | .ins u _ _ _ _ | .br u _ _ | .btag u _ _ _
    | .dbnz u _ _ | .endProg u | .hdr u _ | .emit u _ _ | .sld u _ _ | .sst u _ _ | .time u _ => some u
  | _ => none

/-- R497, R502: the fast domains have no clock, and no command that waits is one of the always-on domain: what the block holds
is `d`, but for the time that passes. -/
def State.Asleep (d : Dev) (s : State) : Prop :=
  s.dev.clocked = false ∧ (∀ i ∈ s.pending, Instr.alwaysOn i = false) ∧ { s.dev with now := d.now } = d

/-- Unit `u` is about to execute the instruction encoded as `code`: it runs with registers `c`, the slot that its program counter
names holds the code, and nothing it reads there is bad (R302, R325, R540). -/
def State.Ready (s : State) (u : PUnit) (c : Core) (code : BitVec 36) : Prop :=
  s.Alive ∧ s.dev.coreOf u = some c ∧ s.dev.slotAt u c.pc = some code ∧ s.dev.badRead u c code = none ∧
  legal code (isWatch u) = true

/-- The instruction completes, with the registers of its unit as `c` and the block otherwise as `e` (R302, R328). -/
def StepsTo (i : Instr) (s : State) (u : PUnit) (e : Dev) (c : Core) : Prop := Completes i s ((e.setCore u c).atEnd u c)

/-- R320: the flags of an addition of 16-bit numbers with a carry in. -/
def sumFlags (x y : BitVec 16) (carry : Bool) : Flags :=
  let exact := x.toNat + y.toNat + carry.toNat
  let signedSum := x.toInt + y.toInt + carry.toNat
  { z := decide (exact % 65536 = 0), n := decide (32768 ≤ exact % 65536), c := decide (65536 ≤ exact),
    v := decide (signedSum < -32768 ∨ 32767 < signedSum), e := false, x := false }

/-- R320: the flags of a subtraction of 16-bit numbers, less one more for a borrow. -/
def diffFlags (x y : BitVec 16) (borrow : Bool) : Flags :=
  let exact : Int := (x.toNat : Int) - y.toNat - borrow.toNat
  let signedDiff := x.toInt - y.toInt - borrow.toNat
  { z := decide (exact % 65536 = 0), n := decide (32768 ≤ exact % 65536), c := decide (0 ≤ exact),
    v := decide (signedDiff < -32768 ∨ 32767 < signedDiff), e := false, x := false }

/-- R320, R326: the flags of a result whose C and V the instruction gives. -/
def resultFlags (x : BitVec 16) (c : Bool) : Flags :=
  { z := decide (x = 0), n := x.msb, c := c, v := false, e := false, x := false }

/-- R320: the flags of a word that is moved or loaded: C and V stay. -/
def wordFlags (f : Flags) (w : Word) : Flags :=
  { z := decide (w.data = 0), n := w.data.msb, c := f.c, v := f.v, e := decide (w.tag = 3), x := decide (w.tag = 0) }

/-- The registers after an instruction of one slot that takes `n` cycles and writes word register `d` and the flags. -/
def Core.gives (c : Core) (d : WReg) (w : Word) (f : Flags) (n : Nat) : Core :=
  { w := listSet c.w d.val w, a := c.a, fl := f, pc := c.pc + 1, cycles := c.cycles + n }

/-- The registers after an instruction that writes address register `a`. -/
def Core.givesA (c : Core) (a : AReg) (v : BitVec 16) (n : Nat) : Core :=
  { w := c.w, a := listSet c.a a.val v, fl := c.fl, pc := c.pc + 1, cycles := c.cycles + n }

/-- R419: what `n` pops of a window return, and the window after them. -/
def PopWin.pops : Nat → PopWin → List (BitVec 32) × PopWin
  | 0, w => ([], w)
  | n + 1, w => (w.pop.1 :: (PopWin.pops n w.pop.2).1, (PopWin.pops n w.pop.2).2)

end Sys2Proof.Machine
end

