-- ==== Sys2Proof/Certificates/Slice0/Obligations.lean ====
section
/-! DEFINITION. What the model is claimed to do. -/

open Sys2Proof Sys2Proof.Machine

/-! ### The machine as a whole -/

/-- A step with a command at the front of the queue is that command's effect with the rest of the queue. -/
def Obligations.StepTakesTheFrontCommand : Prop :=
  ∀ (c : Instr) (d : Dev) (rest : List Instr), step ⟨d, c :: rest⟩ = exec c ⟨d, rest⟩

/-- On an empty queue one cell time of 8 ns passes, and nothing else happens (the model's choice: notes/assumptions/5.md). -/
def Obligations.IdleStepLetsACellTimePass : Prop :=
  ∀ d : Dev, step ⟨d, []⟩ = .next ⟨{ d with now := d.now + 128 }, []⟩

/-- No command stops the block, none touches the queue, and what a command does to the block does not depend on the queue. -/
def Obligations.EveryCommandCompletes : Prop :=
  ∃ f : Instr → Dev → Dev, ∀ (c : Instr) (s : State), exec c s = .next ⟨f c s.dev, s.pending⟩

/-- A run as long as the queue takes every command, in order, and leaves the queue empty. -/
def Obligations.ARunEmptiesTheQueue : Prop :=
  ∀ s : State, ∃ d, runs s.pending.length s = .next ⟨d, []⟩

/-- Commands given in two parts: running both parts is running the first and then the second. -/
def Obligations.QueuesCompose : Prop :=
  ∀ (d : Dev) (a b : List Instr) (e : Dev),
    runs a.length ⟨d, a⟩ = .next ⟨e, []⟩ → runs a.length ⟨d, a ++ b⟩ = .next ⟨e, b⟩

/-- R552: after every step, SVC_OK is high exactly while its seven conditions hold, if it was so before. -/
def Obligations.EveryStepKeepsSvcTrue : Prop :=
  ∀ s t : State, s.SvcTrue → step s = .next t → t.SvcTrue

/-- R552: SVC_OK is true to its conditions after reset. -/
def Obligations.ResetIsSvcTrue : Prop := State.reset.SvcTrue

/-- R552: each fall of SVC_OK sets PG_EVT.SVC_DROP on page 0x000: at the end of every command, whatever it did. -/
def Obligations.AFallOfSvcOkIsLatched : Prop :=
  ∀ d e : Dev, e.pwr.svcOk = true → e.svcHolds = false →
    (d.closing e).pwr.svcOk = false ∧ bitAt ((d.closing e).rd 0x000 Reg.PG_EVT.EVT) 23 = true

/-- R497, R502: while the fast domains have no clock, no step changes what the block holds, until a command of the always-on
domain comes: only time passes. -/
def Obligations.EveryStepKeepsAsleep : Prop :=
  ∀ (d : Dev) (s t : State), s.Asleep d → step s = .next t → t.Asleep d

/-- Whatever runs: the block's state after a step of a sleeping device is as before, but for the time. -/
def Obligations.AsleepRunsChangeNothing : Prop :=
  ∀ (d : Dev) (n : Nat) (s : State), s.Asleep d → ∃ t, runs n s = .next t ∧ t.Asleep d

/-! ### The register bus (spec/03_register_pages.md) -/

/-- The register accesses (R51, R66 to R71, R88 to R93, R482): with the register bus free and the source's earlier accesses done,
an access is the read or the write of the place that its address names; the rows that name a kind of register are that access at
a register of the kind. One that finds the bus held, or the clock of its domain stopped, waits for it, and on the LHP holds the
cycle. -/
def Obligations.RegisterAccessesComplete : Prop :=
  ∀ (s : State) (a : Access), s.Runs →
    (s.BusFree →
      (s.dev.reaches a.via false = true → Completes (.registerRead a) s (s.dev.readNow a)) ∧
      (s.dev.reaches a.via true = true → Completes (.registerWrite a) s (s.dev.writeNow a)) ∧
      (s.dev.reaches a.via false = true → s.dev.names a (fun f => f.acc == .rc) = true →
        Completes (.clearingRead a) s (s.dev.readNow a)) ∧
      (∀ p off, s.dev.reaches a.via false = true → s.dev.spotOf a.via a.addr = .reg p off → wideAt p off = some off →
        accHigh a = false → Completes (.counterSnapshotRead a) s (s.dev.readNow a)) ∧
      (s.dev.reaches a.via false = true → s.dev.names a (fun f => f.acc == .rp) = true →
        Completes (.pop a) s (s.dev.readNow a)) ∧
      (s.dev.reaches a.via true = true → s.dev.names a (fun f => f.acc == .wp) = true →
        Completes (.push a) s (s.dev.writeNow a)) ∧
      (∀ w, s.dev.reaches a.via true = true → s.dev.spotOf a.via a.addr = .table w → w.shadow = true →
        Completes (.shadowWrite a) s (s.dev.writeNow a)) ∧
      (∀ w, s.dev.reaches a.via true = true → s.dev.spotOf a.via a.addr = .table w → w.shadow = false →
        Completes (.dualWrite a) s (s.dev.writeNow a)) ∧
      (∀ dev off, s.dev.reaches a.via true = true → s.dev.spotOf a.via a.addr = .remote dev off →
        Completes (.remoteAccess a true) s (s.dev.writeNow a) ∧
        (s.dev.reaches a.via false = true → Completes (.remoteAccess a false) s (s.dev.readNow a)))) ∧
    (∀ write, s.dev.sty.busQ = [] → s.dev.reaches a.via write = true → (s.dev.sty.busBy.isSome || s.dev.stopsFor a) = true →
      Completes (if write then .registerWrite a else .registerRead a) s (s.dev.awaitBus a.via (.own a write)))

/-- The tag alias window (R103): a push of the word with tag `t` to transmit queue `q` of the instance of the LHP. -/
def Obligations.TagAliasPushCompletes : Prop :=
  ∀ (s : State) (q : Fin 8) (t : Tag) (data : BitVec 16), s.Runs → s.BusFree → s.dev.reaches .lhp true = true →
    Completes (.tagAliasPush q t data) s
      ((s.dev.entered .lhp).push (s.dev.rd 0x01F Reg.HBR_LHP_CFG.INST) q.val (Word.mk t data) true)

/-- The header commands on a page that is present (R78, R81 to R85): an injected event is latched when the page is not locked, a
write of 1 clears an event, TAKE takes the token when nothing stands in its way, DROP of the holder gives it back, and a write
of PG_LOCK applies. Each is an access of its source (R97, R429, R482): where it reaches the page it enters the register bus first,
whose domain it wakes (R51). A page outside the source's map, or an earlier access that is held, leaves it without effect; while an
AtomicOp has the bus, or the page's clock is stopped, it waits. -/
def Obligations.HeaderCommandsComplete : Prop :=
  ∀ (s : State) (via : Via) (pg : PageRef) (data : BitVec 32) (act : BitVec 5), s.Runs → pagePresent (PageRef.id pg) = true →
    let d := s.dev.entered via
    let p := PageRef.id pg
    ((viaMaps via p = false ∨ s.dev.reaches via true = false) → Completes (.eventInject via pg data) s s.dev) ∧
    (viaMaps via p = true → s.dev.reaches via true = true → s.dev.pageStopped p = true →
      Completes (.eventInject via pg data) s (s.dev.awaitBus via (.named via (.eventInject pg data)))) ∧
    (s.Reached via p →
    (d.locked p = false →
      Completes (.eventInject via pg data) s (d.latch p (Nat.land data.toNat (eventBits p)))) ∧
    Completes (.pgEvtClear via pg data) s
      (d.watching p fun e => e.wr p Reg.PG_EVT.EVT (newBits data.toNat (e.rd p Reg.PG_EVT.EVT))) ∧
    (1 ≤ act.toNat → act.toNat ≤ 11 → (d.wr p Reg.PG_MAINT.ACT act.toNat).maintBlock p act.toNat = none →
      Completes (.take via pg act) s
        ((d.wr p Reg.PG_MAINT.ACT act.toNat).setMaint p ⟨some (act.toNat, viaCode via), none⟩)) ∧
    (∀ x, (d.maintOf p).held = some (x, viaCode via) →
      Completes (.drop via pg) s (d.setMaint p { d.maintOf p with held := none })) ∧
    Completes (.pgLockWrite via pg data) s (d.lockWrite p data.toNat (2 ^ 32 - 1)))

/-- R49: a domain that is idle in Reefed stops its clock; a restart of its domain makes it run, and the register accesses that
waited for it go on (R51). -/
def Obligations.ClockCommandsComplete : Prop :=
  ∀ (s : State), s.Runs →
    (s.dev.pwr.power = .reefed → s.dev.domIdle .core = true →
      Completes (.clockStop .core false) s (s.dev.setPwr { s.dev.pwr with coreStopped := true })) ∧
    (s.dev.pwr.power = .reefed → s.dev.domIdle .engine = true →
      Completes (.clockStop .engine false) s (s.dev.setPwr { s.dev.pwr with engineStopped := true })) ∧
    Completes (.domainRestart .core) s (s.dev.setPwr { s.dev.pwr with coreStopped := false }).drainBus ∧
    Completes (.domainRestart .engine) s (s.dev.setPwr { s.dev.pwr with engineStopped := false }).drainBus

/-- R66: an access to an absent page or a reserved region reads 0 or is discarded, and sets PG_EVT.UNMAPPED on page 0x010; an
access to an offset of a present block page that no register table defines does so on the page itself. -/
def Obligations.AnAbsentPageDiscardsWrites : Prop :=
  ∀ (s : State) (addr : Nat) (be : BitVec 4) (data : BitVec 32), s.Runs → s.BusFree →
    let d := s.dev.entered .mh
    (s.dev.spotOf .mh addr = .hole →
      Completes (.registerWrite ⟨.mh, addr, be, data, 0⟩) s (d.raise 0x010 3) ∧
      Completes (.registerRead ⟨.mh, addr, be, data, 0⟩) s ((d.raise 0x010 3).emitWire (.read .mh 0 0))) ∧
    (addr < 0x100000 → blockPagePresent (addr / 0x1000) = false → s.dev.spotOf .mh addr = .hole) ∧
    (∀ p off, s.dev.spotOf .mh addr = .reg p off → p < 0x100 → be = 0xF →
      (if inMirrors off then offDefined p (off + 0x800) = false else offDefined p off = false) →
      Completes (.registerWrite ⟨.mh, addr, be, data, 0⟩) s (d.raise p 3) ∧
      Completes (.registerRead ⟨.mh, addr, be, data, 0⟩) s ((d.raise p 3).emitWire (.read .mh 0 0)))

/-- R86: a write of an RW field of a locked page is discarded, and sets LOCK_WR: of STY_SCRATCH, with any byte enabled. -/
def Obligations.ALockedPageDiscardsWrites : Prop :=
  ∀ (s : State) (be : BitVec 4) (data : BitVec 32), s.Runs → s.BusFree → s.dev.locked 0x060 = true → be ≠ 0 →
    Completes (.registerWrite ⟨.mh, 0x600E0, be, data, 0⟩) s ((s.dev.entered .mh).raise 0x060 0)

/-- R11, R88: a write of the RW register STY_SCRATCH of a page that is not locked stores all bytes when all are enabled, and the
least significant alone when that one alone is. -/
def Obligations.AnRwWriteStoresEnabledBytes : Prop :=
  ∀ (s : State) (k : Fin 4) (data : BitVec 32), s.Runs → s.BusFree → s.dev.locked 0x060 = false →
    Completes (.registerWrite ⟨.mh, 0x600E0 + 4 * k.val, 0xF, data, 0⟩) s
      ((s.dev.entered .mh).wr 0x060 Reg.STY_SCRATCH.DATA data.toNat k.val) ∧
    Completes (.registerWrite ⟨.mh, 0x600E0 + 4 * k.val, 0x1, data, 0⟩) s
      ((s.dev.entered .mh).wr 0x060 Reg.STY_SCRATCH.DATA
        (s.dev.rd 0x060 Reg.STY_SCRATCH.DATA k.val / 256 * 256 + data.toNat % 256) k.val)

/-- A field of the register map reads what was written, cut to its width, and writing it leaves every field with another place
as it was. -/
def Obligations.FieldsReadBack : Prop :=
  ∀ (d : Dev) (p q : PageId) (f g : Fld) (v i j : Nat), f.wid ≤ 32 →
    (d.wr p f v i).rd p f i = v % 2 ^ f.wid ∧
    (p ≠ q → f.off + f.step * i < 4096 → g.off + g.step * j < 4096 → f.lo < 32 → g.lo < 32 →
      (d.wr p f v i).rd q g j = d.rd q g j)

/-- R78, R79: an event that is latched stays beside those latched before, and nothing but PG_EVT of the page, interrupt requests
and what is driven out changes. -/
def Obligations.EventsAreLatched : Prop :=
  ∀ (d : Dev) (p q : PageId) (mask i : Nat) (f : Fld), mask < 2 ^ 32 →
    (d.latch p mask).rd p Reg.PG_EVT.EVT = Nat.lor (d.rd p Reg.PG_EVT.EVT) mask ∧
    (f.key q i ≠ Reg.PG_EVT.EVT.key p 0 → f.key q i ≠ Reg.HBR_LHP_IRQ.PENDING.key 0x01F 0 →
      (d.latch p mask).rd q f i = d.rd q f i) ∧
    ∃ r x w, d.latch p mask = { d with regs := r, hbr := { d.hbr with msix := x }, wires := w }

/-- R5, R88, R219: the bytes of the table memory after a write with byte enables: the enabled bytes are those of the dword,
least significant first, and every other byte of every bank reads as before. -/
def Obligations.TableBytesAfterAWrite : Prop :=
  ∀ (d : Dev) (b c : BitVec 2) (a x : Nat) (be : BitVec 4) (v : BitVec 32), a + 3 < 0x4000000 → x < 0x4000000 →
    (d.tabWrite b (enabledBytes a be v)).tabByte c x =
      if c = b ∧ a ≤ x ∧ x < a + 4 ∧ be.getLsbD (x - a) = true then v.extractLsb' (8 * (x - a)) 8 else d.tabByte c x

/-! ### Ethernet frame ports (spec/04_frame_ports.md) -/

/-- Reception (R107, R110, R119, R132, R133): the first 64 bytes of a frame go through the receive stages with the corrected time
of its time-stamp point, are jammed under back-pressure, or are ignored when the port was not UP at their first bit; its end
settles it, and a frame that ends before 64 bytes are in is counted as one, is jammed, or is ignored whole. -/
def Obligations.EthernetReceptionCompletes : Prop :=
  ∀ (s : State) (p : Fin 22) (age : Nat) (head tail : List Byte) (how : RxEnd), s.Runs →
    (head.length = 64 → s.dev.rxOpen p.val = true →
      (s.dev.deaf p.val age = false → s.dev.jams p.val = false →
        Completes (.frameHeadReceived p age head) s (s.dev.stages p.val head
          (corrected (s.dev.wall (s.dev.now - age)) (-(signed 16 (s.dev.rd 0x022 Reg.TBU_PORT_DLY.RX_DLY p.val)))))) ∧
      (s.dev.deaf p.val age = false → s.dev.jams p.val = true →
        Completes (.frameHeadReceived p age head) s ((s.dev.emitWire (.jam p.val)).ethAdd p.val 45)) ∧
      (s.dev.deaf p.val age = true →
        Completes (.frameHeadReceived p age head) s
          (s.dev.pushRx p.val ⟨head, 0, none, none, false, false, none, true⟩))) ∧
    (∀ r rs, (s.dev.eport p.val).rx = r :: rs → r.skip = false →
      Completes (.frameEndReceived p ⟨tail, none⟩ how) s ((s.dev.popRx p.val).rxEnds p.val r (r.head ++ tail) how)) ∧
    (∀ r rs, (s.dev.eport p.val).rx = r :: rs → r.skip = true →
      Completes (.frameEndReceived p ⟨tail, none⟩ how) s (s.dev.popRx p.val)) ∧
    (tail.length < 64 → s.dev.rxOpen p.val = true →
      (s.dev.deaf p.val age = false → s.dev.jams p.val = false →
        Completes (.frameEndReceived p ⟨tail, some age⟩ how) s (s.dev.rxEnds p.val (shortFrame tail) tail how)) ∧
      (s.dev.deaf p.val age = false → s.dev.jams p.val = true →
        Completes (.frameEndReceived p ⟨tail, some age⟩ how) s ((s.dev.emitWire (.jam p.val)).ethAdd p.val 45)) ∧
      (s.dev.deaf p.val age = true → Completes (.frameEndReceived p ⟨tail, some age⟩ how) s s.dev))

/-- Flow control, elimination and transmission (R120 to R128): the timers, the refresh of PAUSE and PFC, the starts and ends of
frames, and the verification of preemption. -/
def Obligations.EthernetTransmissionCompletes : Prop :=
  ∀ (s : State), s.Runs →
    (∀ (p : Fin 22) (c : Fin 8), (s.dev.eport p.val).pauseEnd c.val ≠ 0 →
      Completes (.pauseTimerExpiry p c) s
        ((s.dev.reach ((s.dev.eport p.val).pauseEnd c.val)).setEport p.val
          ((s.dev.eport p.val).pauseOver c.val ((s.dev.eport p.val).pauseEnd c.val)))) ∧
    (∀ p : Fin 22, (s.dev.eport p.val).link = .up → (s.dev.eport p.val).ctl = [] →
      let d := s.dev.reach (s.dev.eport p.val).refreshAt
      let quanta := s.dev.rd (ethPage p.val) Reg.ETH_FC_CFG.QUANTA
      let mask := pfcMask (s.dev.rd (ethPage p.val) Reg.ETH_FC_CFG.PFC_EN) (s.dev.eport p.val).xoffAll (s.dev.eport p.val).xoffQ
      (s.dev.txMode p.val = 1 → (s.dev.eport p.val).xoffAll = true →
        Completes (.pauseRefresh p) s (d.sendPause p.val none quanta)) ∧
      (s.dev.txMode p.val = 2 → mask ≠ 0 → Completes (.pauseRefresh p) s (d.sendPause p.val (some mask) quanta))) ∧
    (∀ (pair : Fin 2) (k : Fin 64) x, (s.dev.cbRec (64 * pair.val + k.val)).newest = some x →
      Completes (.cbRecoveryReset pair k) s
        ((s.dev.reach ((s.dev.cbRec (64 * pair.val + k.val)).at_ + s.dev.cbReset (64 * pair.val + k.val))).setCbRec
          (64 * pair.val + k.val) .reset)) ∧
    (∀ p : Fin 22, Completes (.egressFrameStart p) s (s.dev.egressStart p.val)) ∧
    (∀ p : Fin 22, Completes (.frameTxEnd p) s (s.dev.frameTxEnd p.val)) ∧
    (∀ (p : Fin 4) (ok : Bool), s.dev.verifying p.val = true →
      Completes (.preemptVerifyDone p ok) s (s.dev.verifyEnds p.val (if ok then 1 else 2))) ∧
    (∀ p : Fin 4, s.dev.verifying p.val = true →
      let d := s.dev.reach ((s.dev.eport p.val).verifyAt + s.dev.rd (ethPage p.val) Reg.ETH_PREEMPT.VERIFY_MS * Config.perMs)
      Completes (.verifyRetry p) s
        (if (s.dev.eport p.val).tries < 2 then
          (d.emitWire (.verify p.val)).setEport p.val
            { s.dev.eport p.val with verify := 0, tries := (s.dev.eport p.val).tries + 1, verifyAt := d.now }
        else d.verifyEnds p.val 2))

/-- Half duplex and PLCA (R129 to R131): a collision counts and jams; it puts the frame into back-off while attempts are left, and
a late one, or one of the sixteenth attempt, gives the frame up, in its own counter. At the end of back-off the frame is sent again
when the medium is idle and the port has its turn, and waits for that otherwise. A follower that misses its beacons falls back to
CSMA/CD, and follows again when they return. -/
def Obligations.HalfDuplexCompletes : Prop :=
  ∀ (s : State) (p : Fin 6), s.Runs →
    let q := 16 + p.val
    let jammed := (s.dev.ethAdd q 42).emitWire (.jam q)
    (∀ f, (s.dev.eport q).tx = some f →
      Completes (.collision p true) s ((jammed.setEport q { jammed.eport q with tx := none }).txGivenUp q 43 f) ∧
      ((s.dev.eport q).attempts < 16 →
        ((s.dev.eport q).link = .up → Completes (.collision p false) s
          (jammed.setEport q { jammed.eport q with tx := none, held := some f, backoff := true })) ∧
        ((s.dev.eport q).link = .hold → Completes (.collision p false) s
          ((jammed.setEport q { jammed.eport q with tx := none }).requeue q f))) ∧
      (16 ≤ (s.dev.eport q).attempts → Completes (.collision p false) s
        ((jammed.setEport q { jammed.eport q with tx := none }).txGivenUp q 44 f))) ∧
    (∀ f, (s.dev.eport q).held = some f → (s.dev.eport q).backoff = true →
      let d := s.dev.setEport q { s.dev.eport q with backoff := false }
      Completes (.backoffExpiry p) s
        (if (s.dev.eport q).link = .up ∧ (s.dev.eport q).rx = [] ∧ d.opOpen q = true then d.retry q f else d)) ∧
    (s.dev.follower q = true →
      let d := s.dev.reach ((s.dev.eport q).beaconAt + s.dev.bitTime q
        (4 * s.dev.rd (ethPage q) Reg.ETH_MD_CFG.NODE_CNT * s.dev.rd (ethPage q) Reg.ETH_MD_CFG.TO_TMR))
      Completes (.plcaLoss p) s (d.setEport q { s.dev.eport q with beacon := false, csma := true }) ∧
      Completes (.plcaBeaconReturn p) s
        (s.dev.setEport q { s.dev.eport q with
          beacon := true, csma := false, beaconAt := s.dev.now, burst := 0
          opAt := s.dev.now + s.dev.bitTime q
            (s.dev.rd (ethPage q) Reg.ETH_MD_CFG.NODE_ID * s.dev.rd (ethPage q) Reg.ETH_MD_CFG.TO_TMR) }))

/-- Links (R106, R133 to R136, R141): a good link of a port that is DOWN brings it UP, a return from HOLD too, with the test of
what was held; one whose control word names another speed, or whose settings are no valid combination, is noted and the port
stays as it is. Loss, the end of the hold of ports, channels and links, and the enables, whose writes a locked page discards. -/
def Obligations.EthernetLinksComplete : Prop :=
  ∀ (s : State) (p : Fin 22) (via : Via) (sp : BitVec 2), s.Runs →
    (s.dev.linkBarred p.val = false → s.dev.on (ethPage p.val) Reg.PG_CTRL.EN = true →
      let d := (s.dev.sendInBand p.val).setEport p.val { s.dev.eport p.val with
        lock := true, peerSpeed := if s.dev.inBand p.val then some sp.toNat else none }
      let other := s.dev.inBand p.val && sp.toNat != s.dev.rd (ethPage p.val) Reg.ETH_MODE.SPEED
      ((s.dev.eport p.val).link = .down →
        Completes (.linkGood p sp) s (if other || s.dev.modeBad p.val then d else d.becomeUp p.val)) ∧
      ((s.dev.eport p.val).link = .hold →
        Completes (.linkReturn ⟨p, sp⟩) s (if other || s.dev.modeBad p.val then d else (d.becomeUp p.val).testHeld p.val))) ∧
    (∀ part age ins, Completes (.linkLoss p ⟨part, age, ins⟩) s (s.dev.linkLost p.val part age ins)) ∧
    Completes (.holdExpiry (.eth p)) s (s.dev.ethHoldExpiry p.val) ∧
    (∀ c : Fin 32, Completes (.holdExpiry (.can c)) s (s.dev.canHoldExpiry c.val)) ∧
    (∀ l : Fin 4, Completes (.holdExpiry (.link l)) s (s.dev.stayHoldExpiry l.val)) ∧
    (s.Reached via (ethPage p.val) → (s.dev.entered via).locked (ethPage p.val) = false →
      ((s.dev.entered via).on (ethPage p.val) Reg.PG_CTRL.EN = false →
        Completes (.portEnable via p) s ((s.dev.entered via).portOn p.val)) ∧
      ((s.dev.entered via).on (ethPage p.val) Reg.PG_CTRL.EN = true →
        Completes (.portDisable via p) s ((s.dev.entered via).portOff p.val))) ∧
    (s.Reached via (ethPage p.val) → (s.dev.entered via).locked (ethPage p.val) = true →
      Completes (.portEnable via p) s ((s.dev.entered via).raise (ethPage p.val) 0) ∧
      Completes (.portDisable via p) s ((s.dev.entered via).raise (ethPage p.val) 0))

/-- TC10 sleep and wake, and cable diagnostics (R137, R138): the requests of the host, the partner's request and its
acknowledgement, the end of the handshake, a wake-up pulse, which wakes the device where it is an enabled wake event (R499), and
the start and the end of a diagnosis. -/
def Obligations.Tc10CommandsComplete : Prop :=
  ∀ (s : State) (z : Fin 8) (via : Via),
    let p := 4 + z.val
    let d := s.dev.entered via
    (s.Runs → s.Reached via (ethPage p) → d.locked (ethPage p) = false →
      Completes (.sleepReq via z) s
        (if d.tc10En p = true ∧ d.tc10 p = 0 then
          ((d.setTc10 p 1).wr (ethPage p) Reg.ETH_T1_CFG.SLEEP_REQ 1).emitWire (.tc10 p false) else d) ∧
      (d.tc10En p = true →
        Completes (.wakeReq via z) s
          (if d.tc10 p = 2 then (d.emitWire (.tc10 p true)).setTc10 p 3 else d.emitWire (.tc10 p true))) ∧
      Completes (.diagStart via z) s (d.diagStart p (viaCode via))) ∧
    (s.Runs → s.dev.tc10En p = true → s.dev.tc10 p ≤ 1 →
      Completes (.tc10SleepReceived z) s
        ((s.dev.setTc10 p 1).setEport p { s.dev.eport p with sleepRx := true })) ∧
    (s.Runs → s.dev.tc10En p = true → (s.dev.eport p).sleepRx = true → s.dev.egressEmpty p = true →
      Completes (.tc10SleepAck z) s
        ((s.dev.setEport p { s.dev.eport p with sleepRx := false }).emitWire (.tc10 p false))) ∧
    (s.Runs → s.dev.tc10En p = true → s.dev.tc10 p = 1 → (s.dev.eport p).sleepRx = false →
      Completes (.tc10Asleep z) s ((s.dev.setTc10 p 2).wr (ethPage p) Reg.ETH_T1_CFG.SLEEP_REQ 0)) ∧
    (s.Alive →
      (s.dev.wakeDetects 2 z.val false noWakeData = false → Completes (.tc10Wake z) s (s.dev.tc10Wakes z.val)) ∧
      (s.dev.wakeDetects 2 z.val false noWakeData = true →
        Completes (.tc10Wake z) s ((s.dev.tc10Wakes z.val).wakeArrives ⟨2, z.val, noWakeData, s.dev.now⟩))) ∧
    (∀ res dist, s.Runs → s.dev.on (ethPage p) Reg.ETH_T1_CFG.DIAG_START = true →
      Completes (.diagDone z res dist) s
        ((((s.dev.wr (ethPage p) Reg.ETH_T1_CFG.DIAG_RES res.toNat).wr (ethPage p)
          Reg.ETH_T1_CFG.DIAG_DIST dist.toNat).wr (ethPage p) Reg.ETH_T1_CFG.DIAG_START 0).maintEnd (ethPage p) 9))

/-! ### Field buses (spec/05_fieldbus_talkers.md) -/

/-- CAN (R163 to R172, R198): a frame that a channel on the bus receives lowers its receive error counter, is filtered, and is
stored as an item or counted as filtered; one that its mode does not take counts as an error frame. Errors raise the counters,
and a transmitter retries, as after a lost arbitration, unless the lifetime of the frame has expired (R242); that a missing
acknowledgement of an error-passive transmitter raises no counter is the model's (notes/assumptions/55.md). A frame that
completes frees its slots and is delivered, with its time noted in the slot where that is asked for. A channel leaves the bus,
recovers, and joins it. -/
def Obligations.CanCommandsComplete : Prop :=
  ∀ (s : State) (c : Fin 32) (via : Via) (age : Nat), s.Runs →
    let p := canPage c.val
    let x := s.dev.can c.val
    (∀ own f, x.onBus = true → (own = true → s.dev.on p Reg.CAN_CTRL.SELF_RX = true) → s.dev.shut = false →
      s.dev.pwr.silent = false →
      (s.dev.canTakes c.val f.fmt.toNat = false →
        Completes (.canFrameReceived c age own f) s (s.dev.bump p Reg.CAN.ERR_FRAMES)) ∧
      (s.dev.canTakes c.val f.fmt.toNat = true →
        ∃ n, (if x.rec_ ≤ 127 then n = x.rec_ - 1 else 119 ≤ n ∧ n ≤ 127) ∧
          let d := if own then s.dev
            else ((if 127 < x.rec_ then s.dev.drawn else s.dev).setCan c.val ({ x with rec_ := n } : CanCh).judge).driveXlm
              c.val f.fmt.toNat
          let d := d.bump p Reg.CAN.RX_OK
          let r := d.canFilter c.val f.fmt.toNat (f.id.toNat % 2 ^ 29) (d.now - age)
          Completes (.canFrameReceived c age own f) s
            (if r.2.2 then d.bump p Reg.CAN.RX_FILTERED else d.canStore c.val r.1 r.2.1 (canPayload f) (d.ago age)))) ∧
    (∀ tecInc recInc, x.onBus = true →
      let d := (s.dev.bump p Reg.CAN.ERR_FRAMES).setCan c.val
        ({ x with tec := x.tec + tecInc, rec_ := min 255 (x.rec_ + recInc) } : CanCh).judge
      Completes (.canError c ⟨tecInc, recInc⟩ age) s
        (if tecInc = 0 ∧ recInc ≠ 0 then d else (d.canTested c.val (s.dev.now - age)).canRetry c.val (s.dev.now - age))) ∧
    (∀ t, x.onBus = true → (s.dev.canTested c.val (s.dev.now - age)).canOffered c.val (s.dev.now - age) = some t →
      let e := s.dev.canTested c.val (s.dev.now - age)
      let d := if t.ts then e.mramWrite c.val 64 (t.slot - 64) ((slotWords t.n true (e.ago age) t.body).take 5) else e
      let d := d.canFree c.val t
      let d := d.setCan c.val ({ d.can c.val with tec := (d.can c.val).tec - 1 } : CanCh).judge
      let d := ((d.driveXlm c.val (be16 t.body 0)).bump p Reg.CAN.TX_OK).emitWire
        (.can c.val (BitVec.ofNat 16 (be16 t.body 0)) (BitVec.ofNat 32 (be16 t.body 2 * 65536 + be16 t.body 4)) t.body)
      Completes (.canTxDone c age) s ((d.sentAt (0x20 + c.val) t.sid t.mem (e.ago age)).canTested c.val d.now)) ∧
    (x.onBus = true → x.tx ≠ [] →
      Completes (.arbLost ⟨c, age⟩) s
        (((s.dev.canTested c.val (s.dev.now - age)).bump p Reg.CAN.ARB_LOST).canRetry c.val (s.dev.now - age))) ∧
    (x.onBus = true →
      Completes (.busoff c) s
        ((s.dev.setCan c.val { x with
            state := .busOff
            holdAt := some (s.dev.now + s.dev.rd p Reg.CAN_CTRL.HOLD_MS * Config.perMs)
            recover := s.dev.on p Reg.CAN_CTRL.AUTO_RECOV }).bump p Reg.CAN.BUSOFF_EVENTS)) ∧
    (x.state = .busOff → x.recover = true → s.dev.canBad c.val = false →
      Completes (.busoffRecovered c) s
        ((s.dev.setCan c.val { x with
            state := .active, tec := 0, rec_ := 0, holdAt := none, recover := false }).canTestHeld c.val)) ∧
    (s.Reached via p → s.dev.locked p = false → x.state = .busOff →
      Completes (.recover via c) s ((s.dev.entered via).setCan c.val { x with recover := true })) ∧
    (x.state = .disabled → s.dev.on p Reg.PG_CTRL.EN = true → s.dev.canBad c.val = false → s.dev.pwr.silent = false →
      Completes (.canBusJoin c) s (s.dev.setCan c.val { x with state := .active, tec := 0, rec_ := 0 }))

/-- LIN (R173 to R179): a commander's slot starts, at the end of the one before or at once, with the schedule that was asked
for; a schedule change waits for the end of the slot; a responder publishes, counts a skip for a buffer never written, or
awaits the response; a response that is right becomes an item with the identifier before its bytes, and one in error counts;
none counts too. -/
def Obligations.LinCommandsComplete : Prop :=
  ∀ (s : State) (l : Fin 16) (via : Via), s.Runs →
    let p := linPage l.val
    let x := s.dev.lin l.val
    let silent := s.dev.setLin l.val { x with wait := none }
    (s.dev.linOn l.val = true → s.dev.linCommander l.val = true → s.dev.on p Reg.LIN_CTRL.RUN = true → s.dev.shut = false →
      let d := if x.slot.isSome then s.dev.reach x.next else s.dev
      let n := d.linNext l.val
      let d' := if x.switch.isSome then d.raise p 18 else d
      Completes (.linSlotStart l) s
        ((d'.setLin l.val { x with
            slot := some n.1, range := some n.2.1, coll := n.2.2, switch := none, wait := none
            next := d'.now + (d.linEntry l.val n.1).slotMs * Config.perMs }).linSlot l.val n.1)) ∧
    (∀ start stop, s.Reached via p → (s.dev.entered via).locked p = false →
      Completes (.schedSwitch via l start stop) s ((s.dev.entered via).linSwitch l.val start.toNat stop.toNat)) ∧
    (∀ pid age e, s.dev.linOn l.val = true → s.dev.linCommander l.val = false → s.dev.shut = false →
      pid = linPid (pid.toNat % 64) →
      (s.dev.linFind l.val fun e => e.fid == pid.toNat % 64 && (s.dev.linPublishes l.val e || s.dev.linReceives l.val e)) =
        some e →
      Completes (.linHeaderReceived l ⟨pid, true⟩ age) s
        (if e.type ≠ 0 then s.dev.setLin l.val { x with wait := some pid }
        else if (s.dev.linBuf l.val (pid.toNat % 64)).ever then s.dev.linSend l.val e (s.dev.now - age)
        else s.dev.bump p Reg.LIN.LIN_SKIPPED)) ∧
    (∀ age (data : List Byte) pid k e, x.wait = some pid → pid = linPid (pid.toNat % 64) →
      s.dev.linAwaited l.val pid = some (k, e) → data.length = e.dlen →
      Completes (.linResponseReceived l age (data ++ [linCheck e pid data]) true) s
        (silent.capturedItem (0x40 + l.val) (BitVec.ofNat 14 (silent.rd p Reg.LIN_FRM_D1.TALKER k))
          (BitVec.ofNat 3 (silent.rd p Reg.LIN_FRM_D1.CLASS k)) (pid :: (data ++ [linCheck e pid data])) (silent.ago age)) ∧
      ∀ sum, sum ≠ linCheck e pid data →
        Completes (.linResponseReceived l age (data ++ [sum]) true) s (silent.linBad l.val (some (k, e)))) ∧
    (∀ age bytes pid, x.wait = some pid →
      Completes (.linResponseReceived l age bytes false) s (silent.linBad l.val (s.dev.linAwaited l.val pid))) ∧
    (∀ pid, x.wait = some pid → Completes (.noResp l) s ((silent.bump p Reg.LIN.NO_RESP).raise p 17))

/-- UART (R180 to R186): a good character goes to the NMEA or generic framer in the bits of its format; a bad one, and one
that finds the receive FIFO full, drop the item in progress, or the one that they would begin; silence captures it; and a
sentence is sent when its last stop bit is. -/
def Obligations.UartCommandsComplete : Prop :=
  ∀ (s : State) (u : Fin 8), s.Runs →
    let p := uarPage u.val
    (∀ age ch, s.dev.uarOn u.val = true → s.dev.shut = false → s.dev.uarFill u.val < 2048 →
      (s.dev.rd p Reg.UAR_CFG.MODE = 0 →
        Completes (.uartCharReceived u age ch true) s (s.dev.nmeaChar u.val (s.dev.uarData u.val ch) (s.dev.ago age))) ∧
      (s.dev.rd p Reg.UAR_CFG.MODE = 1 →
        Completes (.uartCharReceived u age ch true) s (s.dev.genericChar u.val (s.dev.uarData u.val ch) (s.dev.ago age)))) ∧
    (∀ age ch, s.dev.uarOn u.val = true → (s.dev.uart u.val).open_ = true →
      Completes (.uartCharReceived u age ch false) s (s.dev.uarDrop u.val Reg.UAR.RX_BADCHAR) ∧
      (2048 ≤ s.dev.uarFill u.val →
        Completes (.uartCharReceived u age ch true) s ((s.dev.uarDrop u.val Reg.UAR.RX_OVERRUN).raise p 17))) ∧
    (∀ age ch, s.dev.uarOn u.val = true → s.dev.shut = false → 2048 ≤ s.dev.uarFill u.val →
      s.dev.uarBegins u.val (s.dev.uarData u.val ch) = true →
      Completes (.uartCharReceived u age ch true) s ((s.dev.uarDrop u.val Reg.UAR.RX_OVERRUN).raise p 17)) ∧
    (s.dev.uarOn u.val = true → s.dev.rd p Reg.UAR_CFG.MODE = 1 → s.dev.rd p Reg.UAR_GEN.IDLE ≠ 0 →
      (s.dev.uart u.val).open_ = true → Completes (.uartIdle u) s (s.dev.uarCapture u.val)) ∧
    (∀ sid m t stop, (s.dev.uart u.val).tx = some (sid, m, t, stop) →
      Completes (.uartTxDone u) s
        ((((s.dev.reach stop).setUart u.val { s.dev.uart u.val with tx := none }).bump p Reg.UAR.TX_SENT).sentAt
          (0x50 + u.val) sid m t))

/-- SPI, I²C and the general inputs (R187 to R195): an entry that comes due waits for its turn and starts on an idle bus, or is
skipped while its last item, or its last turn, still waits; a poll's data become an item, or do not where they did not change; a
missing acknowledgement, and a clock stretched too long, end a poll without an item and a write by its tries; writes start between
polls and are delivered at their end; the lines are sampled. -/
def Obligations.PollCommandsComplete : Prop :=
  ∀ (s : State) (b : Fin 8),
    let p := pollPage b.val
    (s.Runs → ∀ k : Fin 32, s.dev.pollOn b.val = true → s.dev.shut = false → s.dev.pollRun b.val = true →
      (s.dev.bus b.val).runAt ≠ none → s.dev.pollValid b.val k.val = true →
      let x := s.dev.poll b.val k.val
      let d := s.dev.reach (s.dev.dueAt b.val k.val x.count)
      Completes (.pollDue b k) s
        (if x.item ≠ 0 ∧ d.heldItem x.item = true then
          ((d.setPoll b.val k.val { x with count := x.count + 1 }).pollSkipped b.val).pollKick b.val
        else ((if x.due then d.pollSkipped b.val else d).setPoll b.val k.val
          { x with count := x.count + 1, due := true }).pollKick b.val)) ∧
    (s.Runs → ∀ (bytes : List Byte) k, (s.dev.bus b.val).job = some (.poll k) →
      let data := bytes.take (s.dev.rd p Reg.POLL_D1.RD_LEN k)
      let x := s.dev.poll b.val k
      let d := (s.dev.bump p Reg.POLL.POLLS_OK).emitWire (.bus b.val (s.dev.pollTail b.val k))
      Completes (.pollCaptured b bytes) s
        ((if d.pollEmits b.val k data then
          (d.setPoll b.val k { x with last := some data, since := 0, item := d.nrm.nextFid }).capturedItem (0x58 + b.val)
            (BitVec.ofNat 14 (d.rd p Reg.POLL_D0.TALKER k)) (BitVec.ofNat 3 (d.rd p Reg.POLL_D0.CLASS k)) data (stampOf d.wclk)
        else d.setPoll b.val k { x with since := x.since + 1 }).busFree b.val)) ∧
    (s.Runs → isSpi b.val = false →
      (∀ k, (s.dev.bus b.val).job = some (.poll k) →
        Completes (.nack b) s (((s.dev.bump p Reg.POLL.NACK).raise p 17).busEnds b.val [.stop]) ∧
        Completes (.i2cTimeout b) s ((s.dev.bump p Reg.POLL.TIMEOUT).busEnds b.val [.clocks 9, .stop])) ∧
      (∀ sid m tries, (s.dev.bus b.val).job = some (.write sid m tries) →
        Completes (.nack b) s
          (if tries < 2 then
            (s.dev.setBus b.val { s.dev.bus b.val with again := some (.write sid m (tries + 1)) }).busEnds b.val [.stop]
          else (s.dev.failsAt (0x58 + b.val) sid m 0x08).busEnds b.val [.stop]) ∧
        Completes (.i2cTimeout b) s ((s.dev.failsAt (0x58 + b.val) sid m 0x08).busEnds b.val [.clocks 9, .stop]))) ∧
    (s.Runs → Completes (.busWriteStart b) s (s.dev.busWrite b.val)) ∧
    (s.Runs → ∀ sid m tries, (s.dev.bus b.val).job = some (.write sid m tries) →
      Completes (.busWriteDone b) s ((s.dev.sentAt (0x58 + b.val) sid m (stampOf s.dev.wclk)).busEnds b.val (writeTail b.val))) ∧
    (s.Alive → ∀ levels : BitVec 32, Completes (.gpiSample levels) s
      ((List.range 32).foldl (fun (d : Dev) i => d.gpiSampled i (bitAt levels.toNat i)) s.dev))

/-! ### Ingress and tables (spec/06_ingress_and_tables.md) -/

/-- Lookups, policing clears, COMMIT and resynchronisation (R201 to R225): a lookup starts on its pipeline; part B of a frame
runs when the frame may run it and there is room; a stream filter is opened and a red latch cleared; a COMMIT is judged, its
swap comes, a part whose drain condition holds is copied, and the last copy ends the resynchronisation. -/
def Obligations.TableCommandsComplete : Prop :=
  ∀ (s : State) (via : Via), s.Runs →
    let d := s.dev.entered via
    (∀ pipe : Fin 4, Completes (.lookup pipe) s (s.dev.lookup pipe.val)) ∧
    (∀ (p : Fin 22) it a, s.dev.nrm.items.find? (s.dev.mayPartB p.val) = some it → it.partA = some a →
      s.dev.partBRoom it a = true →
      Completes (.lookupPartB p) s
        (if namesDevice it.talker it.org it.talker a then (s.dev.dropItem it.fid).refuse3FFF it (it.bank.getD 0)
        else (s.dev.dropItem it.fid).partB it (it.bank.getD 0) a)) ∧
    (s.Reached via 0x028 →
      Completes (.sfUnblock via) s (d.blockFilter (d.rd 0x028 Reg.NRM_SF_SEL.FILTER) false) ∧
      Completes (.redLatchClear via) s
        (d.setMeter (d.rd 0x028 Reg.NRM_FM_SEL.METER) { d.meter (d.rd 0x028 Reg.NRM_FM_SEL.METER) with red := false }) ∧
      Completes (.commit via) s (d.commit (viaCode via)).2) ∧
    Completes .commitSwap s s.dev.commitSwap ∧
    (∀ part r, s.dev.nrm.resync = some r → r.parts.contains part = true → s.dev.drained r.old part = true →
      Completes (.resyncCopy part) s
        { s.dev.copyPart s.dev.nrm.active part with
          nrm := { (s.dev.copyPart s.dev.nrm.active part).nrm with
            resync := some { r with parts := r.parts.filter (· != part) } } }) ∧
    (∀ old, s.dev.nrm.resync = some ⟨old, []⟩ →
      Completes .resyncDone s
        (({ s.dev with nrm := { s.dev.nrm with resync := none } }.maintEnd 0x028 6).raise 0x028 17))

/-- R222: the three cases in which a COMMIT that reaches its page is refused, in their order, and that neither a refusal nor an
acceptance changes the tables or the active bank. -/
def Obligations.CommitsAreRefused : Prop :=
  ∀ (s : State) (via : Via), s.Runs → s.Reached via 0x028 →
    let d := s.dev.entered via
    (d.nrm.resync.isSome = true ∨ d.nrm.swapAt.isSome = true →
      Completes (.commit via) s ((d.wr 0x028 Reg.NRM_COMMIT_STAT.RESULT 1).raise 0x028 18)) ∧
    (d.nrm.resync = none → d.nrm.swapAt = none → (∃ p ∈ [0x028, 0x070, 0x048, 0x050], d.locked p = true) →
      Completes (.commit via) s
        (((([0x028, 0x070, 0x048, 0x050].filter d.locked).foldl (fun (d : Dev) p => d.raise p 0) d).wr
          0x028 Reg.NRM_COMMIT_STAT.RESULT 3).raise 0x028 18)) ∧
    (d.nrm.resync = none → d.nrm.swapAt = none → (∀ p ∈ [0x028, 0x070, 0x048, 0x050], d.locked p = false) →
      (d.maintTake 0x028 6 (viaCode via)).1 = false →
      Completes (.commit via) s
        (((d.maintTake 0x028 6 (viaCode via)).2.wr 0x028 Reg.NRM_COMMIT_STAT.RESULT 2).raise 0x028 18)) ∧
    ∀ t, exec (.commit via) s = .next t → t.dev.nrm.tab = s.dev.nrm.tab ∧ t.dev.nrm.active = s.dev.nrm.active

/-! ### Switch core and buffers (spec/07_switch_core.md, spec/08_buffers_and_congestion.md) -/

/-- Matching, gates, lifetimes, hand-on and order (R228 to R256): a match round; the grant of the waiting cut-through copy whose
lookup ended first, of those whose ports carry no cell; the changes of a gate list, with the hold of a preemptable frame; the expiry
of a copy at the head of its queue, or of an engine-path input there; the hand-on of a queue set; the delivery of a copy that a
receive queue has moved; and the timeout of a resequencer context. -/
def Obligations.SwitchCommandsComplete : Prop :=
  ∀ (s : State) (via : Via), s.Runs →
    Completes .matchRound s s.dev.matchCells.phyNext.cacheNext ∧
    (∀ x, s.dev.expressNext = some x → Completes .expressGrant s (s.dev.expressCross x)) ∧
    (∀ p : Fin 16,
      (s.Reached via (schedPage p.val) → (s.dev.entered via).locked (schedPage p.val) = false →
        Completes (.gclChange via p) s ((s.dev.entered via).gclChange p.val)) ∧
      Completes (.gclChangeTime p) s ((s.dev.gclTime p.val).gateHold p.val) ∧
      Completes (.gclEntryEnd p) s ((s.dev.gclNext p.val).gateHold p.val)) ∧
    (∀ sid m x, s.dev.sen sid = some x → s.dev.expired x = true →
      let input := s.dev.swc.copies.find? fun c => c.sid == sid && c.role == .engine && s.dev.atHead c x
      (∀ c, input = some c → s.dev.stageWaits (if c.place = .medium then 0x7C else 0x78) = false →
        Completes (.lifetimeExpiry sid m) s
          (if c.place = .medium then s.dev.takenExpires sid x else (s.dev.countLifetime x).dropInput sid 0x03 0x78)) ∧
      (input = none → Completes (.lifetimeExpiry sid m) s
        ((s.dev.swc.copies.filter fun c => c.sid == sid && c.role == .member m && s.dev.atHead c x &&
            !s.dev.stageWaits (s.dev.expiryPlace c)).foldl
          (fun d c => d.copyFails c 0x03 (d.expiryPlace c)) s.dev))) ∧
    (∀ set : Fin 1280, Completes (.egressHandOn set) s (s.dev.setTakes set.val)) ∧
    (∀ sid m x c, s.dev.sen sid = some x → (s.dev.swc.copies.find? fun c =>
        c.sid == sid && c.role == .member m && c.place == .medium && decide (0x100 ≤ c.set)) = some c →
      Completes (.memberDelivered sid m) s (s.dev.hostWhole ((c.set - 0x100) / 16) ((c.set - 0x100) % 16) c x)) ∧
    (∀ (out : Fin 20) (talker : BitVec 14) x t, s.dev.ctxOf out.val talker = some x → x.since = some t →
      Completes (.reseqTimeout out talker) s
        ((((s.dev.reach (s.dev.timeoutEnd t)).bump 0x030 Reg.SWC.RESEQ_TIMEOUTS).raise 0x030 18).giveUp x))

/-- Admission, spilling, prefetch, memory faults and the training of the external memory (R257 to R288): admission runs; a
sentence that has waited longer than its lifetime fails; a cell starts to spill, and its spill ends; a cell that is wanted on
chip comes back, by the end of its spill or from external memory; an uncorrectable cell fails its sentence; the memory is
trained, and retrained by the device or by the host, with what a failure of either leaves. -/
def Obligations.BufferCommandsComplete : Prop :=
  ∀ (s : State) (via : Via), s.Runs →
    let d := s.dev.entered via
    Completes .admission s s.dev.admission ∧
    (∀ sid x, s.dev.sen sid = some x → x.waits.isSome = true → s.dev.expired x = true →
      Completes (.admitLifetime sid) s
        (((s.dev.bump 0x040 Reg.BUF.ADMIT_LIFETIME).waitingFails sid 0x03 0x7B).flowOf x.org x.fid)) ∧
    (let e := s.dev.spillFollow
     ∀ n sid j h, e.xmMoves = true → e.prefetchWaits = false → e.extFree ≠ 0 →
      e.chipFree < e.rd 0x040 (if s.dev.xm.spill then Reg.BUF_SPILL.OFF else Reg.BUF_SPILL.ON) →
      deepest e.spillable = some (n, sid, j) →
      (e.sen sid).map (fun y => listGet (CellAt.ext 0) y.cells j) = some (.chip h) →
      let x := pickFree e.extsUsed (e.xm.cellsMi * 2 ^ 20) e.freeBits.toNat (e.extsUsed.length + 1)
      e.xm.spill = true ∧ Completes .spill s (e.drawn.setCell sid j (.spilling h x))) ∧
    (s.dev.xm.retrain = false →
      (∀ sid j h x, s.dev.cellsWhere (fun _ _ c => match c with | .spilling _ _ => true | _ => false) =
          some (sid, j, .spilling h x) →
        Completes .spillDone s
          (if s.dev.xmOn = true ∧ s.dev.spillAllowed sid j = true then
            ((s.dev.setCell sid j (.ext x)).bump 0x040 Reg.BUF.SPILLED).countCells
              (match s.dev.sen sid with | some y => y.inp | none => 0) (18 + x % 2) 1
          else s.dev.setCell sid j (.chip h))) ∧
      (∀ sid j c, s.dev.cellsWhere (fun sid j c =>
          (match c with | .spilling _ _ => true | .ext _ => decide (0 < s.dev.chipFree) | _ => false) && s.dev.wanted sid j) =
          some (sid, j, c) →
        (∀ h x, c = .spilling h x → Completes .prefetch s ((s.dev.setCell sid j (.chip h)).cellBack sid)) ∧
        ∀ x, c = .ext x →
          Completes .prefetch s (s.dev.drawn.setCell sid j
            (.fetching x (pickFree s.dev.chipsUsed Config.onChipCells s.dev.freeBits.toNat (s.dev.chipsUsed.length + 1))))) ∧
      (∀ sid j h x, s.dev.cellsWhere (fun _ _ c => match c with | .fetching _ _ => true | _ => false) =
          some (sid, j, .fetching x h) →
        let d := (((s.dev.setCell sid j (.chip h)).cellBack sid).bump 0x040 Reg.BUF.PREFETCHED).bump64 0x030
          Reg.SWC_XIN_CELLS_LO.N Reg.SWC_XIN_CELLS_HI.N 1 (18 + x % 2)
        Completes .prefetchDone s (if d.freeBits.getLsbD 0 = true then d.drawn.fault 0x040 0x08 0x7B else d.drawn))) ∧
    (∀ sid cell x, s.dev.sen sid = some x → cell < (s.dev.cellsOf x).length →
      (s.dev.takenBy sid = none ∨ (s.dev.swc.voq.any fun y => y.sid == sid) = true) →
      let c := listGet (.ext 0) (s.dev.cellsOf x) cell
      (∀ h, c = .chip h →
        Completes (.memFault sid cell) s
          (((s.dev.bump 0x001 Reg.PCH.SRAM_UNCORR).cellUnread sid).fault 0x040 0x02 0x7B h x.shb.talker x.shb.seq)) ∧
      (∀ k, c = .ext k →
        Completes (.memFault sid cell) s
          ((s.dev.cellUnread sid).fault 0x040 0x09 0x7B (0x1000000 + k) x.shb.talker x.shb.seq))) ∧
    (s.dev.on 0x040 Reg.BUF_XM_CFG.EN = true → s.dev.xm.training = false → s.dev.xm.ready = false → s.dev.xm.fail = false →
      Completes .xmTraining s (if s.dev.xm.latched = true then { s.dev with xm := { s.dev.xm with training := true } }
       else { s.dev with xm := { s.dev.xm with
        training := true
        latched := true
        rate := s.dev.rd 0x040 Reg.BUF_XM_CFG.RATE
        density := s.dev.rd 0x040 Reg.BUF_XM_CFG.DENSITY
        cellsMi := s.dev.rd 0x040 Reg.BUF_XM_CFG.CELLS_MI
        extRing := s.dev.on 0x020 Reg.TBU_RING_CFG.EXT
        extLog2 := extFit (s.dev.rd 0x040 Reg.BUF_XM_CFG.DENSITY) (s.dev.rd 0x040 Reg.BUF_XM_CFG.CELLS_MI)
          (s.dev.rd 0x020 Reg.TBU_RING_CFG.EXT_LOG2) } })) ∧
    (s.dev.xm.training = true → s.dev.xm.retrain = false →
      Completes (.xmTrainingDone true) s
        { s.dev with xm := { s.dev.xm with training := false, ready := true, temp := s.dev.tj, due := s.dev.retrainDue } } ∧
      Completes (.xmTrainingDone false) s
        ({ s.dev with xm := { s.dev.xm with training := false, fail := true } }.fault 0x040 0x0A 0x7B)) ∧
    (s.dev.xm.ready = true → s.dev.xm.training = false → (s.dev.xm.due ≠ 0 ∨ s.dev.tempMoved = true) →
      let e := (if s.dev.tempMoved then s.dev else s.dev.reach s.dev.xm.due).reach s.dev.xm.retryAt
      Completes .xmRetrain s
        (if (e.maintTake 0x040 3 0).1 then (e.maintTake 0x040 3 0).2.retrainStarts
        else { (e.maintTake 0x040 3 0).2 with xm := { s.dev.xm with retryAt := e.now + 100 * Config.perMs } })) ∧
    (s.Reached via 0x040 → d.locked 0x040 = false → d.xm.ready = true → d.xm.training = false →
      Completes (.xmRetrainStart via) s
        (if (d.maintTake 0x040 3 (viaCode via)).1 then (d.maintTake 0x040 3 (viaCode via)).2.retrainStarts
        else (d.maintTake 0x040 3 (viaCode via)).2)) ∧
    (s.dev.xm.retrain = true →
      let e := s.dev.maintEnd 0x040 3
      Completes (.xmRetrainDone true) s
        { e with xm := { e.xm with training := false, retrain := false, temp := e.tj, due := e.retrainDue } } ∧
      (let hit := e.swc.sens.filter fun x => x.2.cells.any CellAt.external
       let f : Dev := { e with
        xm := { e.xm with training := false, retrain := false, fail := true, ready := false }
        insts := { e.insts with images := [] } }
       let f := hit.foldl (fun (d : Dev) x => d.memFails x.1) f
       Completes (.xmRetrainDone false) s ((if e.xm.extRing then f.ringShrinks else f).fault 0x040 0x0A 0x7B hit.length)))

/-! ### Engines (spec/09_engine_array.md) -/

/-- The engine array (R290 to R317): an engine takes an entry, its own or a stolen one, whose lifetime has not expired, and
its run starts, or fails where no program is loaded; commit, faults, watchdog and self-tests, with what returns to service and
what retires; the rotation picks an engine and tests it when it is free; the service commands, the credits, the host's writes
of talker state, and the cancellation of the runs of an instance that is being reset. -/
def Obligations.EngineCommandsComplete : Prop :=
  ∀ (s : State) (via : Via), s.Runs →
    (∀ (k : Fin 72) x stolen, (s.dev.spe k.val).state = .idle → s.dev.workFor k.val = some (x, stolen) →
      s.dev.entryExpires x = none →
      let d := if stolen then s.dev.bump 0x050 Reg.ENG.STOLEN else s.dev
      let d := ((d.leaveDeque x.sid).lockFor x).toEngine x.sid (spePort k.val)
      let e := d.setSpe k.val { d.spe k.val with state := .running, run := some (d.newRun x) }
      Completes (.engineTake k) s (if (d.newRun x).len = 0 then e.programFault k.val else e)) ∧
    (∀ k : Fin 72, Completes (.runCommit k) s (s.dev.commitRun k.val)) ∧
    (∀ (k : Fin 72), s.dev.inSvc k.val = true →
      (∀ r, (s.dev.spe k.val).run = some r →
        Completes (.speHwFault k) s (((s.dev.discardRun r).quarantine k.val).reexecute k.val r.ent)) ∧
      ((s.dev.spe k.val).run = none → Completes (.speHwFault k) s (s.dev.quarantine k.val))) ∧
    (∀ (k : Fin 72) r, (s.dev.spe k.val).run = some r → r.ended = false → r.limit ≤ r.core.cycles →
      Completes (.wdogExpired k) s
        ((((s.dev.discardRun r).bump 0x050 Reg.ENG.WDOG_EXPIRED).engineFree k.val).reexecute k.val r.ent)) ∧
    (∀ k : Fin 72, (s.dev.spe k.val).state = .selfTest →
      let x := s.dev.spe k.val
      let d := if x.rotating then s.dev.maintEnd 0x050 4 else s.dev
      let idle : Spe := { x with state := .idle, rotating := false, returning := false }
      (x.returning = true →
        Completes (.selfTestDone k true) s
          (((d.setSpe k.val { idle with retired := false, faults := 0 }).drainPending.raise 0x050 18).wr 0x050 Reg.ENG_SVC.RESULT 1) ∧
        Completes (.selfTestDone k false) s
          (((d.setSpe k.val { idle with state := .retired }).raise 0x050 22).wr 0x050 Reg.ENG_SVC.RESULT 3)) ∧
      (x.returning = false → x.retiring = false →
        ((x.rotating = true ∨ x.faults ≤ 2) → Completes (.selfTestDone k true) s (d.setSpe k.val idle).drainPending) ∧
        Completes (.selfTestDone k false) s ((d.raise 0x050 22).retire k.val))) ∧
    (∀ e, s.dev.on 0x050 Reg.ENG_ST_CFG.EN = true → 65 ≤ s.dev.inService → (s.dev.maintTake 0x050 4 0).1 = true →
      (s.dev.maintTake 0x050 4 0).2.nextTested = some e →
      let d := (s.dev.maintTake 0x050 4 0).2.wr 0x050 Reg.ENG_ST_CFG.NEXT ((e + 1) % 72)
      let d := d.setSpe e { d.spe e with rotating := true }
      Completes .selfTestRotation s (if (d.spe e).run.isSome then d else d.startTest e)) ∧
    (s.Reached via 0x050 → (s.dev.entered via).locked 0x050 = false →
      Completes (.engReturn via) s (s.dev.entered via).toEngines.engReturn ∧
      Completes (.engRetire via) s (s.dev.entered via).toEngines.engRetire ∧
      ∀ data, Completes (.tsWrite via data) s ((s.dev.entered via).toEngines.tsWrite via data)) ∧
    (s.dev.on 0x050 Reg.ENG_SHARE_CFG.EN = true →
      Completes .creditRefill s ((List.range 64).foldl (fun e n =>
        if s.dev.weightOf n = 0 then e
        else e.setCredit n (min (s.dev.rd 0x050 Reg.ENG_SHARE_CFG.BURST_KC * 1024 : Nat)
          (s.dev.credit n +
            (s.dev.weightOf n * s.dev.inService * 800 / sumOf s.dev.weightOf (List.range 64) : Nat)))) s.dev)) ∧
    Completes .tsWriteApply s s.dev.tsApply ∧
    (∀ (n : Fin 64) t, (s.dev.inst n.val).resetAt = some t →
      Completes (.runCancel n) s ((s.dev.reach (t + 50 * Config.perUs)).cancelRuns n.val))

/-! ### Sentence programs (spec/10_engine_instruction_set.md) -/

/-- R326, R320: the additions and subtractions: the destination holds the low 16 bits of the exact result with tag 0b01, the flags
follow R320, the compares write no register, and nothing else changes but the program counter and the cycles. -/
def Obligations.ArithmeticInstructions : Prop :=
  ∀ (s : State) (u : Sys2Proof.PUnit) (c : Core) (d x y : WReg) (imm : BitVec 16),
    (s.Ready u c (encode 0x0C d.val x.val y.val 0 0) →
      StepsTo (.add u d x y) s u s.dev (c.gives d (Word.mk 1 (c.dat x + c.dat y)) (sumFlags (c.dat x) (c.dat y) false) 1)) ∧
    (s.Ready u c (encode 0x0D d.val x.val y.val 0 0) →
      StepsTo (.adc u d x y) s u s.dev
        (c.gives d (Word.mk 1 (c.dat x + c.dat y + BitVec.ofNat 16 c.fl.c.toNat)) (sumFlags (c.dat x) (c.dat y) c.fl.c) 1)) ∧
    (s.Ready u c (encode 0x0E d.val x.val y.val 0 0) →
      StepsTo (.sub u d x y) s u s.dev (c.gives d (Word.mk 1 (c.dat x - c.dat y)) (diffFlags (c.dat x) (c.dat y) false) 1)) ∧
    (s.Ready u c (encode 0x0F d.val x.val y.val 0 0) →
      StepsTo (.sbc u d x y) s u s.dev
        (c.gives d (Word.mk 1 (c.dat x - c.dat y - 1 + BitVec.ofNat 16 c.fl.c.toNat))
          (diffFlags (c.dat x) (c.dat y) (!c.fl.c)) 1)) ∧
    (s.Ready u c (encode 0x14 d.val x.val 0 0 imm.toNat) →
      StepsTo (.addi u d x imm) s u s.dev (c.gives d (Word.mk 1 (c.dat x + imm)) (sumFlags (c.dat x) imm false) 1)) ∧
    (s.Ready u c (encode 0x15 d.val x.val 0 0 imm.toNat) →
      StepsTo (.subi u d x imm) s u s.dev (c.gives d (Word.mk 1 (c.dat x - imm)) (diffFlags (c.dat x) imm false) 1)) ∧
    (s.Ready u c (encode 0x19 0 x.val y.val 0 0) →
      StepsTo (.cmp u x y) s u s.dev
        { c with fl := diffFlags (c.dat x) (c.dat y) false, pc := c.pc + 1, cycles := c.cycles + 1 }) ∧
    (s.Ready u c (encode 0x1A 0 x.val 0 0 imm.toNat) →
      StepsTo (.cmpi u x imm) s u s.dev
        { c with fl := diffFlags (c.dat x) imm false, pc := c.pc + 1, cycles := c.cycles + 1 })

/-- R326, R320: logic, shifts, bit fields and the product. -/
def Obligations.LogicAndShiftInstructions : Prop :=
  ∀ (s : State) (u : Sys2Proof.PUnit) (c : Core) (d x y : WReg) (imm : BitVec 16) (n p w : BitVec 4),
    (s.Ready u c (encode 0x10 d.val x.val y.val 0 0) →
      StepsTo (.and u d x y) s u s.dev
        (c.gives d (Word.mk 1 (c.dat x &&& c.dat y)) (resultFlags (c.dat x &&& c.dat y) false) 1)) ∧
    (s.Ready u c (encode 0x11 d.val x.val y.val 0 0) →
      StepsTo (.or u d x y) s u s.dev
        (c.gives d (Word.mk 1 (c.dat x ||| c.dat y)) (resultFlags (c.dat x ||| c.dat y) false) 1)) ∧
    (s.Ready u c (encode 0x12 d.val x.val y.val 0 0) →
      StepsTo (.xor u d x y) s u s.dev
        (c.gives d (Word.mk 1 (c.dat x ^^^ c.dat y)) (resultFlags (c.dat x ^^^ c.dat y) false) 1)) ∧
    (s.Ready u c (encode 0x13 d.val x.val 0 0 0) →
      StepsTo (.not u d x) s u s.dev (c.gives d (Word.mk 1 (~~~(c.dat x))) (resultFlags (~~~(c.dat x)) false) 1)) ∧
    (s.Ready u c (encode 0x16 d.val x.val 0 0 imm.toNat) →
      StepsTo (.andi u d x imm) s u s.dev (c.gives d (Word.mk 1 (c.dat x &&& imm)) (resultFlags (c.dat x &&& imm) false) 1)) ∧
    (s.Ready u c (encode 0x17 d.val x.val 0 0 imm.toNat) →
      StepsTo (.ori u d x imm) s u s.dev (c.gives d (Word.mk 1 (c.dat x ||| imm)) (resultFlags (c.dat x ||| imm) false) 1)) ∧
    (s.Ready u c (encode 0x18 d.val x.val 0 0 imm.toNat) →
      StepsTo (.xori u d x imm) s u s.dev (c.gives d (Word.mk 1 (c.dat x ^^^ imm)) (resultFlags (c.dat x ^^^ imm) false) 1)) ∧
    (s.Ready u c (encode 0x1B d.val x.val 0 0 n.toNat) →
      StepsTo (.shl u d x n) s u s.dev
        (c.gives d (Word.mk 1 (c.dat x <<< n.toNat))
          (resultFlags (c.dat x <<< n.toNat) (decide (n ≠ 0) && decide ((c.dat x).toNat * 2 ^ n.toNat / 65536 % 2 = 1))) 1)) ∧
    (s.Ready u c (encode 0x1C d.val x.val 0 0 n.toNat) →
      StepsTo (.shr u d x n) s u s.dev
        (c.gives d (Word.mk 1 (c.dat x >>> n.toNat))
          (resultFlags (c.dat x >>> n.toNat)
            (decide (n ≠ 0) && decide ((c.dat x).toNat / 2 ^ (n.toNat - 1) % 2 = 1))) 1)) ∧
    (s.Ready u c (encode 0x1D d.val x.val 0 0 n.toNat) →
      StepsTo (.sar u d x n) s u s.dev
        (c.gives d (Word.mk 1 ((c.dat x).sshiftRight n.toNat))
          (resultFlags ((c.dat x).sshiftRight n.toNat)
            (decide (n ≠ 0) && decide ((c.dat x).toNat / 2 ^ (n.toNat - 1) % 2 = 1))) 1)) ∧
    (s.Ready u c (encode 0x1E d.val x.val y.val 0 0) →
      StepsTo (.mul u d x y) s u s.dev
        { c with
          w := listSet (listSet c.w d.val (Word.mk 1 (BitVec.ofNat 16 ((c.dat x).toNat * (c.dat y).toNat)))) (d.val + 1)
            (Word.mk 1 (BitVec.ofNat 16 ((c.dat x).toNat * (c.dat y).toNat / 65536)))
          fl := { z := decide ((c.dat x).toNat * (c.dat y).toNat = 0)
                  n := decide (2 ^ 31 ≤ (c.dat x).toNat * (c.dat y).toNat)
                  c := decide (65536 ≤ (c.dat x).toNat * (c.dat y).toNat), v := false, e := false, x := false }
          pc := c.pc + 1, cycles := c.cycles + 2 }) ∧
    (s.Ready u c (encode 0x1F d.val x.val 0 0 (w.toNat * 16 + p.toNat)) →
      StepsTo (.ext u d x p w) s u s.dev
        (c.gives d (Word.mk 1 (BitVec.ofNat 16 ((c.dat x).toNat / 2 ^ p.toNat % 2 ^ (w.toNat + 1))))
          (resultFlags (BitVec.ofNat 16 ((c.dat x).toNat / 2 ^ p.toNat % 2 ^ (w.toNat + 1))) false) 1)) ∧
    (s.Ready u c (encode 0x20 d.val x.val 0 0 (w.toNat * 16 + p.toNat)) →
      ∃ r : BitVec 16, StepsTo (.ins u d x p w) s u s.dev (c.gives d (Word.mk 1 r) (resultFlags r false) 1) ∧
        ∀ i : Fin 16, r.getLsbD i.val =
          if p.toNat ≤ i.val ∧ i.val ≤ p.toNat + w.toNat then (c.dat x).getLsbD (i.val - p.toNat)
          else (c.dat d).getLsbD i.val)

/-- R326, R319: moves between registers. -/
def Obligations.MoveInstructions : Prop :=
  ∀ (s : State) (u : Sys2Proof.PUnit) (c : Core) (d x : WReg) (a : AReg) (tg : Tag) (imm : BitVec 16),
    (s.Ready u c (encode 0x00 0 0 0 0 0) →
      StepsTo (.nop u) s u s.dev { c with pc := c.pc + 1, cycles := c.cycles + 1 }) ∧
    (s.Ready u c (encode 0x01 d.val x.val 0 0 0) →
      StepsTo (.mov u d x) s u s.dev (c.gives d (c.wreg x) (wordFlags c.fl (c.wreg x)) 1)) ∧
    (s.Ready u c (encode 0x02 d.val 0 0 tg.toNat imm.toNat) →
      StepsTo (.ldi u d tg imm) s u s.dev (c.gives d (Word.mk tg imm) (wordFlags c.fl (Word.mk tg imm)) 1)) ∧
    (s.Ready u c (encode 0x03 d.val x.val 0 tg.toNat 0) →
      StepsTo (.tag u d x tg) s u s.dev (c.gives d (Word.mk tg (c.dat x)) (wordFlags c.fl (Word.mk tg (c.dat x))) 1)) ∧
    (s.Ready u c (encode 0x08 0 0 (encodeA a.val false) 0 imm.toNat) →
      StepsTo (.lda u a imm) s u s.dev (c.givesA a imm 1)) ∧
    (s.Ready u c (encode 0x09 0 0 (encodeA a.val false) 0 imm.toNat) →
      StepsTo (.adda u a imm) s u s.dev (c.givesA a (c.areg a + imm) 1)) ∧
    (s.Ready u c (encode 0x0A 0 x.val (encodeA a.val false) 0 0) →
      StepsTo (.mova u a x) s u s.dev (c.givesA a (c.dat x) 1)) ∧
    (s.Ready u c (encode 0x0B d.val 0 (encodeA a.val false) 0 0) →
      StepsTo (.movw u d a) s u s.dev (c.gives d (Word.mk 1 (c.areg a)) (wordFlags c.fl (Word.mk 1 (c.areg a))) 1))

/-- R321, R326: branches: taken to the target in 2 cycles, or on to the next slot in 1. -/
def Obligations.BranchInstructions : Prop :=
  ∀ (s : State) (u : Sys2Proof.PUnit) (c : Core) (x : WReg) (a : AReg) (tg : Tag) (cond : BitVec 4) (target : BitVec 12),
    (s.Ready u c (encode 0x21 cond.toNat 0 0 0 target.toNat) →
      StepsTo (.br u cond target) s u s.dev
        (if c.fl.holds cond then { c with pc := target.toNat, cycles := c.cycles + 2 }
         else { c with pc := c.pc + 1, cycles := c.cycles + 1 })) ∧
    (s.Ready u c (encode 0x22 0 x.val 0 tg.toNat target.toNat) →
      StepsTo (.btag u x tg target) s u s.dev
        (if (c.wreg x).tag = tg then { c with pc := target.toNat, cycles := c.cycles + 2 }
         else { c with pc := c.pc + 1, cycles := c.cycles + 1 })) ∧
    (s.Ready u c (encode 0x23 0 0 (encodeA a.val false) 0 target.toNat) →
      StepsTo (.dbnz u a target) s u s.dev
        { c with
          a := listSet c.a a.val (c.areg a - 1)
          pc := if c.areg a = 1 then c.pc + 1 else target.toNat
          cycles := if c.areg a = 1 then c.cycles + 1 else c.cycles + 2 })

/-- R322 to R324, R326, R329 to R331: loads, stores and the instructions of sentences, slots and time, where the address is in
range and no staging limit is exceeded; elsewhere the program faults (R306). -/
def Obligations.MemoryInstructions : Prop :=
  ∀ (s : State) (k : Fin 72) (c : Core) (d x : WReg) (a : AReg) (inc : Bool) (imm : BitVec 16),
    (∀ u w n, s.Ready u c (encode 0x04 d.val 0 (encodeA a.val inc) 0 imm.toNat) →
      s.dev.loadAt u (c.areg a + imm).toNat = some (w, n) →
      StepsTo (.ld u d a inc imm) s u s.dev
        { w := listSet c.w d.val w, fl := wordFlags c.fl w, pc := c.pc + 1, cycles := c.cycles + n
          a := if inc then listSet c.a a.val (c.areg a + 1) else c.a }) ∧
    (∀ u e, s.Ready u c (encode 0x05 d.val 0 (encodeA a.val inc) 0 imm.toNat) →
      s.dev.storeAt u (c.areg a + imm).toNat (c.wreg d) = some e →
      StepsTo (.st u d a inc imm) s u e
        { c with pc := c.pc + 1, cycles := c.cycles + 1, a := if inc then listSet c.a a.val (c.areg a + 1) else c.a }) ∧
    (∀ u w, s.Ready u c (encode 0x06 d.val 0 (encodeA a.val inc) 0 imm.toNat) →
      s.dev.byteAt u (c.areg a + imm).toNat = some w →
      StepsTo (.ldb u d a inc imm) s u s.dev
        { w := listSet c.w d.val w, fl := wordFlags c.fl w, pc := c.pc + 1, cycles := c.cycles + 1
          a := if inc then listSet c.a a.val (c.areg a + 1) else c.a }) ∧
    (∀ u e, s.Ready u c (encode 0x07 d.val 0 (encodeA a.val inc) 0 imm.toNat) →
      s.dev.putByteAt u (c.areg a + imm).toNat ((c.wreg d).extractLsb' 0 8) = some e →
      StepsTo (.stb u d a inc imm) s u e
        { c with pc := c.pc + 1, cycles := c.cycles + 1, a := if inc then listSet c.a a.val (c.areg a + 1) else c.a }) ∧
    (∀ u, s.Ready u c (encode 0x24 0 0 0 0 0) →
      StepsTo (.endProg u) s u (s.dev.unitEnds u) { c with pc := c.pc + 1, cycles := c.cycles + 1 }) ∧
    (∀ r i, s.Ready (.spe k) c (encode 0x25 0 0 (encodeA a.val false) 0 0) → (s.dev.spe k.val).run = some r →
      outIndex (c.areg a).toNat 8 = some i → r.emitted i 8 = false →
      StepsTo (.hdr (.spe k) a) s (.spe k) (s.dev.setRun k.val (s.dev.headerTo r i))
        { c with pc := c.pc + 1, cycles := c.cycles + 4 }) ∧
    (∀ r i r', s.Ready (.spe k) c (encode 0x26 0 x.val (encodeA a.val false) 0 0) → (s.dev.spe k.val).run = some r →
      r.emask &&& s.dev.lmask r ≠ 0 → outIndex (c.areg a).toNat (outWords ((c.dat x).toNat % 16384)) = some i →
      s.dev.stageOutput r i ((c.dat x).toNat % 16384) = some r' →
      StepsTo (.emit (.spe k) a x) s (.spe k) (s.dev.setRun k.val r') { c with pc := c.pc + 1, cycles := c.cycles + 4 }) ∧
    (∀ r, s.Ready (.spe k) c (encode 0x27 d.val x.val 0 0 0) → (s.dev.spe k.val).run = some r →
      StepsTo (.sld (.spe k) d x) s (.spe k) s.dev
        { c.set64 d.val (s.dev.slotLoad r (c.dat x).toNat).1 with
          fl := ⟨!(s.dev.slotLoad r (c.dat x).toNat).2, false, false, false, false, false⟩
          pc := c.pc + 1, cycles := c.cycles + 6 }) ∧
    (∀ r r', s.Ready (.spe k) c (encode 0x28 d.val x.val 0 0 0) → (s.dev.spe k.val).run = some r →
      r.slotStage (c.dat x).toNat (c.get64 d.val) = some r' →
      StepsTo (.sst (.spe k) d x) s (.spe k) (s.dev.setRun k.val r') { c with pc := c.pc + 1, cycles := c.cycles + 2 }) ∧
    (s.Ready (.spe k) c (encode 0x29 d.val 0 0 0 0) →
      StepsTo (.time (.spe k) d) s (.spe k) s.dev
        { c.set64 d.val (stampOf s.dev.wclk) with pc := c.pc + 1, cycles := c.cycles + 2 })

/-- R325: no bit of an instruction is dropped: the fields of the encoded word are the fields that were encoded. -/
def Obligations.EncodingKeepsEveryField : Prop :=
  ∀ op d x y tg imm : Nat, op < 64 → d < 16 → x < 16 → y < 16 → tg < 4 → imm < 65536 →
    (encode op d x y tg imm).toNat / 2 ^ 30 = op ∧ (encode op d x y tg imm).toNat / 2 ^ 26 % 16 = d ∧
    (encode op d x y tg imm).toNat / 2 ^ 22 % 16 = x ∧ (encode op d x y tg imm).toNat / 2 ^ 18 % 16 = y ∧
    (encode op d x y tg imm).toNat / 2 ^ 16 % 4 = tg ∧ (encode op d x y tg imm).toNat % 65536 = imm

/-- R306, R325, R328: a slot that holds a reserved encoding, and execution at or above the end of the program, are program
faults, whichever instruction the command names. -/
def Obligations.ReservedEncodingsFault : Prop :=
  ∀ (i : Instr) (s : State) (u : Sys2Proof.PUnit) (c : Core), Instr.unit i = some u → s.Alive → s.dev.coreOf u = some c →
    (s.dev.slotAt u c.pc = none → Completes i s (s.dev.unitFault u)) ∧
    (∀ w, s.dev.slotAt u c.pc = some w → s.dev.badRead u c w = none → legal w (isWatch u) = false →
      Completes i s (s.dev.unitFault u))

/-- R321: when each condition of BR is taken. -/
def Obligations.ConditionsOfBranches : Prop :=
  ∀ (f : Flags),
    f.holds 0x0 = true ∧ (f.holds 0x1 = true ↔ f.z = true) ∧ (f.holds 0x2 = true ↔ f.z = false) ∧
    (f.holds 0x3 = true ↔ f.c = true) ∧ (f.holds 0x4 = true ↔ f.c = false) ∧ (f.holds 0x5 = true ↔ f.n = true) ∧
    (f.holds 0x6 = true ↔ f.n = false) ∧ (f.holds 0x7 = true ↔ f.v = true) ∧ (f.holds 0x8 = true ↔ f.v = false) ∧
    (f.holds 0x9 = true ↔ f.c = true ∧ f.z = false) ∧ (f.holds 0xA = true ↔ f.c = false ∨ f.z = true) ∧
    (f.holds 0xB = true ↔ f.n = f.v) ∧ (f.holds 0xC = true ↔ f.n ≠ f.v) ∧
    (f.holds 0xD = true ↔ f.z = true ∨ f.n ≠ f.v) ∧ (f.holds 0xE = true ↔ f.e = true) ∧ (f.holds 0xF = true ↔ f.e = false)

/-! ### Signal gateway (spec/11_signal_gateway.md) -/

/-- The gateway (R335 to R357): the cut stage cuts the sentence that it accepted first; the host writes the two halves of a
slot value; a VALID slot that has aged is marked stale; a periodic list's firing falls due, and the next one a period after
it; a dirty on-change list whose payload differs from the last one sent fires, in a cycle after the write and after its least
gap; the firing that was due first starts, 125 ns after the one before at the earliest; the head of set 0x079 makes a message
of its ACF list, by the tables of its bank; and a list whose messages have waited for the hold time fires. -/
def Obligations.GatewayCommandsComplete : Prop :=
  ∀ (s : State) (via : Via) (data : BitVec 32) (l : BitVec 12), s.Runs →
    let d := s.dev.entered via
    let r := viaCode via
    (∀ h body rest, s.dev.gwy.cuts = (h, body) :: rest →
      Completes .cut s ({ s.dev with gwy := { s.dev.gwy with cuts := rest } }.cutSentence h body)) ∧
    (s.Reached via 0x048 → d.locked 0x048 = false →
      Completes (.slotVloWrite via data) s
        { d with gwy := { d.gwy with vlo := SMap.put (fun _ => 0) d.gwy.vlo r data } } ∧
      Completes (.slotVhiWrite via data) s
        ({ d with gwy := { d.gwy with vlo := SMap.put (fun _ => 0) d.gwy.vlo r 0 } }.freshWrite
          d.nrm.active (d.rd 0x048 Reg.GWY_SLOT_SEL.SLOT) (data ++ SMap.get (fun _ => 0) d.gwy.vlo r))) ∧
    (∀ slot, Completes (.stale slot) s (s.dev.staleSlot slot.toNat)) ∧
    (∀ t, (s.dev.plist l.toNat).nextDue = some t →
      Completes (.firingDue l) s
        (((s.dev.reach t).setPlist l.toNat { (s.dev.reach t).plist l.toNat with
            nextDue := some (t + bitsOf ((s.dev.reach t).listHead (s.dev.reach t).nrm.active l.toNat 1) 0 20 * Config.perUs)
          }).fallsDue l.toNat t false)) ∧
    ((s.dev.plist l.toNat).dirty = true → s.dev.listSignal s.dev.nrm.active l.toNat = true →
      s.dev.listOnChange s.dev.nrm.active l.toNat = true →
      let c := s.dev.reach ((s.dev.now / 16 + 1) * 16)
      let e := match (s.dev.plist l.toNat).lastFire with
        | some t => c.reach (t + bitsOf (s.dev.listHead s.dev.nrm.active l.toNat 3) 0 20 * Config.perUs)
        | none => c
      let f := e.setPlist l.toNat { e.plist l.toNat with dirty := false }
      (e.plist l.toNat).sent ≠ some (e.listPayload l.toNat) →
      Completes (.changeCheck l) s (f.fallsDue l.toNat f.now true)) ∧
    (∀ t k,
      let e := (s.dev.gwy.lists.filter fun x => s.dev.listAcf s.dev.nrm.active x.1 && s.dev.acfFull s.dev.nrm.active x.1).foldl
        (fun d x => d.acfFire x.1) s.dev
      let f := e.reach e.gwy.fireAt
      earliest (e.gwy.lists.filterMap fun x => x.2.fire.head?.map fun t => (t, x.1)) = some (t, k) →
      Completes .firingStart s ({ f with gwy := { f.gwy with fireAt := f.now + 2000 } }.startFiring k t)) ∧
    (∀ c y rest m, s.dev.egressOrder 0x79 = (c, y) :: rest → s.dev.copyDest c y = some (.list l.toNat) →
      let b := s.dev.tableBank y.shb.bank
      s.dev.listAcf b l.toNat = true → (∀ k a, y.org ≠ .gateway k a) → s.dev.acfMessage b l.toNat y = some m →
      s.dev.acfRoom b l.toNat m = true → (∀ k ∈ [0, 6, 7], s.dev.badAt b (0x20A0000 + 64 * l.toNat + 4 * k) = false) →
      Completes (.acfMessage l) s (s.dev.chosen c y fun d => (d.gwyTake c y).getD d)) ∧
    ((s.dev.plist l.toNat).msgs ≠ [] → s.dev.listAcf s.dev.nrm.active l.toNat = true →
      Completes (.acfHoldExpiry l) s
        ((s.dev.reach ((s.dev.plist l.toNat).first + s.dev.acfHold s.dev.nrm.active l.toNat * Config.perUs)).acfFire l.toNat))

/-- R340: a fresh write stores VALUE, sets the validity flag, clears STALE and sets AGE to 0; a write to a slot whose entry is not
VALID is discarded and counts in CUT_NOSLOT. No other slot changes. -/
def Obligations.FreshWritesOfSlots : Prop :=
  ∀ (d : Dev) (b : BitVec 2) (n k : Nat) (v : BitVec 64),
    (d.slotInUse b n = true →
      ((d.freshWrite b n v).slot n).value = v ∧ ((d.freshWrite b n v).slot n).valid = true ∧
      ((d.freshWrite b n v).slot n).stale = false ∧ (d.freshWrite b n v).slotAge n = 0 ∧
      (k ≠ n → (d.freshWrite b n v).slot k = d.slot k) ∧ (d.freshWrite b n v).regs = d.regs) ∧
    (d.slotInUse b n = false →
      (d.freshWrite b n v).slot k = d.slot k ∧ (d.freshWrite b n v).slotAge k = d.slotAge k ∧
      (d.freshWrite b n v).rd 0x048 Reg.GWY.CUT_NOSLOT = (d.rd 0x048 Reg.GWY.CUT_NOSLOT + 1) % 2 ^ 32)

/-! ### Time base (spec/12_time_base.md) -/

/-- The time base (R365, R367 to R370, R381 to R383, R392 to R396): the snapshot; a rate applies, and on the manager is
relayed; a follower that no write has kept loses SYNC; a domain step is started and applied; an enabled edge 20 ns or more
after the input's last is captured; an armed output rises at its next edge and falls HIGH_NS after it; a worker times a link;
a worker's lock is lost 1 ms after its last exchange; a step that waited for the token is tried again; a relay applies to a
board follower. -/
def Obligations.TimeCommandsComplete : Prop :=
  ∀ (s : State) (via : Via) (n : Fin 4), s.Runs →
    let v := s.dev.entered via
    (s.Reached via 0x020 → v.locked 0x020 = false →
      Completes (.snapshot via) s { v with tbu := { v.tbu with
        snaps := SMap.put (fun _ => .reset) v.tbu.snaps (viaCode via) ⟨v.wclk, (List.range 4).map v.domTime⟩ } }) ∧
    (∀ t, (s.dev.dom n.val).rateAt = some t →
      Completes (.rateApply n) s
        (((s.dev.reach t).setDom n.val { (s.dev.reach t).domNow n.val with
            rate := BitVec.ofNat 32 ((s.dev.reach t).rd 0x021 Reg.TBU_DOM_RATE.RATE n.val), rateAt := none }).relay
          n.val false)) ∧
    (∀ t, (s.dev.dom n.val).holdAt = some t → s.dev.rd 0x021 Reg.TBU_DOM_CFG.HOLD_MS n.val ≠ 0 →
      s.dev.rd 0x021 Reg.TBU_DOM_CFG.ROLE n.val = 2 → s.dev.on 0x021 Reg.TBU_DOM_CFG.SYNC n.val = true →
      Completes (.syncLost n) s
        (((s.dev.reach (t + s.dev.rd 0x021 Reg.TBU_DOM_CFG.HOLD_MS n.val * Config.perMs)).wr 0x021 Reg.TBU_DOM_CFG.SYNC 0
          n.val).raise 0x020 20)) ∧
    (s.Reached via 0x021 → v.locked 0x021 = false →
      (v.rd 0x021 Reg.TBU_DOM_CFG.ROLE n.val = 1 ∨ v.rd 0x021 Reg.TBU_DOM_CFG.ROLE n.val = 2) →
      (v.maintTake 0x021 10 (viaCode via)).1 = true →
      let e := (v.maintTake 0x021 10 (viaCode via)).2.wr 0x021 Reg.TBU_DOM_STEP_CTRL.GO 1 n.val
      let e := e.setDom n.val { e.dom n.val with holdAt := some e.now }
      Completes (.domainStep via n) s (e.setDom n.val { e.dom n.val with stepAt := some e.nextUs })) ∧
    (∀ t, (s.dev.dom n.val).stepAt = some t →
      let d := s.dev.reach t
      let d := d.domAdd n.val (d.rd 0x021 Reg.TBU_DOM_STEP_S.STEP_S n.val) (d.rd 0x021 Reg.TBU_DOM_STEP_NS.STEP_NS n.val)
      let d := d.setDom n.val { d.dom n.val with stepAt := none }
      Completes (.domainStepApply n) s
        ((((d.wr 0x021 Reg.TBU_DOM_STEP_CTRL.RESULT 1 n.val).wr 0x021 Reg.TBU_DOM_STEP_CTRL.GO 0 n.val).maintEnd
          0x021 10).relay n.val true)) ∧
    (∀ (i : TimeInput) (rising : Bool) age, s.dev.captures = true →
      bitAt (s.dev.rd 0x022 Reg.TBU_TSI_CFG.EDGE (inputIndex i)) (if rising then 0 else 1) = true →
      (∀ u, SMap.get (fun _ => none) s.dev.tbu.lastEdge (inputIndex i) = some u → u + 320 ≤ s.dev.now - age) →
      Completes (.eventInput i rising age) s (s.dev.edge i rising (s.dev.now - age))) ∧
    (∀ o : Fin 5, (s.dev.tso o.val).armed = true → (s.dev.tso o.val).high = false →
      let t := s.dev.tsoEdge o.val (s.dev.tso o.val).next
      let e := s.dev.reach (s.dev.momentAt (s.dev.tsoClock o.val) t)
      Completes (.tsoRise o) s
        ((e.setTso o.val { e.tso o.val with next := (e.tso o.val).next + 1, high := true, risen := t }).tsoDrive o.val true)) ∧
    (∀ o : Fin 5, (s.dev.tso o.val).armed = true → (s.dev.tso o.val).high = true →
      let e := s.dev.reach (s.dev.momentAt (s.dev.tsoClock o.val)
        ((s.dev.tso o.val).risen + s.dev.tsoHigh o.val))
      Completes (.tsoFall o) s ((e.setTso o.val { e.tso o.val with high := false }).tsoDrive o.val false)) ∧
    (∀ l : Fin 4, s.dev.linkOn l.val = true → ((s.dev.link l.val).isUp = true ∨ (s.dev.link l.val).step = 5) →
      Completes (.timeExchange l) s
        ((s.dev.setLink l.val { s.dev.link l.val with
            timeReq := some (SMap.get (fun _ => (0 : BitVec 8)) (s.dev.link l.val).seqs 5, s.dev.wclk) }).sendVc3 l.val 5 none
          (timeWords (stampOf s.dev.wclk)))) ∧
    (s.dev.pwr.manager = false → s.dev.tbu.locked = true →
      Completes .boardLockLost s (s.dev.reach (s.dev.tbu.lastEx + Config.perMs)).boardLost) ∧
    (∀ t, s.dev.tbu.stepTry = some t →
      Completes .boardStepRetry s ((s.dev.reach t).boardTryStep s.dev.tbu.offset)) ∧
    (∀ m ms, (s.dev.dom n.val).relay = m :: ms → s.dev.rd 0x021 Reg.TBU_DOM_CFG.ROLE n.val = 3 →
      let e := s.dev.reach (s.dev.whenWall (s.dev.wclk + (s.dev.aheadBy m.at_).toNat))
      let e := e.setDom n.val { e.domNow n.val with relay := ms }
      let e := (e.setDom n.val { e.dom n.val with rate := m.rate }).wr 0x021 Reg.TBU_DOM_RATE.RATE m.rate.toNat n.val
      let e := if m.step then e.domAdd n.val m.stepS.toNat m.stepNs.toNat else e
      Completes (.domRelayApply n) s (e.wrB 0x021 Reg.TBU_DOM_CFG.SYNC (m.sync && e.tbu.locked) n.val))

/-! ### Host interfaces (spec/13_host_interfaces.md) -/

/-- The host interfaces (R402 to R441): of an instance that exists the doorbells, the modes of a queue and the flushes of its
windows; a queue reads its next descriptor, and a transmit queue the buffer; a buffer of the length that its header says
becomes a posted sentence, and one of another length fails as malformed; a failed read stops its queue, and fails the sentence
whose buffer was being read; a receive completion; an interrupt that was held off is requested; the posted sentence whose turn
it is goes to the NRM; a queue whose DMA has ended is off; a held push ends, and so does a held LHP cycle; and of PCIe the Bus
Master Enable bit, D3hot, the link and the function-level reset. -/
def Obligations.HostCommandsComplete : Prop :=
  ∀ (s : State) (via : Via) (n : Fin 64) (q : QId), s.Runs →
    let v := s.dev.entered via
    let p := dbPage n.val
    let k := queueIdx q
    (v.on (instPage n.val) Reg.INST_STAT.EXISTS = true →
      (∀ idx, s.Reached via p → Completes (.dbTail via n q idx) s (v.dbTail n.val k idx) ∧
        Completes (.dbCqHead via n q idx) s (v.dbHead n.val k idx)) ∧
      (s.Reached via p → v.locked p = false →
        Completes (.queueOff via n q) s ((v.wr p Reg.HBR_Q_CFG.MODE 0 k).queueCfg n.val k) ∧
        Completes (.queueDma via n q) s ((v.wr p Reg.HBR_Q_CFG.MODE 1 k).queueCfg n.val k) ∧
        Completes (.queueWindow via n q) s ((v.wr p Reg.HBR_Q_CFG.MODE 2 k).queueCfg n.val k)) ∧
      (∀ data, s.Reached via (winPage n.val) → v.locked (winPage n.val) = false →
        Completes (.windowFlush via n data) s (v.windowFlush n.val data.toNat))) ∧
    (∀ desc, s.dev.mayFetch n.val k = true →
      let i := s.dev.rd p Reg.HBR_Q_IDX.DEV_HEAD k
      let base := 64 * s.dev.rd p Reg.HBR_Q_RING_LO.ADDR k + 2 ^ 32 * s.dev.rd p Reg.HBR_Q_RING_HI.ADDR k
      let d := (s.dev.emitWire (.dmaRead n.val (base + 16 * (i % s.dev.ringEntries n.val k)) 16)).wr p
        Reg.HBR_Q_IDX.DEV_HEAD (i + 1) k
      let d := d.setHq n.val k { d.hq n.val k with descs := (d.hq n.val k).descs ++ [desc] }
      Completes (.descriptorFetch n q desc) s
        (if k < 16 then d else d.emitWire (.dmaRead n.val (descAddr desc) (bitsOf desc.d2 0 15)))) ∧
    (∀ (t : Fin 8) bytes x rest, (s.dev.hq n.val (16 + t.val)).descs = x :: rest → 16 ≤ bytes.length →
      let len := (bufWord bytes 3).toNat % 16384
      let d := s.dev.setHq n.val (16 + t.val) { s.dev.hq n.val (16 + t.val) with descs := rest }
      (bitsOf x.d2 0 15 = 16 + len → 16 + len ≤ bytes.length →
        Completes (.dmaReadDone n t bytes) s { d with hbr := { d.hbr with
          ready := d.hbr.ready ++ [⟨n.val, t.val, false, x.d3, bitsOf x.d2 16 1 == 1, (List.range 8).map (bufWord bytes),
            (bytes.drop 16).take len, stampOf d.wclk⟩] } }) ∧
      (bitsOf x.d2 0 15 ≠ 16 + len →
        Completes (.dmaReadDone n t bytes) s
          (d.complete (.host n.val t.val false x.d3 false (d.inst n.val).era) ((bufWord bytes 0).setWidth 14) 0 0x11 []))) ∧
    (let d := ((s.dev.queueError n.val k 1).bump 0x010 Reg.HBR.DMA_RD_ERR).raise 0x010 16
     ((s.dev.hq n.val k).mode = 1 → (s.dev.hq n.val k).descs = [] → Completes (.dmaReadError n q) s d) ∧
     ∀ (t : Fin 8) x rest, (s.dev.hq n.val k).descs = x :: rest → q = .tx t →
      let e := d.drawn.setHq n.val k { d.hq n.val k with descs := rest }
      Completes (.dmaReadError n q) s
        (e.complete (.host n.val t.val false x.d3 false (e.inst n.val).era) (d.freeBits.setWidth 14) 0 0x06 [])) ∧
    (∀ (r : Fin 16) c x rest, (s.dev.hq n.val r.val).mode = 1 → s.dev.dmaOk n.val = true →
      s.dev.rxMoving n.val r.val = (c, x) :: rest →
      Completes (.rxCompletion n r) s (s.dev.buffersGet n.val r.val c x)) ∧
    (∀ t, (s.dev.hq n.val k).holdAt = some t →
      let d := (s.dev.reach t).setHq n.val k { (s.dev.reach t).hq n.val k with holdAt := none }
      Completes (.holdoffExpiry n q) s (d.requestInst n.val (d.rd p Reg.HBR_Q_CFG.VECTOR k))) ∧
    (∀ x, s.dev.shut = false → s.dev.pwr.silent = false →
      s.dev.nextHost ((queueHeads s.dev.hbr.ready).filter s.dev.mayHand) = some x →
      let it := x.item (s.dev.inst x.n).era s.dev.nrm.nextFid
      let d := { s.dev with
        hbr := { s.dev.hbr with ready := dropHead x s.dev.hbr.ready, rr := x.n * 8 + x.t }
        nrm := { s.dev.nrm with items := s.dev.nrm.items ++ [it], nextFid := s.dev.nrm.nextFid + 1 } }
      Completes .hostHandOn s
        (((d.bumpSat (instPage x.n) Reg.INST.TX_HANDED).bumpSat64 (instPage x.n) Reg.INST.TX_BYTES_LO Reg.INST.TX_BYTES_HI
          x.body.length).bump 0x010 Reg.HBR.TX_SENTENCES)) ∧
    ((s.dev.hq n.val k).mode = 0 → s.dev.on p Reg.HBR_Q_STAT.ON k = true → s.dev.queueBusy n.val k = false →
      let h := s.dev.hq n.val k
      let d := (s.dev.dmaWrites n.val h.flying).setHq n.val k { h with flying := [] }
      Completes (.queueStopped n q) s ((d.wr p Reg.HBR_Q_STAT.ON 0 k).queueStart n.val k)) ∧
    (let waits := s.dev.sty.reqs.find? fun q => q.tagless
     (∀ x, firstHold s.dev.hbr.held = some x → (∀ q, waits = some q → x.till ≤ s.dev.tagHoldEnd q) →
        Completes .pushHoldTimeout s ((s.dev.reach x.till).holdEnds x)) ∧
     ∀ q, waits = some q → (∀ x, firstHold s.dev.hbr.held = some x → s.dev.tagHoldEnd q < x.till) →
        Completes .pushHoldTimeout s
          (((s.dev.reach (s.dev.tagHoldEnd q)).dropReq q).bump 0x010 Reg.HBR.HOLD_DISCARDS)) ∧
    (∀ t, s.dev.hbr.lwait = some t →
      let d := ((s.dev.reach t).bump 0x010 Reg.HBR.LHP_TIMEOUTS).raise 0x01F 16
      let busQ := d.sty.busQ.filter fun q =>
        match q with | .own a _ => a.via != .lhp | .named via _ => via != .lhp | _ => true
      let reads := d.sty.busQ.any fun q => match q with
        | .own a w => a.via == .lhp && !w
        | .named via (.imgData w _) => via == .lhp && !w
        | _ => false
      let d := { d with
        hbr := { d.hbr with lwait := none, latch := none }
        eng := { d.eng with tsWait := d.eng.tsWait.filter fun x => x.2.2 != 2 }
        sty := { d.sty with busQ := busQ } }
      let d := if reads then d.emitWire (.read .lhp 3 0xFFFF) else d
      Completes .lhpTimeout s
        (((s.dev.sty.reqs.filter fun q => q.via == .lhp && q.got.isNone).foldl (fun (d : Dev) q => d.reqFails q .timeout)
          d).reqsLeave)) ∧
    Completes (.busMasterEnable n) s
      (({ s.dev with hbr := { s.dev.hbr with bme := SMap.put (fun _ => false) s.dev.hbr.bme n.val true } }.dmaResumes
        n.val).flushPba n.val) ∧
    (let d := fun (x : Bool) => { s.dev with hbr := { s.dev.hbr with d3 := SMap.put (fun _ => false) s.dev.hbr.d3 n.val x } }
     Completes (.d3hotTransition n true) s ((List.range 24).foldl (fun (d : Dev) k => d.queueStop n.val k) (d true)) ∧
     Completes (.d3hotTransition n false) s
      ((List.range 24).foldl (fun (d : Dev) k => d.queueStart n.val k) ((d false).dmaResumes n.val))) ∧
    (∀ (sp : BitVec 4) (w : BitVec 5), Completes (.pcieLinkUp sp w) s
      (((s.dev.wr 0x010 Reg.HBR_PCIE_STAT.SPEED sp.toNat).wr 0x010 Reg.HBR_PCIE_STAT.WIDTH w.toNat).wr
        0x010 Reg.HBR_PCIE_STAT.DL_UP 1)) ∧
    (let d := if n.val = 0 then s.dev.physicalDefault else s.dev.functionDefault n.val
     d.exists_ n.val = true → Completes (.functionLevelReset n) s ((d.abortOf n.val).instReset n.val 1)) ∧
    (let d := ((List.range 16).foldl (fun d q => d.failSet (rxSet 0 q) 0x02) s.dev.physicalDefault).areaDefault 0
     Completes .pcieLinkDown s
      (((d.wr 0x010 Reg.HBR_PCIE_STAT.SPEED 0).wr 0x010 Reg.HBR_PCIE_STAT.WIDTH 0).wr 0x010 Reg.HBR_PCIE_STAT.DL_UP 0))

/-- R18, R19, R419: pops return the words of the item of highest class in order, with consecutive numbers; an empty window
returns `00:0x0000` and stays as it is; a flush of an item that a reader is part-way through makes the next pop the cut marker,
and the pop after it `00:0x0000`, whatever was pushed in the meantime. -/
def Obligations.PopWindowsGiveWholeItems : Prop :=
  ∀ w : PopWin,
    (∀ k ws, w.cut = 0 → w.cur = [] → ws ≠ [] → bestWin w.items = some (k, ws) →
      (PopWin.pops ws.length w).1 = (List.range ws.length).map (fun i => (w.seq + BitVec.ofNat 14 i) ++ listGet 0 ws i) ∧
      (PopWin.pops ws.length w).2.items = dropFirst (k, ws) w.items ∧ (PopWin.pops ws.length w).2.cur = [] ∧
      (PopWin.pops ws.length w).2.seq = w.seq + BitVec.ofNat 14 ws.length) ∧
    (w.cut = 0 → w.cur = [] → w.items = [] → w.pop = (w.seq ++ (0 : Word), w)) ∧
    (w.cur ≠ [] →
      w.flush.pop.1 = w.seq ++ Word.mk 2 0xF1C0 ∧
      ∀ items, (PopWin.pop { w.flush.pop.2 with items }).1 = (w.seq + 1) ++ (0 : Word) ∧
        (PopWin.pop { w.flush.pop.2 with items }).2.items = items ∧ (PopWin.pop { w.flush.pop.2 with items }).2.cut = 0)

/-! ### Virtual instances (spec/14_virtual_instances.md) -/

/-- R445: a write of INST_CMD with GO starts the operation of its code, when the page is not locked and no command runs. -/
def Obligations.InstanceCommandsStart : Prop :=
  ∀ (s : State) (via : Via) (target : Nat), s.Runs →
    let v := s.dev.entered via
    s.Reached via 0x100 → v.locked 0x100 = false → v.on 0x100 Reg.INST_CMD.GO = false →
    ∀ p ∈ [(Instr.create via target, 1), (.destroy via target, 2), (.setShare via target, 3), (.reset via target, 4),
        (.freeze via target, 5), (.thaw via target, 6), (.save via target, 7), (.restore via target, 8), (.copy via target, 9)],
      Completes p.1 s
        (((v.wr 0x100 Reg.INST_CMD.OP p.2).wr 0x100 Reg.INST_CMD.TARGET target).instGo p.2 target (viaCode via))

/-- What ends the operations on instances, and the image window (R449 to R462): a reset ends, with its report, and with it the RESET
or DESTROY that asked for it; an instance with nothing left under way is frozen; a freeze that is not quiet in 10 ms fails; an image
is written, or put back when it passes its checks and fits; a copy ends; and the image window is written and read. -/
def Obligations.InstanceCommandsEnd : Prop :=
  ∀ (s : State) (via : Via) (n : Fin 64), s.Runs →
    let v := s.dev.entered via
    (∀ t, (s.dev.inst n.val).resetAt = some t →
      let d := (((s.dev.reach (t + 50 * Config.perUs)).cancelRuns n.val).areaDefault n.val).talkersDefault n.val
      let d := ((d.wr (instPage n.val) Reg.INST_STAT.RESETTING 0).raise (instPage n.val) 16).sendReport n.val
      let d := d.setInst n.val { d.inst n.val with resetAt := none, list := [] }
      (d.cmdIs [2] n.val = true → Completes (.resetDone n) s
        (((d.wr (instPage n.val) Reg.INST_LIMITS.WIN_MAX 0).wr (instPage n.val) Reg.INST_STAT.EXISTS 0).instEnd 0)) ∧
      (d.cmdIs [2] n.val = false → d.cmdIs [4] n.val = true → Completes (.resetDone n) s (d.instEnd 0)) ∧
      (d.cmdIs [2] n.val = false → d.cmdIs [4] n.val = false → Completes (.resetDone n) s d)) ∧
    (s.dev.on (instPage n.val) Reg.INST_STAT.FREEZING = true → s.dev.quiet n.val = true →
      Completes (.frozen n) s (s.dev.frozen n.val)) ∧
    (∀ t, (s.dev.inst n.val).freezeAt = some t →
      let d := s.dev.reach (t + 10 * Config.perMs)
      (d.quiet n.val = true → Completes (.freezeTimeout n) s (d.frozen n.val)) ∧
      (d.quiet n.val = false → Completes (.freezeTimeout n) s
        (if (d.thaw n.val).cmdIs [5] n.val then (d.thaw n.val).instEnd 6 else d.thaw n.val))) ∧
    (∀ c, s.dev.insts.cmd = some c → c.target = n.val → s.dev.xmOn = true →
      let slot := bitsOf c.arg0 0 5
      (c.op = 7 → Completes (.imgDone n) s ((s.dev.saveImage n.val slot).imageEnds n.val 0)) ∧
      (c.op = 8 → s.dev.imageOk slot = true →
        s.dev.imgDword (slotBase slot + 20) ≤ s.dev.rd (instPage n.val) Reg.INST_LIMITS.WIN_MAX →
        Completes (.imgDone n) s ((s.dev.restoreImage n.val slot).imageEnds n.val 0))) ∧
    (∀ c far crc path, s.dev.insts.cmd = some c → c.op = 9 →
      Completes (.copyDone far crc path) s
        (s.dev.instEnd (if far then (if path then (if crc then 0 else 5) else 7) else 2))) ∧
    (∀ data, (s.Reached via 0x100 → Completes (.imgData via true data) s (v.imgWrite data)) ∧
      (s.Reached via 0x100 false →
        Completes (.imgData via false data) s (v.imgRead.2.readBack via 0x400C80 0 v.imgRead.1)))

/-! ### Stay links (spec/15_stay_fabric.md) -/

/-- Stay links (R463 to R468, R471, R472, R485 to R487): training takes its steps, an accepted peer is granted credits and a
refused one is tried again after 10 ms; a flit is received or refused; acknowledgements free and replays send again; times are
exchanged and relayed; a lane fails, on its own or by the peer's report, and is retrained by the device or the host, with both
ends of that; and a link fails. -/
def Obligations.StayLinkCommandsComplete : Prop :=
  ∀ (s : State) (l : Fin 4) (via : Via), s.Runs →
    let x := s.dev.link l.val
    let v := s.dev.entered via
    (s.dev.trains l.val = true → Completes (.linkTraining l) s (s.dev.toStep3 l.val)) ∧
    (∀ dev man level, s.dev.trains l.val = true → x.step = 3 →
      let why := s.dev.refusal dev.val man level.toNat
      let y := { x with peerDev := dev.val, peerMgr := man, peerLevel := level, refuse := why }
      (why = 0 → Completes (.ident l dev man level) s
        ((s.dev.setLink l.val { y with step := 4, level := BitVec.ofNat 8 (min level.toNat s.dev.stayLevel) }).sendVc3
          l.val 2 none (creditGrants.map w16))) ∧
      (why ≠ 0 → Completes (.ident l dev man level) s
        ((s.dev.setLink l.val { y with step := 0, retryAt := s.dev.now + 10 * Config.perMs }).raise (linkPage l.val) 20))) ∧
    (s.dev.trains l.val = true → x.refuse ≠ 0 → x.step = 0 →
      Completes (.identRetry l) s ((s.dev.reach x.retryAt).toStep3 l.val)) ∧
    (∀ c0 c1 c2, s.dev.trains l.val = true → x.step = 4 →
      Completes (.creditInit l c0 c1 c2) s
        (s.dev.setLink l.val { x with
          step := 5, cmax := [c0, c1, c2], cred := [c0, c0, c0, c0, c1, c1, c1, c1, c2, c2, c2, c2] })) ∧
    (∀ lanes asym, s.dev.trains l.val = true → x.step = 5 → lanes ≠ 0 →
      Completes (.stayLinkUp l lanes asym) s
        (((s.dev.setLink l.val { x with
            state := if lanes = 3 then .up else .degraded, step := 6, lanes := lanes, asym := asym, holdAt := none }).raise
          (linkPage l.val) 16).choosePaths)) ∧
    (∀ f : Flit, s.dev.linkOn l.val = true → x.live = true → (x.nak = false ∨ f.replay = true) →
      Completes (.flitReceive l f) s (if f.good then s.dev.flitGood l.val f else s.dev.flitBad l.val)) ∧
    (s.dev.linkOn l.val = true → x.live = true →
      (∀ count, Completes (.ack l count) s (s.dev.ackTo l.val count).pumpAll ∧
        Completes (.nak l count) s (((s.dev.ackTo l.val count).replay l.val).laneJudge l.val).pumpAll) ∧
      Completes (.ackTimer l) s
        ((s.dev.setLink l.val { x with sinceAck := 0 }).sendVc3 l.val 3 none [w16 x.rxCount.toNat]) ∧
      ∀ seq t1, Completes (.timeReq l seq t1) s
        (s.dev.sendVc3 l.val 6 (some seq) (timeWords (stampOf s.dev.wclk) ++ timeWords (stampOf s.dev.wclk)))) ∧
    (∀ seq t2 t3 t1, x.timeReq = some (seq, t1) → s.dev.linkOn l.val = true → x.live = true →
      let d := s.dev.setLink l.val { x with timeReq := none }
      Completes (.timeResp l seq t2 t3) s
        (if d.upstream = some l.val then
          d.boardExchange (exchangeOffset (stampOf t1) t2 t3 (stampOf d.wclk) (signed 16 x.asym.toNat))
        else d)) ∧
    (∀ m, s.dev.linkOn l.val = true → x.isUp = true → s.dev.upstream = some l.val → s.dev.relaySeen m.seq = false →
      let d := { s.dev with sty := { s.dev.sty with domSeq := some m.seq } }
      let d := d.setDom m.dom.val { d.dom m.dom.val with relay := (d.dom m.dom.val).relay ++ [m] }
      Completes (.domRelay l m) s ((List.range 4).foldl (fun d k =>
        if k != l.val && (d.link k).isUp then d.sendVc3 k 7 (some m.seq) (relayWords m) else d) d)) ∧
    (let y := fun (lanes : BitVec 2) => s.dev.setLink l.val { x with peerLanes := lanes }
     (x.replays < 8 → ∀ lanes, Completes (.laneStat l lanes) s (y lanes)) ∧
     (x.state = .up → x.lanes = 3 → 8 ≤ x.replays →
      Completes (.laneStat l 2) s ((y 2).laneFails l.val 0) ∧ Completes (.laneStat l 1) s ((y 1).laneFails l.val 1))) ∧
    (∀ k : Fin 2, Completes (.laneFail l k) s (s.dev.laneFails l.val k.val)) ∧
    (x.state = .degraded → x.retrain = false → (s.dev.maintTake (linkPage l.val) 5 0).1 = true →
      let d := (s.dev.maintTake (linkPage l.val) 5 0).2
      Completes (.laneRetrain l) s
        ((d.setLink l.val { d.link l.val with retrain := true }).wr (linkPage l.val) Reg.STY_LINK_RETRAIN.START 1)) ∧
    (s.Reached via (linkPage l.val) → v.locked (linkPage l.val) = false → (v.link l.val).state = .degraded →
    (v.link l.val).retrain = false →
      (v.maintTake (linkPage l.val) 5 (viaCode via)).1 = true →
      let d := (v.maintTake (linkPage l.val) 5 (viaCode via)).2
      Completes (.laneRetrainStart via l) s
        ((d.setLink l.val { d.link l.val with retrain := true }).wr (linkPage l.val) Reg.STY_LINK_RETRAIN.START 1)) ∧
    (x.retrain = true →
      let d := fun (r : Nat) => ((((s.dev.setLink l.val { x with retrain := false }).wr (linkPage l.val)
        Reg.STY_LINK_RETRAIN.RESULT r).wr (linkPage l.val) Reg.STY_LINK_RETRAIN.START 0).maintEnd (linkPage l.val) 5)
      Completes (.laneRejoin l) s
        ((((d 1).drawn.setLink l.val { (d 1).link l.val with
          state := .up, lanes := 3, peerLanes := 3, asym := (d 1).freeBits.setWidth 16 }).raise
            (linkPage l.val) 19).sendLaneStat l.val) ∧
      Completes (.laneRetrainFailed l) s (d 3)) ∧
    Completes (.stayLinkFail l) s (s.dev.linkFails l.val)

/-- Sentences and requests between devices (R470, R475 to R484): the first message that waits is accepted once, as a sentence
of this device, or forwarded with HC raised by one, and discarded at HC 3; a far device's request applies when the register
bus is free, and a crossing one is told to retry; a completion, or its time limit, ends the request of its tag; an AtomicOp
applies when the bus is free. -/
def Obligations.StayMessagesComplete : Prop :=
  ∀ (s : State), s.Runs →
    (∀ (l : Fin 4) t ws rest, (s.dev.link l.val).inbox = (t, ws) :: rest → s.dev.pwr.silent = false →
      let w := listGet 0 ws 0
      let p := s.dev.setLink l.val { s.dev.link l.val with inbox := rest }
      (hdrDest w = s.dev.pwr.devId → s.dev.msnNew (hdrSrc w) (listGet 0 ws 2) = true → s.dev.lowerCopy l.val t ws = false →
        s.dev.stayTickets ws = true →
        Completes (.staySentence l) s
          (({ p with sty := { p.sty with
              msnRx := SMap.put (fun _ => none) p.sty.msnRx (hdrSrc w) (some (listGet 0 ws 2)) } }.sentenceIn l.val t ws).pump
            l.val)) ∧
      (hdrDest w ≠ s.dev.pwr.devId → hdrHc w ≠ 3 →
        let h := shbOfWords (ws.drop 3)
        let body := if wellSized (ws.drop 3) then padZeroed h (bytesOf16 (ws.drop 11)) else bytesOf16 (ws.drop 11)
        s.dev.ticketRoom h.talker false [.fresh 0 (.stay (hdrDest w) false 0)] = true →
        Completes (.stayForward l) s
          (((p.handOn { p.arrivalOf l.val t h body with fwd := raiseHc w :: ws.drop 1 }
            [.fresh 0 (.stay (hdrDest w) false 0)] []).nextFid).pump l.val)) ∧
      (hdrDest w ≠ s.dev.pwr.devId → hdrHc w = 3 →
        Completes (.stayForward l) s ((p.bump 0x060 Reg.STY.HOP_DISCARDS).pump l.val))) ∧
    (∀ (l : Fin 4) r, s.dev.sty.busBy = none → s.dev.sty.busQ = [] →
      Completes (.remoteRequest l r) s ((s.dev.entered (.stay r.src)).farNow l r)) ∧
    (∀ (l : Fin 4) r n, s.dev.sty.busBy = some n → ReqOp.locks r.op = true → s.dev.pwr.devId < r.src.val →
      Completes (.remoteRequest l r) s ((s.dev.entered (.stay r.src)).crossing l r)) ∧
    (∀ (tag : Fin 64) q, s.dev.reqOf tag.val = some q →
      (∀ status value, Completes (.remoteCompletion tag status value) s (s.dev.completed q status value).reqsLeave.drainBus) ∧
      Completes (.remoteTimeout tag) s
        ((s.dev.reach (q.at_ + s.dev.rd 0x060 Reg.STY_CFG.TMO_US * Config.perUs)).reqFails q .timeout).reqsLeave.drainBus) ∧
    (∀ fn addr op wide, s.dev.sty.busBy = none → s.dev.sty.busQ = [] →
      Completes (.atomicop fn addr op wide) s ((s.dev.entered (.pcie fn)).atomNow fn addr op wide))

/-- R98: an AtomicOp to an address outside the remote windows completes with Unsupported Request and has no effect but on the
clock that every access restarts. -/
def Obligations.AtomicOpsElsewhereHaveNoEffect : Prop :=
  ∀ (s : State) (fn : Fin 64) (addr : Nat) (op : AtomOp) (wide : Bool), s.Runs → s.dev.sty.busBy = none → s.dev.sty.busQ = [] →
    (fn.val ≠ 0 ∨ addr < 0x1000000 ∨ 0x1FFFFFF < addr) →
    Completes (.atomicop fn addr op wide) s ((s.dev.entered (.pcie fn)).emitWire (.atomicUr fn.val))

/-- R480, R482: what a 32-bit AtomicOp of a far device does to STY_SCRATCH of a page that is not locked: the original value
returns, and FetchAdd, Swap and a CAS that compares equal store the new one. -/
def Obligations.AtomicOpsOnScratch : Prop :=
  ∀ (d : Dev) (src : Fin 16) (k : Fin 4) (v w : BitVec 64), d.locked 0x060 = false →
    let old := d.rd 0x060 Reg.STY_SCRATCH.DATA k.val
    let at_ := fun (op : AtomOp) => d.atomApply (.stay src) (.reg 0x060 (0x0E0 + 4 * k.val)) op false
    at_ (.fetchAdd v) = (.ok, old, d.wr 0x060 Reg.STY_SCRATCH.DATA (old + v.toNat) k.val) ∧
    at_ (.swap v) = (.ok, old, d.wr 0x060 Reg.STY_SCRATCH.DATA v.toNat k.val) ∧
    (old = v.toNat % 2 ^ 32 → at_ (.cas v w) = (.ok, old, d.wr 0x060 Reg.STY_SCRATCH.DATA w.toNat k.val)) ∧
    (old ≠ v.toNat % 2 ^ 32 → at_ (.cas v w) = (.ok, old, d))

/-! ### Power, reset and wake (spec/16_power_reset_retention.md) -/

/-- Power (R496 to R501): the four requests; an entry that has nothing under way ends, and so does the drain of a Struck
entry; an enabled wake source, and on Z0 to Z7 the wake-up pulse that is one, wakes the device or waits for the wake watch
engine, and so does its timer; a watch run starts, and is stopped at 512 cycles; and the PLLs lock again in a wake from
Furled. -/
def Obligations.PowerCommandsComplete : Prop :=
  ∀ (s : State) (via : Via),
    (s.Runs → let v := s.dev.entered via
      s.Reached via 0x000 → v.locked 0x000 = false →
      ∀ p ∈ [(Instr.requestFull via, 0), (.requestReefed via, 1), (.requestFurled via, 2), (.requestStruck via, 3)],
        Completes p.1 s ((v.wr 0x000 Reg.PCH_PWR_CTRL.TARGET p.2).powerGo p.2)) ∧
    (s.Runs → s.dev.quiesced = true →
      (s.dev.pwr.power = .enterFurled → Completes .entryQuiesced s s.dev.furl.wakeWaiting) ∧
      (s.dev.pwr.power = .enterStruck → s.dev.sentences = 0 → Completes .entryQuiesced s s.dev.strike.wakeWaiting)) ∧
    (s.Runs → s.dev.pwr.power = .enterStruck → s.dev.pwr.drained = false →
      let d := s.dev.reach (s.dev.pwr.entryAt + s.dev.rd 0x000 Reg.PCH_PWR_CTRL.DRAIN_MS * Config.perMs)
      let lost := d.sentences
      let d := d.swc.accts.foldl (fun (d : Dev) a => d.drainAcct a.2) d
      let d := d.dropAll.wr 0x000 Reg.PCH_PWR_STAT.STRUCK_LOST (min 65535 lost)
      Completes .drainExpiry s (d.setPwr { d.pwr with drained := true }).entryEnds) ∧
    (s.Alive → ∀ (src : Fin 8) (unit : Fin 32) ide w, (s.dev.asleep = true ∨ s.dev.entering = true) →
      s.dev.wakeDetects src.val unit.val ide w = true →
      Completes (.wakeEvent src unit ide w) s
        ((if src.val = 2 then (s.dev.setTc10 (4 + unit.val) 3).raise (ethPage (4 + unit.val)) 23 else s.dev).wakeArrives
          ⟨src.val, unit.val, w, s.dev.now⟩)) ∧
    (s.Alive → ∀ t, s.dev.pwr.timerAt = some t → s.dev.asleep = true → s.dev.rd 0x000 Reg.PCH_WAKE_CFG.PERIOD_MS ≠ 0 →
      bitAt (s.dev.rd 0x000 Reg.PCH_WAKE_EN.SRC) 7 = true →
      let d := s.dev.reach (t + s.dev.rd 0x000 Reg.PCH_WAKE_CFG.PERIOD_MS * Config.perMs)
      Completes .wakeTimer s ((d.setPwr { d.pwr with timerAt := some d.now }).wakeArrives ⟨7, 0, noWakeData, d.now⟩)) ∧
    (s.Alive → ∀ e es, s.dev.pwr.run = none → s.dev.pwr.wakeq = e :: es → s.dev.asleep = true →
      s.dev.on 0x000 Reg.PCH_WAKE_CFG.WW_EN = true →
      ∃ c : Core, c.pc = 0 ∧ c.a = [0, 0, 0, 0] ∧
        Completes .wakeRunStart s
          (({ s.dev with free := s.dev.free + 4 }.setPwr { s.dev.pwr with wakeq := es, run := some ⟨e, c⟩ }).bump
            0x002 Reg.PCH_WW_RUNS.RUNS)) ∧
    (s.Alive → ∀ w, s.dev.pwr.run = some w → 512 ≤ w.core.cycles → Completes .wakeRunLimit s s.dev.watchFault) ∧
    (s.Alive → s.dev.pwr.power = .waking → s.dev.pwr.boot = .running →
      let d := s.dev.clockRuns
      let d := d.setPwr { d.pwr with
        boot := .waitFwd, wdogAt := d.pwr.wdogAt.map (· + (s.dev.now - s.dev.pwr.entryAt)) }
      let d := (List.range 22).foldl (fun (d : Dev) p => d.portWakes p) d
      let d := (List.range 32).foldl (fun (d : Dev) c => d.canWakes c) d
      let d := (List.range 4).foldl (fun (d : Dev) l => d.linkWakes l) d
      let ctxs := d.swc.ctxs.map fun (x : Ctx) => { x with since := x.since.map fun _ => d.now }
      Completes .pllRelock s (({ d with swc := { d.swc with ctxs := ctxs } } : Dev).testQueued.syncsGone))

/-- Resets and the start (R502 to R508, R533, R564): power-on reset, RESET_N and its glitch, and the loss of VDD_AON; the
rails, the PLLs, the reload of the settings, fast start from a good image or its failure, the Masthead firmware, and
forwarding; and the resets by key, watchdog and Stay, with their end. -/
def Obligations.StartCommandsComplete : Prop :=
  ∀ (s : State) (via : Via),
    (let d := s.dev.powerOn
     exec .powerOnReset s =
        .next { s with dev := d.drawn.setPwr { d.pwr with pads := padsFor (d.freeBits.toNat % 4096) } }) ∧
    (s.Alive → ∃ d, exec .resetN s = .next { s with dev := d } ∧ d.pwr = { Pwr.reset with pads := s.dev.pwr.pads } ∧
      d.swc = Swc.reset ∧ d.mst.journal = s.dev.mst.journal ∧ d.rd 0x000 Reg.PCH_BOOT_STAT.CAUSE = 1) ∧
    (s.Alive → Completes .resetNGlitch s (s.dev.wr 0x000 Reg.PCH_BOOT_STAT.RST_GLITCH 1)) ∧
    (s.Alive → Completes .vddAonLoss s
      { s.dev.powerOn with
        mst := { s.dev.powerOn.mst with boots := s.dev.mst.boots }
        pwr := { Pwr.reset with dead := true, svcOk := false, wakeOut := false } }) ∧
    (∀ man dev, s.Alive → s.dev.pwr.boot = .waitRails →
      let d := if s.dev.bootCause = 1 then s.dev else s.dev.wrB 0x000 Reg.PCH_BOOT_STAT.RAIL_LATE
        (decide (s.dev.railsBy < s.dev.now))
      let d := if s.dev.bootCause = 5 then d.setMst { d.mst with boots := d.mst.boots + 1 }
        else d.setPwr { d.pwr with manager := man, devId := dev.val, bootAt := d.now }
      Completes (.railsReady man dev) s
        { d with hlt := { d.hlt with badSupply := false }, pwr := { d.pwr with boot := .waitPll } }) ∧
    (s.Alive → s.dev.pwr.boot = .waitRails → s.dev.bootCause ≠ 1 →
      Completes .railWaitExpiry s (s.dev.reach (s.dev.railsBy + 1))) ∧
    (s.Alive → s.dev.pwr.boot = .waitPll →
      let d : Dev := { s.dev with hlt := { s.dev.hlt with badClock := false }, pwr := { s.dev.pwr with boot := .waitReload } }
      Completes .pllLock s d.clockRuns) ∧
    (s.Runs → s.dev.pwr.boot = .waitReload → Completes .settingsReload s s.dev.settingsReload) ∧
    (s.Runs → s.dev.pwr.boot = .waitFast →
      (∀ c, s.dev.mst.cache = some c → c.good = true → Config.sha256 c.bytes = c.digest →
        Completes .fastStart s ((s.dev.loadCache c.bytes).setBoot .waitFwd)) ∧
      ((∀ c, s.dev.mst.cache = some c → c.good = true → Config.sha256 c.bytes ≠ c.digest) →
        Completes .fastStart s (s.dev.fastFails.setBoot .waitFwd))) ∧
    (s.Runs → s.dev.pwr.boot = .waitFwd → s.dev.pwr.rst = none → s.dev.on 0x001 Reg.PCH_SAFE.ACTIVE = false →
      s.dev.stillUnsafe = none → Completes .forwarding s s.dev.forward) ∧
    (s.Runs → s.dev.hlt.running = false → s.dev.hlt.halted = false → s.dev.on 0x008 Reg.MST_FW_STAT.LOADER = false →
      s.dev.mst.runVersion 4 ≠ 0 →
      let d := { s.dev with hlt := { s.dev.hlt with running := true } }.mhResumes
      Completes .mastheadStart s (if d.mst.applyAt.isSome then d.cacheApplies d.now else d)) ∧
    (s.Runs → s.Reached via 0x000 → Completes (.softReset via 0x5A) s ((s.dev.entered via).resetStarts .soft 2)) ∧
    (∀ at_, s.Runs → s.dev.pwr.wdogAt = some at_ → s.dev.rd 0x000 Reg.PCH_WDOG.TIMEOUT_MS ≠ 0 → s.dev.entering = false →
      Completes .watchdogReset s
        ((s.dev.reach (at_ + s.dev.rd 0x000 Reg.PCH_WDOG.TIMEOUT_MS * Config.perMs)).resetStarts .watchdog 3)) ∧
    (s.Runs → s.Reached via 0x000 → s.dev.on 0x000 Reg.PCH_WDOG.TIMEOUT_MS = true →
      let v := s.dev.entered via
      Completes (.kick via) s (v.setPwr { v.pwr with wdogAt := some v.now })) ∧
    (∀ t, s.Runs → s.dev.pwr.stayAt = some t → Completes .stayReset s ((s.dev.reach t).resetStarts .stay 4)) ∧
    (∀ k t, s.Runs → s.dev.pwr.rst = some (k, t) → Completes .resetComplete s (s.dev.resetEnds k))

/-- R504: a write of PCH_RESET without KEY 0x5A starts no reset: nothing changes but what every access and the end of every
command do. -/
def Obligations.SoftResetNeedsItsKey : Prop :=
  ∀ (s : State) (via : Via) (key : Byte), s.Runs → s.Reached via 0x000 → key ≠ 0x5A → Completes (.softReset via key) s (s.dev.entered via)

/-- R506: power-on reset returns every register field to its reset value, and MRAM is kept. -/
def Obligations.PowerOnResetKeepsMramAlone : Prop :=
  ∀ s : State, ∃ d, exec .powerOnReset s = .next { s with dev := d } ∧
    (∀ (p : PageId) (f : Fld) (i : Nat), d.rd p f i = f.rst.value p i % 2 ^ 32) ∧
    d.mst.journal = s.dev.mst.journal ∧ d.mst.comps = s.dev.mst.comps ∧ d.mst.keys = s.dev.mst.keys ∧
    d.mst.sjA = s.dev.mst.sjA ∧ d.mst.sjB = s.dev.mst.sjB ∧ d.mst.cache = s.dev.mst.cache ∧
    d.hlt.freeze = s.dev.hlt.freeze ∧ d.swc = Swc.reset ∧ d.nrm = Nrm.reset ∧ d.eng = Eng.reset ∧ d.now = 0

/-! ### Persistence, update and health (spec/17_persistence_and_update.md, spec/18_health_and_maintenance.md) -/

/-- The settings journal, the update session and its relays (R515 to R538): a commit starts and ends; old records are erased;
while the Masthead controller serves it, a session takes its commands and its bytes, from the host or on a worker from the
manager, its checks end with the result that they find, and it is abandoned after 10 s; a COMMIT that waits is tried again
after 100 µs; the manager copies what a worker reports; and PERMIT is set with its key, and cleared without. -/
def Obligations.UpdateCommandsComplete : Prop :=
  ∀ (s : State) (via : Via), s.Runs →
    let v := s.dev.entered via
    let b := s.dev.mst.sess.bytes
    (s.Reached via 0x008 → v.locked 0x008 = false →
      Completes (.settingsCommit via) s (v.setCommit (viaCode via)) ∧
      (s.dev.hlt.running = true → Completes (.eraseOld via 0xE5) s (v.eraseOthers.wr 0x008 Reg.MST_SET_CMD.ERASE_OLD 0)) ∧
      (s.dev.hlt.running = false → Completes (.eraseOld via 0xE5) s
        ((v.setWaits (v.mst.waits ++ [.erase])).wr 0x008 Reg.MST_SET_CMD.ERASE_OLD 1)) ∧
      (s.dev.served = true →
        (∀ target : Fin 16, Completes (.openSession via target) s
          (((v.wr 0x008 Reg.MST_UPD_CMD.OP 1).wr 0x008 Reg.MST_UPD_CMD.TARGET target.val).updCmd (viaCode via) 1 target.val
            false)) ∧
        ∀ p ∈ [(Instr.verify via, 2), (.write via, 3), (.close via, 4), (.abort via, 5)],
          let t := v.rd 0x008 Reg.MST_UPD_CMD.TARGET
          Completes p.1 s
            (((v.wr 0x008 Reg.MST_UPD_CMD.OP p.2).wr 0x008 Reg.MST_UPD_CMD.TARGET t).updCmd (viaCode via) p.2 t false)) ∧
      Completes (.downgradePermit via 0xD6 true) s (v.wr 0x008 Reg.MST_DOWNGRADE.PERMIT 1) ∧
      ∀ key, Completes (.downgradePermit via key false) s (v.wr 0x008 Reg.MST_DOWNGRADE.PERMIT 0)) ∧
    (∀ r, s.dev.mst.commit = some r → s.dev.hlt.running = true →
      let d := (s.dev.setMst { s.dev.mst with journal := trimJournal (s.dev.mst.journal ++ [r]), commit := none }).eraseOthers
      let d := (d.wr 0x008 Reg.MST_FW_STAT.FALLBACK 0).wr 0x008 Reg.MST_SET_CMD.COMMIT 0
      let d := (d.wr 0x008 Reg.MST_SET_STAT.RESULT 1).bump 0x008 Reg.MST.SET_COMMITS
      Completes .settingsCommitDone s ((d.maintEnd 0x008 7).raise 0x008 18)) ∧
    (s.dev.served = true →
      (∀ data, s.Reached via 0x008 → Completes (.updData via data) s (v.updTake (viaCode via) false (dwordBytes [data.toNat]))) ∧
      (∀ data : BitVec 16, s.Reached via 0x008 → Completes (.updData16 via data) s
        (v.updTake (viaCode via) false [data.extractLsb' 0 8, data.extractLsb' 8 8])) ∧
      (s.dev.mst.sess.st = .verifying → s.dev.passes = false → 12 ≤ b.length → bundleLen b ≤ b.length →
        Completes .verifyDone s (s.dev.reporting fun d =>
          if s.dev.verifyResult b = 1 then
            d.setSess { s.dev.mst.sess with
              st := .verified, result := 1, digest := some (bundleDigest b), fw := isFirmware (entryAt b 0).type, bytes := [] }
          else d.passStops (s.dev.verifyResult b))) ∧
      (s.dev.mst.sess.st ≠ .idle →
        Completes .sessionAbandon s
          (((s.dev.reach (s.dev.mst.sess.at_ + 10000 * Config.perMs)).reporting fun d => d.sessionStops 10).raise
            0x008 21)) ∧
      (∀ t, s.dev.mst.sess.rigTry = some t → Completes .rigCommitRetry s ((s.dev.pass (100 * Config.perUs)).rigAgain t)) ∧
      (s.dev.pwr.manager = false →
        (∀ op : BitVec 3, Completes (.updCommandRelay op) s (s.dev.updCmd 3 op.toNat s.dev.pwr.devId true)) ∧
        ∀ (off : BitVec 32) bytes, b.length = off.toNat →
          Completes (.updDataRelay off bytes) s (s.dev.updTake 3 true (bytes.take 2048))) ∧
      (∀ (result : BitVec 4) (state : BitVec 3), s.dev.mst.sess.st ≠ .idle → s.dev.passes = true →
        let t := sessStOf state.toNat
        let pass := s.dev.mst.sess.st != t && (t == .verifying || t == .writing)
        Completes (.updStatusRelay result state) s
          (if t = .idle then s.dev.sessionEnds (some result.toNat)
          else s.dev.setSess { s.dev.mst.sess with
            st := t, result := result.toNat, bytes := if pass then [] else b
            count := if pass then 0 else s.dev.mst.sess.count }))) ∧
    (∀ t, s.dev.mst.sess.rigTry = none → s.dev.mst.applyAt = some t → s.dev.hlt.running = true →
      Completes .rigCommitRetry s ((s.dev.pass (100 * Config.perUs)).cacheApplies t))

/-- R549, R550: a class 0x5 fault, whatever its page and unit, enters the safe state: ACTIVE is set, CAUSE holds the cause code,
SAFE_ENTRIES counts the entry, PG_EVT.SAFE is latched, SVC_OK falls, and every sentence is discarded and counted in
PCH_SAFE_LOST. -/
def Obligations.ClassFiveFaultsEnterTheSafeState : Prop :=
  ∀ (d : Dev) (p : PageId) (cause unit detail : Nat), causeClass cause = 5 → d.on 0x001 Reg.PCH_SAFE.ACTIVE = false →
    (d.closing (d.fault p cause unit detail)).rd 0x001 Reg.PCH_SAFE.ACTIVE = 1 ∧
    (d.closing (d.fault p cause unit detail)).rd 0x001 Reg.PCH_SAFE.CAUSE = cause ∧
    (d.closing (d.fault p cause unit detail)).rd 0x001 Reg.PCH.SAFE_ENTRIES =
      (d.rd 0x001 Reg.PCH.SAFE_ENTRIES + 1) % 2 ^ 32 ∧
    (d.closing (d.fault p cause unit detail)).rd 0x001 Reg.PCH_SAFE_LOST.COUNT = d.sentences % 2 ^ 32 ∧
    bitAt ((d.closing (d.fault p cause unit detail)).rd 0x000 Reg.PG_EVT.EVT) 21 = true ∧
    (d.closing (d.fault p cause unit detail)).pwr.silent = true ∧ (d.closing (d.fault p cause unit detail)).pwr.svcOk = false ∧
    (d.closing (d.fault p cause unit detail)).swc.sens = [] ∧ (d.closing (d.fault p cause unit detail)).swc.copies = []

/-- Health and maintenance (R514, R539 to R560): the controller's watchdog restarts it, and the third time in 600 s halts it;
a freeze entry is written; faults are acknowledged; the host enters the safe state; a temperature is sampled; the patrol scrub
takes its token and ends its chunk with what it found; a lost clock, a rail that its monitor watches and a parity error are
faults; and the MRAM scrub takes its token and ends with what it found. -/
def Obligations.HealthCommandsComplete : Prop :=
  ∀ (s : State) (via : Via),
    (s.Runs → s.dev.hlt.running = true →
      let recent := (s.dev.hlt.restarts.filter fun t => decide (s.dev.now < t + 600000 * Config.perMs)) ++ [s.dev.now]
      let d := ((s.dev.setHlt { s.dev.hlt with running := false, restarts := recent }).bump 0x001 Reg.PCH.MH_RESTARTS).fault
        0x008 0x11 0
      Completes .mhRestart s
        (if 3 ≤ recent.length then (d.setHlt { d.hlt with halted := true }).fault 0x008 0x12 0 else d)) ∧
    (s.Alive → ∀ e es, s.dev.hlt.frzWait = e :: es →
      Completes .freezeWrite s
        ((s.dev.setHlt { s.dev.hlt with
          freeze := SMap.put (fun _ => none) s.dev.hlt.freeze (s.dev.hlt.frzNext.toNat % 4096) (some e)
          frzNext := s.dev.hlt.frzNext + 1, frzWait := es }).raise 0x000 24)) ∧
    (s.Runs → s.Reached via 0x001 → let v := s.dev.entered via
      (∀ page : BitVec 9, blockPages.contains page.toNat = true → Completes (.faultAck via page false) s (v.ackPage page.toNat)) ∧
      (∀ page, Completes (.faultAck via page true) s
        ((blockPages.foldl (fun (d : Dev) p => d.ackPage p) v).wr 0x001 Reg.PCH_TEMP.TJ_MAX (v.rd 0x001 Reg.PCH_TEMP.TJ))) ∧
      Completes (.hostSafe via 0x5C) s (v.fault 0x001 0x1C 0)) ∧
    (s.Runs → ∀ tj, s.dev.asleep = false → Completes (.tempSample tj) s (((s.dev.sampled tj).tempWarn tj).tempCrit tj)) ∧
    (s.Runs → s.dev.on 0x001 Reg.PCH_SCRUB.EN = true → s.dev.holds 0x001 1 = false →
      let r := (s.dev.reach s.dev.hlt.scrubAt).maintTake 0x001 1 0
      Completes .patrolScrub s
        (if r.1 then r.2
        else (r.2.setHlt { r.2.hlt with scrubAt := r.2.now + Config.perMs }).bump 0x001 Reg.PCH.SCRUB_REFUSED)) ∧
    (s.Runs → s.dev.holds 0x001 1 = true → ∀ corrected engine bad,
      let d := (s.dev.bump 0x001 Reg.PCH.SRAM_CORRECTED corrected).bump 0x050 Reg.ENG.ECC_CORRECTED (min engine corrected)
      let d := if corrected = 0 then d else d.fault 0x001 0x01 0
      let d := (bad.foldl (fun (d : Dev) x => d.scrubFinds x) d).maintEnd 0x001 1
      let e := d.setHlt { d.hlt with chunk := (d.hlt.chunk + 1) % 192 }
      Completes (.scrubChunkDone ⟨corrected, engine⟩ bad) s
        (if d.hlt.chunk = 191 then e.bump 0x001 Reg.PCH.SCRUB_PASSES else e)) ∧
    (s.Runs → s.dev.monitored = true →
      Completes .clockLoss s ((s.dev.setHlt { s.dev.hlt with badClock := true }).fault 0x001 0x19 0)) ∧
    (s.Alive → ∀ rail, s.dev.railWatched rail.toNat = true →
      let d := s.dev.setHlt { s.dev.hlt with badSupply := true }
      Completes (.supplyFault rail) s (if s.dev.pwr.power = .struck then d else d.fault 0x001 0x1A 0 rail.toNat)) ∧
    (s.Runs → ∀ pg : Fin 256, blockPages.contains pg.val = true →
      Completes (.parity pg) s (s.dev.fault pg.val 0x1B (pageUnit pg.val))) ∧
    (s.Runs →
      let r := (s.dev.reach s.dev.mst.scrubAt).maintTake 0x008 2 0
      Completes .mramScrub s
        (if r.1 then r.2 else r.2.setMst { r.2.mst with scrubAt := (s.dev.reach s.dev.mst.scrubAt).now + 1000 * Config.perMs })) ∧
    (s.Runs → s.dev.holds 0x008 2 = true → ∀ corrected bad,
      let d := s.dev.bump 0x008 Reg.MST.MRAM_CORRECTED corrected
      let d := if corrected = 0 then d else d.fault 0x008 0x0B 0
      let d := bad.foldl (fun (d : Dev) i => (d.mramBad i).fault 0x008 0x0C 0) d
      Completes (.mramScrubDone corrected bad) s
        ((d.setMst { d.mst with scrubAt := d.now + 24 * 3600 * 1000 * Config.perMs }).maintEnd 0x008 2))
end

