-- ==== Sys2Proof/Laws/State.lean ====
section
/-! SUPPORT. What each named update of the state leaves as it was: one lemma per field per update, and what the update reads
back as. -/

namespace Sys2Proof.Machine

open Sys2Proof

/-! `Dev.wr` -/

@[simp] theorem Dev.wr_now (d : Dev) (p : PageId) (f : Fld) (v i : Nat) : (d.wr p f v i).now = d.now := rfl
@[simp] theorem Dev.wr_free (d : Dev) (p : PageId) (f : Fld) (v i : Nat) : (d.wr p f v i).free = d.free := rfl
@[simp] theorem Dev.wr_maint (d : Dev) (p : PageId) (f : Fld) (v i : Nat) : (d.wr p f v i).maint = d.maint := rfl
@[simp] theorem Dev.wr_swc (d : Dev) (p : PageId) (f : Fld) (v i : Nat) : (d.wr p f v i).swc = d.swc := rfl
@[simp] theorem Dev.wr_xm (d : Dev) (p : PageId) (f : Fld) (v i : Nat) : (d.wr p f v i).xm = d.xm := rfl
@[simp] theorem Dev.wr_nrm (d : Dev) (p : PageId) (f : Fld) (v i : Nat) : (d.wr p f v i).nrm = d.nrm := rfl
@[simp] theorem Dev.wr_eng (d : Dev) (p : PageId) (f : Fld) (v i : Nat) : (d.wr p f v i).eng = d.eng := rfl
@[simp] theorem Dev.wr_gwy (d : Dev) (p : PageId) (f : Fld) (v i : Nat) : (d.wr p f v i).gwy = d.gwy := rfl
@[simp] theorem Dev.wr_tbu (d : Dev) (p : PageId) (f : Fld) (v i : Nat) : (d.wr p f v i).tbu = d.tbu := rfl
@[simp] theorem Dev.wr_hbr (d : Dev) (p : PageId) (f : Fld) (v i : Nat) : (d.wr p f v i).hbr = d.hbr := rfl
@[simp] theorem Dev.wr_eth (d : Dev) (p : PageId) (f : Fld) (v i : Nat) : (d.wr p f v i).eth = d.eth := rfl
@[simp] theorem Dev.wr_cb (d : Dev) (p : PageId) (f : Fld) (v i : Nat) : (d.wr p f v i).cb = d.cb := rfl
@[simp] theorem Dev.wr_fbus (d : Dev) (p : PageId) (f : Fld) (v i : Nat) : (d.wr p f v i).fbus = d.fbus := rfl
@[simp] theorem Dev.wr_insts (d : Dev) (p : PageId) (f : Fld) (v i : Nat) : (d.wr p f v i).insts = d.insts := rfl
@[simp] theorem Dev.wr_sty (d : Dev) (p : PageId) (f : Fld) (v i : Nat) : (d.wr p f v i).sty = d.sty := rfl
@[simp] theorem Dev.wr_pwr (d : Dev) (p : PageId) (f : Fld) (v i : Nat) : (d.wr p f v i).pwr = d.pwr := rfl
@[simp] theorem Dev.wr_mst (d : Dev) (p : PageId) (f : Fld) (v i : Nat) : (d.wr p f v i).mst = d.mst := rfl
@[simp] theorem Dev.wr_hlt (d : Dev) (p : PageId) (f : Fld) (v i : Nat) : (d.wr p f v i).hlt = d.hlt := rfl
@[simp] theorem Dev.wr_wires (d : Dev) (p : PageId) (f : Fld) (v i : Nat) : (d.wr p f v i).wires = d.wires := rfl

/-! `Dev.wrB` -/

@[simp] theorem Dev.wrB_now (d : Dev) (p : PageId) (f : Fld) (b : Bool) (i : Nat) : (d.wrB p f b i).now = d.now := rfl
@[simp] theorem Dev.wrB_free (d : Dev) (p : PageId) (f : Fld) (b : Bool) (i : Nat) : (d.wrB p f b i).free = d.free := rfl
@[simp] theorem Dev.wrB_maint (d : Dev) (p : PageId) (f : Fld) (b : Bool) (i : Nat) : (d.wrB p f b i).maint = d.maint := rfl
@[simp] theorem Dev.wrB_swc (d : Dev) (p : PageId) (f : Fld) (b : Bool) (i : Nat) : (d.wrB p f b i).swc = d.swc := rfl
@[simp] theorem Dev.wrB_xm (d : Dev) (p : PageId) (f : Fld) (b : Bool) (i : Nat) : (d.wrB p f b i).xm = d.xm := rfl
@[simp] theorem Dev.wrB_nrm (d : Dev) (p : PageId) (f : Fld) (b : Bool) (i : Nat) : (d.wrB p f b i).nrm = d.nrm := rfl
@[simp] theorem Dev.wrB_eng (d : Dev) (p : PageId) (f : Fld) (b : Bool) (i : Nat) : (d.wrB p f b i).eng = d.eng := rfl
@[simp] theorem Dev.wrB_gwy (d : Dev) (p : PageId) (f : Fld) (b : Bool) (i : Nat) : (d.wrB p f b i).gwy = d.gwy := rfl
@[simp] theorem Dev.wrB_tbu (d : Dev) (p : PageId) (f : Fld) (b : Bool) (i : Nat) : (d.wrB p f b i).tbu = d.tbu := rfl
@[simp] theorem Dev.wrB_hbr (d : Dev) (p : PageId) (f : Fld) (b : Bool) (i : Nat) : (d.wrB p f b i).hbr = d.hbr := rfl
@[simp] theorem Dev.wrB_eth (d : Dev) (p : PageId) (f : Fld) (b : Bool) (i : Nat) : (d.wrB p f b i).eth = d.eth := rfl
@[simp] theorem Dev.wrB_cb (d : Dev) (p : PageId) (f : Fld) (b : Bool) (i : Nat) : (d.wrB p f b i).cb = d.cb := rfl
@[simp] theorem Dev.wrB_fbus (d : Dev) (p : PageId) (f : Fld) (b : Bool) (i : Nat) : (d.wrB p f b i).fbus = d.fbus := rfl
@[simp] theorem Dev.wrB_insts (d : Dev) (p : PageId) (f : Fld) (b : Bool) (i : Nat) : (d.wrB p f b i).insts = d.insts := rfl
@[simp] theorem Dev.wrB_sty (d : Dev) (p : PageId) (f : Fld) (b : Bool) (i : Nat) : (d.wrB p f b i).sty = d.sty := rfl
@[simp] theorem Dev.wrB_pwr (d : Dev) (p : PageId) (f : Fld) (b : Bool) (i : Nat) : (d.wrB p f b i).pwr = d.pwr := rfl
@[simp] theorem Dev.wrB_mst (d : Dev) (p : PageId) (f : Fld) (b : Bool) (i : Nat) : (d.wrB p f b i).mst = d.mst := rfl
@[simp] theorem Dev.wrB_hlt (d : Dev) (p : PageId) (f : Fld) (b : Bool) (i : Nat) : (d.wrB p f b i).hlt = d.hlt := rfl
@[simp] theorem Dev.wrB_wires (d : Dev) (p : PageId) (f : Fld) (b : Bool) (i : Nat) : (d.wrB p f b i).wires = d.wires := rfl

/-! `Dev.bump` -/

@[simp] theorem Dev.bump_now (d : Dev) (p : PageId) (f : Fld) (n i : Nat) : (d.bump p f n i).now = d.now := rfl
@[simp] theorem Dev.bump_free (d : Dev) (p : PageId) (f : Fld) (n i : Nat) : (d.bump p f n i).free = d.free := rfl
@[simp] theorem Dev.bump_maint (d : Dev) (p : PageId) (f : Fld) (n i : Nat) : (d.bump p f n i).maint = d.maint := rfl
@[simp] theorem Dev.bump_swc (d : Dev) (p : PageId) (f : Fld) (n i : Nat) : (d.bump p f n i).swc = d.swc := rfl
@[simp] theorem Dev.bump_xm (d : Dev) (p : PageId) (f : Fld) (n i : Nat) : (d.bump p f n i).xm = d.xm := rfl
@[simp] theorem Dev.bump_nrm (d : Dev) (p : PageId) (f : Fld) (n i : Nat) : (d.bump p f n i).nrm = d.nrm := rfl
@[simp] theorem Dev.bump_eng (d : Dev) (p : PageId) (f : Fld) (n i : Nat) : (d.bump p f n i).eng = d.eng := rfl
@[simp] theorem Dev.bump_gwy (d : Dev) (p : PageId) (f : Fld) (n i : Nat) : (d.bump p f n i).gwy = d.gwy := rfl
@[simp] theorem Dev.bump_tbu (d : Dev) (p : PageId) (f : Fld) (n i : Nat) : (d.bump p f n i).tbu = d.tbu := rfl
@[simp] theorem Dev.bump_hbr (d : Dev) (p : PageId) (f : Fld) (n i : Nat) : (d.bump p f n i).hbr = d.hbr := rfl
@[simp] theorem Dev.bump_eth (d : Dev) (p : PageId) (f : Fld) (n i : Nat) : (d.bump p f n i).eth = d.eth := rfl
@[simp] theorem Dev.bump_cb (d : Dev) (p : PageId) (f : Fld) (n i : Nat) : (d.bump p f n i).cb = d.cb := rfl
@[simp] theorem Dev.bump_fbus (d : Dev) (p : PageId) (f : Fld) (n i : Nat) : (d.bump p f n i).fbus = d.fbus := rfl
@[simp] theorem Dev.bump_insts (d : Dev) (p : PageId) (f : Fld) (n i : Nat) : (d.bump p f n i).insts = d.insts := rfl
@[simp] theorem Dev.bump_sty (d : Dev) (p : PageId) (f : Fld) (n i : Nat) : (d.bump p f n i).sty = d.sty := rfl
@[simp] theorem Dev.bump_pwr (d : Dev) (p : PageId) (f : Fld) (n i : Nat) : (d.bump p f n i).pwr = d.pwr := rfl
@[simp] theorem Dev.bump_mst (d : Dev) (p : PageId) (f : Fld) (n i : Nat) : (d.bump p f n i).mst = d.mst := rfl
@[simp] theorem Dev.bump_hlt (d : Dev) (p : PageId) (f : Fld) (n i : Nat) : (d.bump p f n i).hlt = d.hlt := rfl
@[simp] theorem Dev.bump_wires (d : Dev) (p : PageId) (f : Fld) (n i : Nat) : (d.bump p f n i).wires = d.wires := rfl

/-! `Dev.bumpSat` -/

@[simp] theorem Dev.bumpSat_now (d : Dev) (p : PageId) (f : Fld) (n : Nat) : (d.bumpSat p f n).now = d.now := rfl
@[simp] theorem Dev.bumpSat_free (d : Dev) (p : PageId) (f : Fld) (n : Nat) : (d.bumpSat p f n).free = d.free := rfl
@[simp] theorem Dev.bumpSat_maint (d : Dev) (p : PageId) (f : Fld) (n : Nat) : (d.bumpSat p f n).maint = d.maint := rfl
@[simp] theorem Dev.bumpSat_swc (d : Dev) (p : PageId) (f : Fld) (n : Nat) : (d.bumpSat p f n).swc = d.swc := rfl
@[simp] theorem Dev.bumpSat_xm (d : Dev) (p : PageId) (f : Fld) (n : Nat) : (d.bumpSat p f n).xm = d.xm := rfl
@[simp] theorem Dev.bumpSat_nrm (d : Dev) (p : PageId) (f : Fld) (n : Nat) : (d.bumpSat p f n).nrm = d.nrm := rfl
@[simp] theorem Dev.bumpSat_eng (d : Dev) (p : PageId) (f : Fld) (n : Nat) : (d.bumpSat p f n).eng = d.eng := rfl
@[simp] theorem Dev.bumpSat_gwy (d : Dev) (p : PageId) (f : Fld) (n : Nat) : (d.bumpSat p f n).gwy = d.gwy := rfl
@[simp] theorem Dev.bumpSat_tbu (d : Dev) (p : PageId) (f : Fld) (n : Nat) : (d.bumpSat p f n).tbu = d.tbu := rfl
@[simp] theorem Dev.bumpSat_hbr (d : Dev) (p : PageId) (f : Fld) (n : Nat) : (d.bumpSat p f n).hbr = d.hbr := rfl
@[simp] theorem Dev.bumpSat_eth (d : Dev) (p : PageId) (f : Fld) (n : Nat) : (d.bumpSat p f n).eth = d.eth := rfl
@[simp] theorem Dev.bumpSat_cb (d : Dev) (p : PageId) (f : Fld) (n : Nat) : (d.bumpSat p f n).cb = d.cb := rfl
@[simp] theorem Dev.bumpSat_fbus (d : Dev) (p : PageId) (f : Fld) (n : Nat) : (d.bumpSat p f n).fbus = d.fbus := rfl
@[simp] theorem Dev.bumpSat_insts (d : Dev) (p : PageId) (f : Fld) (n : Nat) : (d.bumpSat p f n).insts = d.insts := rfl
@[simp] theorem Dev.bumpSat_sty (d : Dev) (p : PageId) (f : Fld) (n : Nat) : (d.bumpSat p f n).sty = d.sty := rfl
@[simp] theorem Dev.bumpSat_pwr (d : Dev) (p : PageId) (f : Fld) (n : Nat) : (d.bumpSat p f n).pwr = d.pwr := rfl
@[simp] theorem Dev.bumpSat_mst (d : Dev) (p : PageId) (f : Fld) (n : Nat) : (d.bumpSat p f n).mst = d.mst := rfl
@[simp] theorem Dev.bumpSat_hlt (d : Dev) (p : PageId) (f : Fld) (n : Nat) : (d.bumpSat p f n).hlt = d.hlt := rfl
@[simp] theorem Dev.bumpSat_wires (d : Dev) (p : PageId) (f : Fld) (n : Nat) : (d.bumpSat p f n).wires = d.wires := rfl

/-! `Dev.bump64` -/

@[simp] theorem Dev.bump64_now (d : Dev) (p : PageId) (lo hi : Fld) (n i : Nat) : (d.bump64 p lo hi n i).now = d.now := rfl
@[simp] theorem Dev.bump64_free (d : Dev) (p : PageId) (lo hi : Fld) (n i : Nat) : (d.bump64 p lo hi n i).free = d.free := rfl
@[simp] theorem Dev.bump64_maint (d : Dev) (p : PageId) (lo hi : Fld) (n i : Nat) : (d.bump64 p lo hi n i).maint = d.maint := rfl
@[simp] theorem Dev.bump64_swc (d : Dev) (p : PageId) (lo hi : Fld) (n i : Nat) : (d.bump64 p lo hi n i).swc = d.swc := rfl
@[simp] theorem Dev.bump64_xm (d : Dev) (p : PageId) (lo hi : Fld) (n i : Nat) : (d.bump64 p lo hi n i).xm = d.xm := rfl
@[simp] theorem Dev.bump64_nrm (d : Dev) (p : PageId) (lo hi : Fld) (n i : Nat) : (d.bump64 p lo hi n i).nrm = d.nrm := rfl
@[simp] theorem Dev.bump64_eng (d : Dev) (p : PageId) (lo hi : Fld) (n i : Nat) : (d.bump64 p lo hi n i).eng = d.eng := rfl
@[simp] theorem Dev.bump64_gwy (d : Dev) (p : PageId) (lo hi : Fld) (n i : Nat) : (d.bump64 p lo hi n i).gwy = d.gwy := rfl
@[simp] theorem Dev.bump64_tbu (d : Dev) (p : PageId) (lo hi : Fld) (n i : Nat) : (d.bump64 p lo hi n i).tbu = d.tbu := rfl
@[simp] theorem Dev.bump64_hbr (d : Dev) (p : PageId) (lo hi : Fld) (n i : Nat) : (d.bump64 p lo hi n i).hbr = d.hbr := rfl
@[simp] theorem Dev.bump64_eth (d : Dev) (p : PageId) (lo hi : Fld) (n i : Nat) : (d.bump64 p lo hi n i).eth = d.eth := rfl
@[simp] theorem Dev.bump64_cb (d : Dev) (p : PageId) (lo hi : Fld) (n i : Nat) : (d.bump64 p lo hi n i).cb = d.cb := rfl
@[simp] theorem Dev.bump64_fbus (d : Dev) (p : PageId) (lo hi : Fld) (n i : Nat) : (d.bump64 p lo hi n i).fbus = d.fbus := rfl
@[simp] theorem Dev.bump64_insts (d : Dev) (p : PageId) (lo hi : Fld) (n i : Nat) : (d.bump64 p lo hi n i).insts = d.insts := rfl
@[simp] theorem Dev.bump64_sty (d : Dev) (p : PageId) (lo hi : Fld) (n i : Nat) : (d.bump64 p lo hi n i).sty = d.sty := rfl
@[simp] theorem Dev.bump64_pwr (d : Dev) (p : PageId) (lo hi : Fld) (n i : Nat) : (d.bump64 p lo hi n i).pwr = d.pwr := rfl
@[simp] theorem Dev.bump64_mst (d : Dev) (p : PageId) (lo hi : Fld) (n i : Nat) : (d.bump64 p lo hi n i).mst = d.mst := rfl
@[simp] theorem Dev.bump64_hlt (d : Dev) (p : PageId) (lo hi : Fld) (n i : Nat) : (d.bump64 p lo hi n i).hlt = d.hlt := rfl
@[simp] theorem Dev.bump64_wires (d : Dev) (p : PageId) (lo hi : Fld) (n i : Nat) : (d.bump64 p lo hi n i).wires = d.wires := rfl

/-! `Dev.countCells` -/

@[simp] theorem Dev.countCells_now (d : Dev) (a b n : Nat) : (d.countCells a b n).now = d.now := rfl
@[simp] theorem Dev.countCells_free (d : Dev) (a b n : Nat) : (d.countCells a b n).free = d.free := rfl
@[simp] theorem Dev.countCells_maint (d : Dev) (a b n : Nat) : (d.countCells a b n).maint = d.maint := rfl
@[simp] theorem Dev.countCells_swc (d : Dev) (a b n : Nat) : (d.countCells a b n).swc = d.swc := rfl
@[simp] theorem Dev.countCells_xm (d : Dev) (a b n : Nat) : (d.countCells a b n).xm = d.xm := rfl
@[simp] theorem Dev.countCells_nrm (d : Dev) (a b n : Nat) : (d.countCells a b n).nrm = d.nrm := rfl
@[simp] theorem Dev.countCells_eng (d : Dev) (a b n : Nat) : (d.countCells a b n).eng = d.eng := rfl
@[simp] theorem Dev.countCells_gwy (d : Dev) (a b n : Nat) : (d.countCells a b n).gwy = d.gwy := rfl
@[simp] theorem Dev.countCells_tbu (d : Dev) (a b n : Nat) : (d.countCells a b n).tbu = d.tbu := rfl
@[simp] theorem Dev.countCells_hbr (d : Dev) (a b n : Nat) : (d.countCells a b n).hbr = d.hbr := rfl
@[simp] theorem Dev.countCells_eth (d : Dev) (a b n : Nat) : (d.countCells a b n).eth = d.eth := rfl
@[simp] theorem Dev.countCells_cb (d : Dev) (a b n : Nat) : (d.countCells a b n).cb = d.cb := rfl
@[simp] theorem Dev.countCells_fbus (d : Dev) (a b n : Nat) : (d.countCells a b n).fbus = d.fbus := rfl
@[simp] theorem Dev.countCells_insts (d : Dev) (a b n : Nat) : (d.countCells a b n).insts = d.insts := rfl
@[simp] theorem Dev.countCells_sty (d : Dev) (a b n : Nat) : (d.countCells a b n).sty = d.sty := rfl
@[simp] theorem Dev.countCells_pwr (d : Dev) (a b n : Nat) : (d.countCells a b n).pwr = d.pwr := rfl
@[simp] theorem Dev.countCells_mst (d : Dev) (a b n : Nat) : (d.countCells a b n).mst = d.mst := rfl
@[simp] theorem Dev.countCells_hlt (d : Dev) (a b n : Nat) : (d.countCells a b n).hlt = d.hlt := rfl
@[simp] theorem Dev.countCells_wires (d : Dev) (a b n : Nat) : (d.countCells a b n).wires = d.wires := rfl

/-! `Dev.drawn` -/

@[simp] theorem Dev.drawn_regs (d : Dev) : (d.drawn).regs = d.regs := rfl
@[simp] theorem Dev.drawn_now (d : Dev) : (d.drawn).now = d.now := rfl
@[simp] theorem Dev.drawn_maint (d : Dev) : (d.drawn).maint = d.maint := rfl
@[simp] theorem Dev.drawn_swc (d : Dev) : (d.drawn).swc = d.swc := rfl
@[simp] theorem Dev.drawn_xm (d : Dev) : (d.drawn).xm = d.xm := rfl
@[simp] theorem Dev.drawn_nrm (d : Dev) : (d.drawn).nrm = d.nrm := rfl
@[simp] theorem Dev.drawn_eng (d : Dev) : (d.drawn).eng = d.eng := rfl
@[simp] theorem Dev.drawn_gwy (d : Dev) : (d.drawn).gwy = d.gwy := rfl
@[simp] theorem Dev.drawn_tbu (d : Dev) : (d.drawn).tbu = d.tbu := rfl
@[simp] theorem Dev.drawn_hbr (d : Dev) : (d.drawn).hbr = d.hbr := rfl
@[simp] theorem Dev.drawn_eth (d : Dev) : (d.drawn).eth = d.eth := rfl
@[simp] theorem Dev.drawn_cb (d : Dev) : (d.drawn).cb = d.cb := rfl
@[simp] theorem Dev.drawn_fbus (d : Dev) : (d.drawn).fbus = d.fbus := rfl
@[simp] theorem Dev.drawn_insts (d : Dev) : (d.drawn).insts = d.insts := rfl
@[simp] theorem Dev.drawn_sty (d : Dev) : (d.drawn).sty = d.sty := rfl
@[simp] theorem Dev.drawn_pwr (d : Dev) : (d.drawn).pwr = d.pwr := rfl
@[simp] theorem Dev.drawn_mst (d : Dev) : (d.drawn).mst = d.mst := rfl
@[simp] theorem Dev.drawn_hlt (d : Dev) : (d.drawn).hlt = d.hlt := rfl
@[simp] theorem Dev.drawn_wires (d : Dev) : (d.drawn).wires = d.wires := rfl

/-! `Dev.emitWire` -/

@[simp] theorem Dev.emitWire_regs (d : Dev) (w : Wire) : (d.emitWire w).regs = d.regs := rfl
@[simp] theorem Dev.emitWire_now (d : Dev) (w : Wire) : (d.emitWire w).now = d.now := rfl
@[simp] theorem Dev.emitWire_free (d : Dev) (w : Wire) : (d.emitWire w).free = d.free := rfl
@[simp] theorem Dev.emitWire_maint (d : Dev) (w : Wire) : (d.emitWire w).maint = d.maint := rfl
@[simp] theorem Dev.emitWire_swc (d : Dev) (w : Wire) : (d.emitWire w).swc = d.swc := rfl
@[simp] theorem Dev.emitWire_xm (d : Dev) (w : Wire) : (d.emitWire w).xm = d.xm := rfl
@[simp] theorem Dev.emitWire_nrm (d : Dev) (w : Wire) : (d.emitWire w).nrm = d.nrm := rfl
@[simp] theorem Dev.emitWire_eng (d : Dev) (w : Wire) : (d.emitWire w).eng = d.eng := rfl
@[simp] theorem Dev.emitWire_gwy (d : Dev) (w : Wire) : (d.emitWire w).gwy = d.gwy := rfl
@[simp] theorem Dev.emitWire_tbu (d : Dev) (w : Wire) : (d.emitWire w).tbu = d.tbu := rfl
@[simp] theorem Dev.emitWire_hbr (d : Dev) (w : Wire) : (d.emitWire w).hbr = d.hbr := rfl
@[simp] theorem Dev.emitWire_eth (d : Dev) (w : Wire) : (d.emitWire w).eth = d.eth := rfl
@[simp] theorem Dev.emitWire_cb (d : Dev) (w : Wire) : (d.emitWire w).cb = d.cb := rfl
@[simp] theorem Dev.emitWire_fbus (d : Dev) (w : Wire) : (d.emitWire w).fbus = d.fbus := rfl
@[simp] theorem Dev.emitWire_insts (d : Dev) (w : Wire) : (d.emitWire w).insts = d.insts := rfl
@[simp] theorem Dev.emitWire_sty (d : Dev) (w : Wire) : (d.emitWire w).sty = d.sty := rfl
@[simp] theorem Dev.emitWire_pwr (d : Dev) (w : Wire) : (d.emitWire w).pwr = d.pwr := rfl
@[simp] theorem Dev.emitWire_mst (d : Dev) (w : Wire) : (d.emitWire w).mst = d.mst := rfl
@[simp] theorem Dev.emitWire_hlt (d : Dev) (w : Wire) : (d.emitWire w).hlt = d.hlt := rfl

/-! `Dev.setMsix` -/

@[simp] theorem Dev.setMsix_regs (d : Dev) (k : Nat) (v : BitVec 32) : (d.setMsix k v).regs = d.regs := rfl
@[simp] theorem Dev.setMsix_now (d : Dev) (k : Nat) (v : BitVec 32) : (d.setMsix k v).now = d.now := rfl
@[simp] theorem Dev.setMsix_free (d : Dev) (k : Nat) (v : BitVec 32) : (d.setMsix k v).free = d.free := rfl
@[simp] theorem Dev.setMsix_maint (d : Dev) (k : Nat) (v : BitVec 32) : (d.setMsix k v).maint = d.maint := rfl
@[simp] theorem Dev.setMsix_swc (d : Dev) (k : Nat) (v : BitVec 32) : (d.setMsix k v).swc = d.swc := rfl
@[simp] theorem Dev.setMsix_xm (d : Dev) (k : Nat) (v : BitVec 32) : (d.setMsix k v).xm = d.xm := rfl
@[simp] theorem Dev.setMsix_nrm (d : Dev) (k : Nat) (v : BitVec 32) : (d.setMsix k v).nrm = d.nrm := rfl
@[simp] theorem Dev.setMsix_eng (d : Dev) (k : Nat) (v : BitVec 32) : (d.setMsix k v).eng = d.eng := rfl
@[simp] theorem Dev.setMsix_gwy (d : Dev) (k : Nat) (v : BitVec 32) : (d.setMsix k v).gwy = d.gwy := rfl
@[simp] theorem Dev.setMsix_tbu (d : Dev) (k : Nat) (v : BitVec 32) : (d.setMsix k v).tbu = d.tbu := rfl
@[simp] theorem Dev.setMsix_eth (d : Dev) (k : Nat) (v : BitVec 32) : (d.setMsix k v).eth = d.eth := rfl
@[simp] theorem Dev.setMsix_cb (d : Dev) (k : Nat) (v : BitVec 32) : (d.setMsix k v).cb = d.cb := rfl
@[simp] theorem Dev.setMsix_fbus (d : Dev) (k : Nat) (v : BitVec 32) : (d.setMsix k v).fbus = d.fbus := rfl
@[simp] theorem Dev.setMsix_insts (d : Dev) (k : Nat) (v : BitVec 32) : (d.setMsix k v).insts = d.insts := rfl
@[simp] theorem Dev.setMsix_sty (d : Dev) (k : Nat) (v : BitVec 32) : (d.setMsix k v).sty = d.sty := rfl
@[simp] theorem Dev.setMsix_pwr (d : Dev) (k : Nat) (v : BitVec 32) : (d.setMsix k v).pwr = d.pwr := rfl
@[simp] theorem Dev.setMsix_mst (d : Dev) (k : Nat) (v : BitVec 32) : (d.setMsix k v).mst = d.mst := rfl
@[simp] theorem Dev.setMsix_hlt (d : Dev) (k : Nat) (v : BitVec 32) : (d.setMsix k v).hlt = d.hlt := rfl
@[simp] theorem Dev.setMsix_wires (d : Dev) (k : Nat) (v : BitVec 32) : (d.setMsix k v).wires = d.wires := rfl

/-! `Dev.setMaint` -/

@[simp] theorem Dev.setMaint_regs (d : Dev) (p : PageId) (m : Maint) : (d.setMaint p m).regs = d.regs := rfl
@[simp] theorem Dev.setMaint_now (d : Dev) (p : PageId) (m : Maint) : (d.setMaint p m).now = d.now := rfl
@[simp] theorem Dev.setMaint_free (d : Dev) (p : PageId) (m : Maint) : (d.setMaint p m).free = d.free := rfl
@[simp] theorem Dev.setMaint_swc (d : Dev) (p : PageId) (m : Maint) : (d.setMaint p m).swc = d.swc := rfl
@[simp] theorem Dev.setMaint_xm (d : Dev) (p : PageId) (m : Maint) : (d.setMaint p m).xm = d.xm := rfl
@[simp] theorem Dev.setMaint_nrm (d : Dev) (p : PageId) (m : Maint) : (d.setMaint p m).nrm = d.nrm := rfl
@[simp] theorem Dev.setMaint_eng (d : Dev) (p : PageId) (m : Maint) : (d.setMaint p m).eng = d.eng := rfl
@[simp] theorem Dev.setMaint_gwy (d : Dev) (p : PageId) (m : Maint) : (d.setMaint p m).gwy = d.gwy := rfl
@[simp] theorem Dev.setMaint_tbu (d : Dev) (p : PageId) (m : Maint) : (d.setMaint p m).tbu = d.tbu := rfl
@[simp] theorem Dev.setMaint_hbr (d : Dev) (p : PageId) (m : Maint) : (d.setMaint p m).hbr = d.hbr := rfl
@[simp] theorem Dev.setMaint_eth (d : Dev) (p : PageId) (m : Maint) : (d.setMaint p m).eth = d.eth := rfl
@[simp] theorem Dev.setMaint_cb (d : Dev) (p : PageId) (m : Maint) : (d.setMaint p m).cb = d.cb := rfl
@[simp] theorem Dev.setMaint_fbus (d : Dev) (p : PageId) (m : Maint) : (d.setMaint p m).fbus = d.fbus := rfl
@[simp] theorem Dev.setMaint_insts (d : Dev) (p : PageId) (m : Maint) : (d.setMaint p m).insts = d.insts := rfl
@[simp] theorem Dev.setMaint_sty (d : Dev) (p : PageId) (m : Maint) : (d.setMaint p m).sty = d.sty := rfl
@[simp] theorem Dev.setMaint_pwr (d : Dev) (p : PageId) (m : Maint) : (d.setMaint p m).pwr = d.pwr := rfl
@[simp] theorem Dev.setMaint_mst (d : Dev) (p : PageId) (m : Maint) : (d.setMaint p m).mst = d.mst := rfl
@[simp] theorem Dev.setMaint_hlt (d : Dev) (p : PageId) (m : Maint) : (d.setMaint p m).hlt = d.hlt := rfl
@[simp] theorem Dev.setMaint_wires (d : Dev) (p : PageId) (m : Maint) : (d.setMaint p m).wires = d.wires := rfl

/-! `Dev.reach` -/

@[simp] theorem Dev.reach_regs (d : Dev) (t : Nat) : (d.reach t).regs = d.regs := rfl
@[simp] theorem Dev.reach_free (d : Dev) (t : Nat) : (d.reach t).free = d.free := rfl
@[simp] theorem Dev.reach_maint (d : Dev) (t : Nat) : (d.reach t).maint = d.maint := rfl
@[simp] theorem Dev.reach_swc (d : Dev) (t : Nat) : (d.reach t).swc = d.swc := rfl
@[simp] theorem Dev.reach_xm (d : Dev) (t : Nat) : (d.reach t).xm = d.xm := rfl
@[simp] theorem Dev.reach_nrm (d : Dev) (t : Nat) : (d.reach t).nrm = d.nrm := rfl
@[simp] theorem Dev.reach_eng (d : Dev) (t : Nat) : (d.reach t).eng = d.eng := rfl
@[simp] theorem Dev.reach_gwy (d : Dev) (t : Nat) : (d.reach t).gwy = d.gwy := rfl
@[simp] theorem Dev.reach_tbu (d : Dev) (t : Nat) : (d.reach t).tbu = d.tbu := rfl
@[simp] theorem Dev.reach_hbr (d : Dev) (t : Nat) : (d.reach t).hbr = d.hbr := rfl
@[simp] theorem Dev.reach_eth (d : Dev) (t : Nat) : (d.reach t).eth = d.eth := rfl
@[simp] theorem Dev.reach_cb (d : Dev) (t : Nat) : (d.reach t).cb = d.cb := rfl
@[simp] theorem Dev.reach_fbus (d : Dev) (t : Nat) : (d.reach t).fbus = d.fbus := rfl
@[simp] theorem Dev.reach_insts (d : Dev) (t : Nat) : (d.reach t).insts = d.insts := rfl
@[simp] theorem Dev.reach_sty (d : Dev) (t : Nat) : (d.reach t).sty = d.sty := rfl
@[simp] theorem Dev.reach_pwr (d : Dev) (t : Nat) : (d.reach t).pwr = d.pwr := rfl
@[simp] theorem Dev.reach_mst (d : Dev) (t : Nat) : (d.reach t).mst = d.mst := rfl
@[simp] theorem Dev.reach_hlt (d : Dev) (t : Nat) : (d.reach t).hlt = d.hlt := rfl
@[simp] theorem Dev.reach_wires (d : Dev) (t : Nat) : (d.reach t).wires = d.wires := rfl

/-! `Dev.pass` -/

@[simp] theorem Dev.pass_regs (d : Dev) (t : Nat) : (d.pass t).regs = d.regs := rfl
@[simp] theorem Dev.pass_free (d : Dev) (t : Nat) : (d.pass t).free = d.free := rfl
@[simp] theorem Dev.pass_maint (d : Dev) (t : Nat) : (d.pass t).maint = d.maint := rfl
@[simp] theorem Dev.pass_swc (d : Dev) (t : Nat) : (d.pass t).swc = d.swc := rfl
@[simp] theorem Dev.pass_xm (d : Dev) (t : Nat) : (d.pass t).xm = d.xm := rfl
@[simp] theorem Dev.pass_nrm (d : Dev) (t : Nat) : (d.pass t).nrm = d.nrm := rfl
@[simp] theorem Dev.pass_eng (d : Dev) (t : Nat) : (d.pass t).eng = d.eng := rfl
@[simp] theorem Dev.pass_gwy (d : Dev) (t : Nat) : (d.pass t).gwy = d.gwy := rfl
@[simp] theorem Dev.pass_tbu (d : Dev) (t : Nat) : (d.pass t).tbu = d.tbu := rfl
@[simp] theorem Dev.pass_hbr (d : Dev) (t : Nat) : (d.pass t).hbr = d.hbr := rfl
@[simp] theorem Dev.pass_eth (d : Dev) (t : Nat) : (d.pass t).eth = d.eth := rfl
@[simp] theorem Dev.pass_cb (d : Dev) (t : Nat) : (d.pass t).cb = d.cb := rfl
@[simp] theorem Dev.pass_fbus (d : Dev) (t : Nat) : (d.pass t).fbus = d.fbus := rfl
@[simp] theorem Dev.pass_insts (d : Dev) (t : Nat) : (d.pass t).insts = d.insts := rfl
@[simp] theorem Dev.pass_sty (d : Dev) (t : Nat) : (d.pass t).sty = d.sty := rfl
@[simp] theorem Dev.pass_pwr (d : Dev) (t : Nat) : (d.pass t).pwr = d.pwr := rfl
@[simp] theorem Dev.pass_mst (d : Dev) (t : Nat) : (d.pass t).mst = d.mst := rfl
@[simp] theorem Dev.pass_hlt (d : Dev) (t : Nat) : (d.pass t).hlt = d.hlt := rfl
@[simp] theorem Dev.pass_wires (d : Dev) (t : Nat) : (d.pass t).wires = d.wires := rfl

/-! `Dev.setEport` -/

@[simp] theorem Dev.setEport_regs (d : Dev) (p : Nat) (x : EthPort) : (d.setEport p x).regs = d.regs := rfl
@[simp] theorem Dev.setEport_now (d : Dev) (p : Nat) (x : EthPort) : (d.setEport p x).now = d.now := rfl
@[simp] theorem Dev.setEport_free (d : Dev) (p : Nat) (x : EthPort) : (d.setEport p x).free = d.free := rfl
@[simp] theorem Dev.setEport_maint (d : Dev) (p : Nat) (x : EthPort) : (d.setEport p x).maint = d.maint := rfl
@[simp] theorem Dev.setEport_swc (d : Dev) (p : Nat) (x : EthPort) : (d.setEport p x).swc = d.swc := rfl
@[simp] theorem Dev.setEport_xm (d : Dev) (p : Nat) (x : EthPort) : (d.setEport p x).xm = d.xm := rfl
@[simp] theorem Dev.setEport_nrm (d : Dev) (p : Nat) (x : EthPort) : (d.setEport p x).nrm = d.nrm := rfl
@[simp] theorem Dev.setEport_eng (d : Dev) (p : Nat) (x : EthPort) : (d.setEport p x).eng = d.eng := rfl
@[simp] theorem Dev.setEport_gwy (d : Dev) (p : Nat) (x : EthPort) : (d.setEport p x).gwy = d.gwy := rfl
@[simp] theorem Dev.setEport_tbu (d : Dev) (p : Nat) (x : EthPort) : (d.setEport p x).tbu = d.tbu := rfl
@[simp] theorem Dev.setEport_hbr (d : Dev) (p : Nat) (x : EthPort) : (d.setEport p x).hbr = d.hbr := rfl
@[simp] theorem Dev.setEport_cb (d : Dev) (p : Nat) (x : EthPort) : (d.setEport p x).cb = d.cb := rfl
@[simp] theorem Dev.setEport_fbus (d : Dev) (p : Nat) (x : EthPort) : (d.setEport p x).fbus = d.fbus := rfl
@[simp] theorem Dev.setEport_insts (d : Dev) (p : Nat) (x : EthPort) : (d.setEport p x).insts = d.insts := rfl
@[simp] theorem Dev.setEport_sty (d : Dev) (p : Nat) (x : EthPort) : (d.setEport p x).sty = d.sty := rfl
@[simp] theorem Dev.setEport_pwr (d : Dev) (p : Nat) (x : EthPort) : (d.setEport p x).pwr = d.pwr := rfl
@[simp] theorem Dev.setEport_mst (d : Dev) (p : Nat) (x : EthPort) : (d.setEport p x).mst = d.mst := rfl
@[simp] theorem Dev.setEport_hlt (d : Dev) (p : Nat) (x : EthPort) : (d.setEport p x).hlt = d.hlt := rfl
@[simp] theorem Dev.setEport_wires (d : Dev) (p : Nat) (x : EthPort) : (d.setEport p x).wires = d.wires := rfl

/-! `Dev.setCan` -/

@[simp] theorem Dev.setCan_regs (d : Dev) (c : Nat) (x : CanCh) : (d.setCan c x).regs = d.regs := rfl
@[simp] theorem Dev.setCan_now (d : Dev) (c : Nat) (x : CanCh) : (d.setCan c x).now = d.now := rfl
@[simp] theorem Dev.setCan_free (d : Dev) (c : Nat) (x : CanCh) : (d.setCan c x).free = d.free := rfl
@[simp] theorem Dev.setCan_maint (d : Dev) (c : Nat) (x : CanCh) : (d.setCan c x).maint = d.maint := rfl
@[simp] theorem Dev.setCan_swc (d : Dev) (c : Nat) (x : CanCh) : (d.setCan c x).swc = d.swc := rfl
@[simp] theorem Dev.setCan_xm (d : Dev) (c : Nat) (x : CanCh) : (d.setCan c x).xm = d.xm := rfl
@[simp] theorem Dev.setCan_nrm (d : Dev) (c : Nat) (x : CanCh) : (d.setCan c x).nrm = d.nrm := rfl
@[simp] theorem Dev.setCan_eng (d : Dev) (c : Nat) (x : CanCh) : (d.setCan c x).eng = d.eng := rfl
@[simp] theorem Dev.setCan_gwy (d : Dev) (c : Nat) (x : CanCh) : (d.setCan c x).gwy = d.gwy := rfl
@[simp] theorem Dev.setCan_tbu (d : Dev) (c : Nat) (x : CanCh) : (d.setCan c x).tbu = d.tbu := rfl
@[simp] theorem Dev.setCan_hbr (d : Dev) (c : Nat) (x : CanCh) : (d.setCan c x).hbr = d.hbr := rfl
@[simp] theorem Dev.setCan_eth (d : Dev) (c : Nat) (x : CanCh) : (d.setCan c x).eth = d.eth := rfl
@[simp] theorem Dev.setCan_cb (d : Dev) (c : Nat) (x : CanCh) : (d.setCan c x).cb = d.cb := rfl
@[simp] theorem Dev.setCan_insts (d : Dev) (c : Nat) (x : CanCh) : (d.setCan c x).insts = d.insts := rfl
@[simp] theorem Dev.setCan_sty (d : Dev) (c : Nat) (x : CanCh) : (d.setCan c x).sty = d.sty := rfl
@[simp] theorem Dev.setCan_pwr (d : Dev) (c : Nat) (x : CanCh) : (d.setCan c x).pwr = d.pwr := rfl
@[simp] theorem Dev.setCan_mst (d : Dev) (c : Nat) (x : CanCh) : (d.setCan c x).mst = d.mst := rfl
@[simp] theorem Dev.setCan_hlt (d : Dev) (c : Nat) (x : CanCh) : (d.setCan c x).hlt = d.hlt := rfl
@[simp] theorem Dev.setCan_wires (d : Dev) (c : Nat) (x : CanCh) : (d.setCan c x).wires = d.wires := rfl

/-! `Dev.setLin` -/

@[simp] theorem Dev.setLin_regs (d : Dev) (c : Nat) (x : LinCh) : (d.setLin c x).regs = d.regs := rfl
@[simp] theorem Dev.setLin_now (d : Dev) (c : Nat) (x : LinCh) : (d.setLin c x).now = d.now := rfl
@[simp] theorem Dev.setLin_free (d : Dev) (c : Nat) (x : LinCh) : (d.setLin c x).free = d.free := rfl
@[simp] theorem Dev.setLin_maint (d : Dev) (c : Nat) (x : LinCh) : (d.setLin c x).maint = d.maint := rfl
@[simp] theorem Dev.setLin_swc (d : Dev) (c : Nat) (x : LinCh) : (d.setLin c x).swc = d.swc := rfl
@[simp] theorem Dev.setLin_xm (d : Dev) (c : Nat) (x : LinCh) : (d.setLin c x).xm = d.xm := rfl
@[simp] theorem Dev.setLin_nrm (d : Dev) (c : Nat) (x : LinCh) : (d.setLin c x).nrm = d.nrm := rfl
@[simp] theorem Dev.setLin_eng (d : Dev) (c : Nat) (x : LinCh) : (d.setLin c x).eng = d.eng := rfl
@[simp] theorem Dev.setLin_gwy (d : Dev) (c : Nat) (x : LinCh) : (d.setLin c x).gwy = d.gwy := rfl
@[simp] theorem Dev.setLin_tbu (d : Dev) (c : Nat) (x : LinCh) : (d.setLin c x).tbu = d.tbu := rfl
@[simp] theorem Dev.setLin_hbr (d : Dev) (c : Nat) (x : LinCh) : (d.setLin c x).hbr = d.hbr := rfl
@[simp] theorem Dev.setLin_eth (d : Dev) (c : Nat) (x : LinCh) : (d.setLin c x).eth = d.eth := rfl
@[simp] theorem Dev.setLin_cb (d : Dev) (c : Nat) (x : LinCh) : (d.setLin c x).cb = d.cb := rfl
@[simp] theorem Dev.setLin_insts (d : Dev) (c : Nat) (x : LinCh) : (d.setLin c x).insts = d.insts := rfl
@[simp] theorem Dev.setLin_sty (d : Dev) (c : Nat) (x : LinCh) : (d.setLin c x).sty = d.sty := rfl
@[simp] theorem Dev.setLin_pwr (d : Dev) (c : Nat) (x : LinCh) : (d.setLin c x).pwr = d.pwr := rfl
@[simp] theorem Dev.setLin_mst (d : Dev) (c : Nat) (x : LinCh) : (d.setLin c x).mst = d.mst := rfl
@[simp] theorem Dev.setLin_hlt (d : Dev) (c : Nat) (x : LinCh) : (d.setLin c x).hlt = d.hlt := rfl
@[simp] theorem Dev.setLin_wires (d : Dev) (c : Nat) (x : LinCh) : (d.setLin c x).wires = d.wires := rfl

/-! `Dev.setUart` -/

@[simp] theorem Dev.setUart_regs (d : Dev) (c : Nat) (x : Uart) : (d.setUart c x).regs = d.regs := rfl
@[simp] theorem Dev.setUart_now (d : Dev) (c : Nat) (x : Uart) : (d.setUart c x).now = d.now := rfl
@[simp] theorem Dev.setUart_free (d : Dev) (c : Nat) (x : Uart) : (d.setUart c x).free = d.free := rfl
@[simp] theorem Dev.setUart_maint (d : Dev) (c : Nat) (x : Uart) : (d.setUart c x).maint = d.maint := rfl
@[simp] theorem Dev.setUart_swc (d : Dev) (c : Nat) (x : Uart) : (d.setUart c x).swc = d.swc := rfl
@[simp] theorem Dev.setUart_xm (d : Dev) (c : Nat) (x : Uart) : (d.setUart c x).xm = d.xm := rfl
@[simp] theorem Dev.setUart_nrm (d : Dev) (c : Nat) (x : Uart) : (d.setUart c x).nrm = d.nrm := rfl
@[simp] theorem Dev.setUart_eng (d : Dev) (c : Nat) (x : Uart) : (d.setUart c x).eng = d.eng := rfl
@[simp] theorem Dev.setUart_gwy (d : Dev) (c : Nat) (x : Uart) : (d.setUart c x).gwy = d.gwy := rfl
@[simp] theorem Dev.setUart_tbu (d : Dev) (c : Nat) (x : Uart) : (d.setUart c x).tbu = d.tbu := rfl
@[simp] theorem Dev.setUart_hbr (d : Dev) (c : Nat) (x : Uart) : (d.setUart c x).hbr = d.hbr := rfl
@[simp] theorem Dev.setUart_eth (d : Dev) (c : Nat) (x : Uart) : (d.setUart c x).eth = d.eth := rfl
@[simp] theorem Dev.setUart_cb (d : Dev) (c : Nat) (x : Uart) : (d.setUart c x).cb = d.cb := rfl
@[simp] theorem Dev.setUart_insts (d : Dev) (c : Nat) (x : Uart) : (d.setUart c x).insts = d.insts := rfl
@[simp] theorem Dev.setUart_sty (d : Dev) (c : Nat) (x : Uart) : (d.setUart c x).sty = d.sty := rfl
@[simp] theorem Dev.setUart_pwr (d : Dev) (c : Nat) (x : Uart) : (d.setUart c x).pwr = d.pwr := rfl
@[simp] theorem Dev.setUart_mst (d : Dev) (c : Nat) (x : Uart) : (d.setUart c x).mst = d.mst := rfl
@[simp] theorem Dev.setUart_hlt (d : Dev) (c : Nat) (x : Uart) : (d.setUart c x).hlt = d.hlt := rfl
@[simp] theorem Dev.setUart_wires (d : Dev) (c : Nat) (x : Uart) : (d.setUart c x).wires = d.wires := rfl

/-! `Dev.setBus` -/

@[simp] theorem Dev.setBus_regs (d : Dev) (c : Nat) (x : PollBus) : (d.setBus c x).regs = d.regs := rfl
@[simp] theorem Dev.setBus_now (d : Dev) (c : Nat) (x : PollBus) : (d.setBus c x).now = d.now := rfl
@[simp] theorem Dev.setBus_free (d : Dev) (c : Nat) (x : PollBus) : (d.setBus c x).free = d.free := rfl
@[simp] theorem Dev.setBus_maint (d : Dev) (c : Nat) (x : PollBus) : (d.setBus c x).maint = d.maint := rfl
@[simp] theorem Dev.setBus_swc (d : Dev) (c : Nat) (x : PollBus) : (d.setBus c x).swc = d.swc := rfl
@[simp] theorem Dev.setBus_xm (d : Dev) (c : Nat) (x : PollBus) : (d.setBus c x).xm = d.xm := rfl
@[simp] theorem Dev.setBus_nrm (d : Dev) (c : Nat) (x : PollBus) : (d.setBus c x).nrm = d.nrm := rfl
@[simp] theorem Dev.setBus_eng (d : Dev) (c : Nat) (x : PollBus) : (d.setBus c x).eng = d.eng := rfl
@[simp] theorem Dev.setBus_gwy (d : Dev) (c : Nat) (x : PollBus) : (d.setBus c x).gwy = d.gwy := rfl
@[simp] theorem Dev.setBus_tbu (d : Dev) (c : Nat) (x : PollBus) : (d.setBus c x).tbu = d.tbu := rfl
@[simp] theorem Dev.setBus_hbr (d : Dev) (c : Nat) (x : PollBus) : (d.setBus c x).hbr = d.hbr := rfl
@[simp] theorem Dev.setBus_eth (d : Dev) (c : Nat) (x : PollBus) : (d.setBus c x).eth = d.eth := rfl
@[simp] theorem Dev.setBus_cb (d : Dev) (c : Nat) (x : PollBus) : (d.setBus c x).cb = d.cb := rfl
@[simp] theorem Dev.setBus_insts (d : Dev) (c : Nat) (x : PollBus) : (d.setBus c x).insts = d.insts := rfl
@[simp] theorem Dev.setBus_sty (d : Dev) (c : Nat) (x : PollBus) : (d.setBus c x).sty = d.sty := rfl
@[simp] theorem Dev.setBus_pwr (d : Dev) (c : Nat) (x : PollBus) : (d.setBus c x).pwr = d.pwr := rfl
@[simp] theorem Dev.setBus_mst (d : Dev) (c : Nat) (x : PollBus) : (d.setBus c x).mst = d.mst := rfl
@[simp] theorem Dev.setBus_hlt (d : Dev) (c : Nat) (x : PollBus) : (d.setBus c x).hlt = d.hlt := rfl
@[simp] theorem Dev.setBus_wires (d : Dev) (c : Nat) (x : PollBus) : (d.setBus c x).wires = d.wires := rfl

/-! `Dev.setSpe` -/

@[simp] theorem Dev.setSpe_regs (d : Dev) (k : Nat) (x : Spe) : (d.setSpe k x).regs = d.regs := rfl
@[simp] theorem Dev.setSpe_now (d : Dev) (k : Nat) (x : Spe) : (d.setSpe k x).now = d.now := rfl
@[simp] theorem Dev.setSpe_free (d : Dev) (k : Nat) (x : Spe) : (d.setSpe k x).free = d.free := rfl
@[simp] theorem Dev.setSpe_maint (d : Dev) (k : Nat) (x : Spe) : (d.setSpe k x).maint = d.maint := rfl
@[simp] theorem Dev.setSpe_swc (d : Dev) (k : Nat) (x : Spe) : (d.setSpe k x).swc = d.swc := rfl
@[simp] theorem Dev.setSpe_xm (d : Dev) (k : Nat) (x : Spe) : (d.setSpe k x).xm = d.xm := rfl
@[simp] theorem Dev.setSpe_nrm (d : Dev) (k : Nat) (x : Spe) : (d.setSpe k x).nrm = d.nrm := rfl
@[simp] theorem Dev.setSpe_gwy (d : Dev) (k : Nat) (x : Spe) : (d.setSpe k x).gwy = d.gwy := rfl
@[simp] theorem Dev.setSpe_tbu (d : Dev) (k : Nat) (x : Spe) : (d.setSpe k x).tbu = d.tbu := rfl
@[simp] theorem Dev.setSpe_hbr (d : Dev) (k : Nat) (x : Spe) : (d.setSpe k x).hbr = d.hbr := rfl
@[simp] theorem Dev.setSpe_eth (d : Dev) (k : Nat) (x : Spe) : (d.setSpe k x).eth = d.eth := rfl
@[simp] theorem Dev.setSpe_cb (d : Dev) (k : Nat) (x : Spe) : (d.setSpe k x).cb = d.cb := rfl
@[simp] theorem Dev.setSpe_fbus (d : Dev) (k : Nat) (x : Spe) : (d.setSpe k x).fbus = d.fbus := rfl
@[simp] theorem Dev.setSpe_insts (d : Dev) (k : Nat) (x : Spe) : (d.setSpe k x).insts = d.insts := rfl
@[simp] theorem Dev.setSpe_sty (d : Dev) (k : Nat) (x : Spe) : (d.setSpe k x).sty = d.sty := rfl
@[simp] theorem Dev.setSpe_pwr (d : Dev) (k : Nat) (x : Spe) : (d.setSpe k x).pwr = d.pwr := rfl
@[simp] theorem Dev.setSpe_mst (d : Dev) (k : Nat) (x : Spe) : (d.setSpe k x).mst = d.mst := rfl
@[simp] theorem Dev.setSpe_hlt (d : Dev) (k : Nat) (x : Spe) : (d.setSpe k x).hlt = d.hlt := rfl
@[simp] theorem Dev.setSpe_wires (d : Dev) (k : Nat) (x : Spe) : (d.setSpe k x).wires = d.wires := rfl

/-! `Dev.setTctl` -/

@[simp] theorem Dev.setTctl_regs (d : Dev) (k : Nat) (x : TalkerCtl) : (d.setTctl k x).regs = d.regs := rfl
@[simp] theorem Dev.setTctl_now (d : Dev) (k : Nat) (x : TalkerCtl) : (d.setTctl k x).now = d.now := rfl
@[simp] theorem Dev.setTctl_free (d : Dev) (k : Nat) (x : TalkerCtl) : (d.setTctl k x).free = d.free := rfl
@[simp] theorem Dev.setTctl_maint (d : Dev) (k : Nat) (x : TalkerCtl) : (d.setTctl k x).maint = d.maint := rfl
@[simp] theorem Dev.setTctl_swc (d : Dev) (k : Nat) (x : TalkerCtl) : (d.setTctl k x).swc = d.swc := rfl
@[simp] theorem Dev.setTctl_xm (d : Dev) (k : Nat) (x : TalkerCtl) : (d.setTctl k x).xm = d.xm := rfl
@[simp] theorem Dev.setTctl_nrm (d : Dev) (k : Nat) (x : TalkerCtl) : (d.setTctl k x).nrm = d.nrm := rfl
@[simp] theorem Dev.setTctl_gwy (d : Dev) (k : Nat) (x : TalkerCtl) : (d.setTctl k x).gwy = d.gwy := rfl
@[simp] theorem Dev.setTctl_tbu (d : Dev) (k : Nat) (x : TalkerCtl) : (d.setTctl k x).tbu = d.tbu := rfl
@[simp] theorem Dev.setTctl_hbr (d : Dev) (k : Nat) (x : TalkerCtl) : (d.setTctl k x).hbr = d.hbr := rfl
@[simp] theorem Dev.setTctl_eth (d : Dev) (k : Nat) (x : TalkerCtl) : (d.setTctl k x).eth = d.eth := rfl
@[simp] theorem Dev.setTctl_cb (d : Dev) (k : Nat) (x : TalkerCtl) : (d.setTctl k x).cb = d.cb := rfl
@[simp] theorem Dev.setTctl_fbus (d : Dev) (k : Nat) (x : TalkerCtl) : (d.setTctl k x).fbus = d.fbus := rfl
@[simp] theorem Dev.setTctl_insts (d : Dev) (k : Nat) (x : TalkerCtl) : (d.setTctl k x).insts = d.insts := rfl
@[simp] theorem Dev.setTctl_sty (d : Dev) (k : Nat) (x : TalkerCtl) : (d.setTctl k x).sty = d.sty := rfl
@[simp] theorem Dev.setTctl_pwr (d : Dev) (k : Nat) (x : TalkerCtl) : (d.setTctl k x).pwr = d.pwr := rfl
@[simp] theorem Dev.setTctl_mst (d : Dev) (k : Nat) (x : TalkerCtl) : (d.setTctl k x).mst = d.mst := rfl
@[simp] theorem Dev.setTctl_hlt (d : Dev) (k : Nat) (x : TalkerCtl) : (d.setTctl k x).hlt = d.hlt := rfl
@[simp] theorem Dev.setTctl_wires (d : Dev) (k : Nat) (x : TalkerCtl) : (d.setTctl k x).wires = d.wires := rfl

/-! `Dev.setSlot` -/

@[simp] theorem Dev.setSlot_regs (d : Dev) (k : Nat) (x : Slot) : (d.setSlot k x).regs = d.regs := rfl
@[simp] theorem Dev.setSlot_now (d : Dev) (k : Nat) (x : Slot) : (d.setSlot k x).now = d.now := rfl
@[simp] theorem Dev.setSlot_free (d : Dev) (k : Nat) (x : Slot) : (d.setSlot k x).free = d.free := rfl
@[simp] theorem Dev.setSlot_maint (d : Dev) (k : Nat) (x : Slot) : (d.setSlot k x).maint = d.maint := rfl
@[simp] theorem Dev.setSlot_swc (d : Dev) (k : Nat) (x : Slot) : (d.setSlot k x).swc = d.swc := rfl
@[simp] theorem Dev.setSlot_xm (d : Dev) (k : Nat) (x : Slot) : (d.setSlot k x).xm = d.xm := rfl
@[simp] theorem Dev.setSlot_nrm (d : Dev) (k : Nat) (x : Slot) : (d.setSlot k x).nrm = d.nrm := rfl
@[simp] theorem Dev.setSlot_eng (d : Dev) (k : Nat) (x : Slot) : (d.setSlot k x).eng = d.eng := rfl
@[simp] theorem Dev.setSlot_tbu (d : Dev) (k : Nat) (x : Slot) : (d.setSlot k x).tbu = d.tbu := rfl
@[simp] theorem Dev.setSlot_hbr (d : Dev) (k : Nat) (x : Slot) : (d.setSlot k x).hbr = d.hbr := rfl
@[simp] theorem Dev.setSlot_eth (d : Dev) (k : Nat) (x : Slot) : (d.setSlot k x).eth = d.eth := rfl
@[simp] theorem Dev.setSlot_cb (d : Dev) (k : Nat) (x : Slot) : (d.setSlot k x).cb = d.cb := rfl
@[simp] theorem Dev.setSlot_fbus (d : Dev) (k : Nat) (x : Slot) : (d.setSlot k x).fbus = d.fbus := rfl
@[simp] theorem Dev.setSlot_insts (d : Dev) (k : Nat) (x : Slot) : (d.setSlot k x).insts = d.insts := rfl
@[simp] theorem Dev.setSlot_sty (d : Dev) (k : Nat) (x : Slot) : (d.setSlot k x).sty = d.sty := rfl
@[simp] theorem Dev.setSlot_pwr (d : Dev) (k : Nat) (x : Slot) : (d.setSlot k x).pwr = d.pwr := rfl
@[simp] theorem Dev.setSlot_mst (d : Dev) (k : Nat) (x : Slot) : (d.setSlot k x).mst = d.mst := rfl
@[simp] theorem Dev.setSlot_hlt (d : Dev) (k : Nat) (x : Slot) : (d.setSlot k x).hlt = d.hlt := rfl
@[simp] theorem Dev.setSlot_wires (d : Dev) (k : Nat) (x : Slot) : (d.setSlot k x).wires = d.wires := rfl

/-! `Dev.setPlist` -/

@[simp] theorem Dev.setPlist_regs (d : Dev) (k : Nat) (x : PList) : (d.setPlist k x).regs = d.regs := rfl
@[simp] theorem Dev.setPlist_now (d : Dev) (k : Nat) (x : PList) : (d.setPlist k x).now = d.now := rfl
@[simp] theorem Dev.setPlist_free (d : Dev) (k : Nat) (x : PList) : (d.setPlist k x).free = d.free := rfl
@[simp] theorem Dev.setPlist_maint (d : Dev) (k : Nat) (x : PList) : (d.setPlist k x).maint = d.maint := rfl
@[simp] theorem Dev.setPlist_swc (d : Dev) (k : Nat) (x : PList) : (d.setPlist k x).swc = d.swc := rfl
@[simp] theorem Dev.setPlist_xm (d : Dev) (k : Nat) (x : PList) : (d.setPlist k x).xm = d.xm := rfl
@[simp] theorem Dev.setPlist_nrm (d : Dev) (k : Nat) (x : PList) : (d.setPlist k x).nrm = d.nrm := rfl
@[simp] theorem Dev.setPlist_eng (d : Dev) (k : Nat) (x : PList) : (d.setPlist k x).eng = d.eng := rfl
@[simp] theorem Dev.setPlist_tbu (d : Dev) (k : Nat) (x : PList) : (d.setPlist k x).tbu = d.tbu := rfl
@[simp] theorem Dev.setPlist_hbr (d : Dev) (k : Nat) (x : PList) : (d.setPlist k x).hbr = d.hbr := rfl
@[simp] theorem Dev.setPlist_eth (d : Dev) (k : Nat) (x : PList) : (d.setPlist k x).eth = d.eth := rfl
@[simp] theorem Dev.setPlist_cb (d : Dev) (k : Nat) (x : PList) : (d.setPlist k x).cb = d.cb := rfl
@[simp] theorem Dev.setPlist_fbus (d : Dev) (k : Nat) (x : PList) : (d.setPlist k x).fbus = d.fbus := rfl
@[simp] theorem Dev.setPlist_insts (d : Dev) (k : Nat) (x : PList) : (d.setPlist k x).insts = d.insts := rfl
@[simp] theorem Dev.setPlist_sty (d : Dev) (k : Nat) (x : PList) : (d.setPlist k x).sty = d.sty := rfl
@[simp] theorem Dev.setPlist_pwr (d : Dev) (k : Nat) (x : PList) : (d.setPlist k x).pwr = d.pwr := rfl
@[simp] theorem Dev.setPlist_mst (d : Dev) (k : Nat) (x : PList) : (d.setPlist k x).mst = d.mst := rfl
@[simp] theorem Dev.setPlist_hlt (d : Dev) (k : Nat) (x : PList) : (d.setPlist k x).hlt = d.hlt := rfl
@[simp] theorem Dev.setPlist_wires (d : Dev) (k : Nat) (x : PList) : (d.setPlist k x).wires = d.wires := rfl

/-! `Dev.setDom` -/

@[simp] theorem Dev.setDom_regs (d : Dev) (k : Nat) (x : Domain) : (d.setDom k x).regs = d.regs := rfl
@[simp] theorem Dev.setDom_now (d : Dev) (k : Nat) (x : Domain) : (d.setDom k x).now = d.now := rfl
@[simp] theorem Dev.setDom_free (d : Dev) (k : Nat) (x : Domain) : (d.setDom k x).free = d.free := rfl
@[simp] theorem Dev.setDom_maint (d : Dev) (k : Nat) (x : Domain) : (d.setDom k x).maint = d.maint := rfl
@[simp] theorem Dev.setDom_swc (d : Dev) (k : Nat) (x : Domain) : (d.setDom k x).swc = d.swc := rfl
@[simp] theorem Dev.setDom_xm (d : Dev) (k : Nat) (x : Domain) : (d.setDom k x).xm = d.xm := rfl
@[simp] theorem Dev.setDom_nrm (d : Dev) (k : Nat) (x : Domain) : (d.setDom k x).nrm = d.nrm := rfl
@[simp] theorem Dev.setDom_eng (d : Dev) (k : Nat) (x : Domain) : (d.setDom k x).eng = d.eng := rfl
@[simp] theorem Dev.setDom_gwy (d : Dev) (k : Nat) (x : Domain) : (d.setDom k x).gwy = d.gwy := rfl
@[simp] theorem Dev.setDom_hbr (d : Dev) (k : Nat) (x : Domain) : (d.setDom k x).hbr = d.hbr := rfl
@[simp] theorem Dev.setDom_eth (d : Dev) (k : Nat) (x : Domain) : (d.setDom k x).eth = d.eth := rfl
@[simp] theorem Dev.setDom_cb (d : Dev) (k : Nat) (x : Domain) : (d.setDom k x).cb = d.cb := rfl
@[simp] theorem Dev.setDom_fbus (d : Dev) (k : Nat) (x : Domain) : (d.setDom k x).fbus = d.fbus := rfl
@[simp] theorem Dev.setDom_insts (d : Dev) (k : Nat) (x : Domain) : (d.setDom k x).insts = d.insts := rfl
@[simp] theorem Dev.setDom_sty (d : Dev) (k : Nat) (x : Domain) : (d.setDom k x).sty = d.sty := rfl
@[simp] theorem Dev.setDom_pwr (d : Dev) (k : Nat) (x : Domain) : (d.setDom k x).pwr = d.pwr := rfl
@[simp] theorem Dev.setDom_mst (d : Dev) (k : Nat) (x : Domain) : (d.setDom k x).mst = d.mst := rfl
@[simp] theorem Dev.setDom_hlt (d : Dev) (k : Nat) (x : Domain) : (d.setDom k x).hlt = d.hlt := rfl
@[simp] theorem Dev.setDom_wires (d : Dev) (k : Nat) (x : Domain) : (d.setDom k x).wires = d.wires := rfl

/-! `Dev.setHq` -/

@[simp] theorem Dev.setHq_regs (d : Dev) (n q : Nat) (x : HostQ) : (d.setHq n q x).regs = d.regs := rfl
@[simp] theorem Dev.setHq_now (d : Dev) (n q : Nat) (x : HostQ) : (d.setHq n q x).now = d.now := rfl
@[simp] theorem Dev.setHq_free (d : Dev) (n q : Nat) (x : HostQ) : (d.setHq n q x).free = d.free := rfl
@[simp] theorem Dev.setHq_maint (d : Dev) (n q : Nat) (x : HostQ) : (d.setHq n q x).maint = d.maint := rfl
@[simp] theorem Dev.setHq_swc (d : Dev) (n q : Nat) (x : HostQ) : (d.setHq n q x).swc = d.swc := rfl
@[simp] theorem Dev.setHq_xm (d : Dev) (n q : Nat) (x : HostQ) : (d.setHq n q x).xm = d.xm := rfl
@[simp] theorem Dev.setHq_nrm (d : Dev) (n q : Nat) (x : HostQ) : (d.setHq n q x).nrm = d.nrm := rfl
@[simp] theorem Dev.setHq_eng (d : Dev) (n q : Nat) (x : HostQ) : (d.setHq n q x).eng = d.eng := rfl
@[simp] theorem Dev.setHq_gwy (d : Dev) (n q : Nat) (x : HostQ) : (d.setHq n q x).gwy = d.gwy := rfl
@[simp] theorem Dev.setHq_tbu (d : Dev) (n q : Nat) (x : HostQ) : (d.setHq n q x).tbu = d.tbu := rfl
@[simp] theorem Dev.setHq_eth (d : Dev) (n q : Nat) (x : HostQ) : (d.setHq n q x).eth = d.eth := rfl
@[simp] theorem Dev.setHq_cb (d : Dev) (n q : Nat) (x : HostQ) : (d.setHq n q x).cb = d.cb := rfl
@[simp] theorem Dev.setHq_fbus (d : Dev) (n q : Nat) (x : HostQ) : (d.setHq n q x).fbus = d.fbus := rfl
@[simp] theorem Dev.setHq_insts (d : Dev) (n q : Nat) (x : HostQ) : (d.setHq n q x).insts = d.insts := rfl
@[simp] theorem Dev.setHq_sty (d : Dev) (n q : Nat) (x : HostQ) : (d.setHq n q x).sty = d.sty := rfl
@[simp] theorem Dev.setHq_pwr (d : Dev) (n q : Nat) (x : HostQ) : (d.setHq n q x).pwr = d.pwr := rfl
@[simp] theorem Dev.setHq_mst (d : Dev) (n q : Nat) (x : HostQ) : (d.setHq n q x).mst = d.mst := rfl
@[simp] theorem Dev.setHq_hlt (d : Dev) (n q : Nat) (x : HostQ) : (d.setHq n q x).hlt = d.hlt := rfl
@[simp] theorem Dev.setHq_wires (d : Dev) (n q : Nat) (x : HostQ) : (d.setHq n q x).wires = d.wires := rfl

/-! `Dev.setLink` -/

@[simp] theorem Dev.setLink_regs (d : Dev) (l : Nat) (x : StayLink) : (d.setLink l x).regs = d.regs := rfl
@[simp] theorem Dev.setLink_now (d : Dev) (l : Nat) (x : StayLink) : (d.setLink l x).now = d.now := rfl
@[simp] theorem Dev.setLink_free (d : Dev) (l : Nat) (x : StayLink) : (d.setLink l x).free = d.free := rfl
@[simp] theorem Dev.setLink_maint (d : Dev) (l : Nat) (x : StayLink) : (d.setLink l x).maint = d.maint := rfl
@[simp] theorem Dev.setLink_swc (d : Dev) (l : Nat) (x : StayLink) : (d.setLink l x).swc = d.swc := rfl
@[simp] theorem Dev.setLink_xm (d : Dev) (l : Nat) (x : StayLink) : (d.setLink l x).xm = d.xm := rfl
@[simp] theorem Dev.setLink_nrm (d : Dev) (l : Nat) (x : StayLink) : (d.setLink l x).nrm = d.nrm := rfl
@[simp] theorem Dev.setLink_eng (d : Dev) (l : Nat) (x : StayLink) : (d.setLink l x).eng = d.eng := rfl
@[simp] theorem Dev.setLink_gwy (d : Dev) (l : Nat) (x : StayLink) : (d.setLink l x).gwy = d.gwy := rfl
@[simp] theorem Dev.setLink_tbu (d : Dev) (l : Nat) (x : StayLink) : (d.setLink l x).tbu = d.tbu := rfl
@[simp] theorem Dev.setLink_hbr (d : Dev) (l : Nat) (x : StayLink) : (d.setLink l x).hbr = d.hbr := rfl
@[simp] theorem Dev.setLink_eth (d : Dev) (l : Nat) (x : StayLink) : (d.setLink l x).eth = d.eth := rfl
@[simp] theorem Dev.setLink_cb (d : Dev) (l : Nat) (x : StayLink) : (d.setLink l x).cb = d.cb := rfl
@[simp] theorem Dev.setLink_fbus (d : Dev) (l : Nat) (x : StayLink) : (d.setLink l x).fbus = d.fbus := rfl
@[simp] theorem Dev.setLink_insts (d : Dev) (l : Nat) (x : StayLink) : (d.setLink l x).insts = d.insts := rfl
@[simp] theorem Dev.setLink_pwr (d : Dev) (l : Nat) (x : StayLink) : (d.setLink l x).pwr = d.pwr := rfl
@[simp] theorem Dev.setLink_mst (d : Dev) (l : Nat) (x : StayLink) : (d.setLink l x).mst = d.mst := rfl
@[simp] theorem Dev.setLink_hlt (d : Dev) (l : Nat) (x : StayLink) : (d.setLink l x).hlt = d.hlt := rfl
@[simp] theorem Dev.setLink_wires (d : Dev) (l : Nat) (x : StayLink) : (d.setLink l x).wires = d.wires := rfl

/-! `Dev.setGcl` -/

@[simp] theorem Dev.setGcl_regs (d : Dev) (p : Nat) (x : Gcl) : (d.setGcl p x).regs = d.regs := rfl
@[simp] theorem Dev.setGcl_now (d : Dev) (p : Nat) (x : Gcl) : (d.setGcl p x).now = d.now := rfl
@[simp] theorem Dev.setGcl_free (d : Dev) (p : Nat) (x : Gcl) : (d.setGcl p x).free = d.free := rfl
@[simp] theorem Dev.setGcl_maint (d : Dev) (p : Nat) (x : Gcl) : (d.setGcl p x).maint = d.maint := rfl
@[simp] theorem Dev.setGcl_xm (d : Dev) (p : Nat) (x : Gcl) : (d.setGcl p x).xm = d.xm := rfl
@[simp] theorem Dev.setGcl_nrm (d : Dev) (p : Nat) (x : Gcl) : (d.setGcl p x).nrm = d.nrm := rfl
@[simp] theorem Dev.setGcl_eng (d : Dev) (p : Nat) (x : Gcl) : (d.setGcl p x).eng = d.eng := rfl
@[simp] theorem Dev.setGcl_gwy (d : Dev) (p : Nat) (x : Gcl) : (d.setGcl p x).gwy = d.gwy := rfl
@[simp] theorem Dev.setGcl_tbu (d : Dev) (p : Nat) (x : Gcl) : (d.setGcl p x).tbu = d.tbu := rfl
@[simp] theorem Dev.setGcl_hbr (d : Dev) (p : Nat) (x : Gcl) : (d.setGcl p x).hbr = d.hbr := rfl
@[simp] theorem Dev.setGcl_eth (d : Dev) (p : Nat) (x : Gcl) : (d.setGcl p x).eth = d.eth := rfl
@[simp] theorem Dev.setGcl_cb (d : Dev) (p : Nat) (x : Gcl) : (d.setGcl p x).cb = d.cb := rfl
@[simp] theorem Dev.setGcl_fbus (d : Dev) (p : Nat) (x : Gcl) : (d.setGcl p x).fbus = d.fbus := rfl
@[simp] theorem Dev.setGcl_insts (d : Dev) (p : Nat) (x : Gcl) : (d.setGcl p x).insts = d.insts := rfl
@[simp] theorem Dev.setGcl_sty (d : Dev) (p : Nat) (x : Gcl) : (d.setGcl p x).sty = d.sty := rfl
@[simp] theorem Dev.setGcl_pwr (d : Dev) (p : Nat) (x : Gcl) : (d.setGcl p x).pwr = d.pwr := rfl
@[simp] theorem Dev.setGcl_mst (d : Dev) (p : Nat) (x : Gcl) : (d.setGcl p x).mst = d.mst := rfl
@[simp] theorem Dev.setGcl_hlt (d : Dev) (p : Nat) (x : Gcl) : (d.setGcl p x).hlt = d.hlt := rfl
@[simp] theorem Dev.setGcl_wires (d : Dev) (p : Nat) (x : Gcl) : (d.setGcl p x).wires = d.wires := rfl

/-! `Dev.setInst` -/

@[simp] theorem Dev.setInst_regs (d : Dev) (n : Nat) (x : InstSt) : (d.setInst n x).regs = d.regs := rfl
@[simp] theorem Dev.setInst_now (d : Dev) (n : Nat) (x : InstSt) : (d.setInst n x).now = d.now := rfl
@[simp] theorem Dev.setInst_free (d : Dev) (n : Nat) (x : InstSt) : (d.setInst n x).free = d.free := rfl
@[simp] theorem Dev.setInst_maint (d : Dev) (n : Nat) (x : InstSt) : (d.setInst n x).maint = d.maint := rfl
@[simp] theorem Dev.setInst_swc (d : Dev) (n : Nat) (x : InstSt) : (d.setInst n x).swc = d.swc := rfl
@[simp] theorem Dev.setInst_xm (d : Dev) (n : Nat) (x : InstSt) : (d.setInst n x).xm = d.xm := rfl
@[simp] theorem Dev.setInst_nrm (d : Dev) (n : Nat) (x : InstSt) : (d.setInst n x).nrm = d.nrm := rfl
@[simp] theorem Dev.setInst_eng (d : Dev) (n : Nat) (x : InstSt) : (d.setInst n x).eng = d.eng := rfl
@[simp] theorem Dev.setInst_gwy (d : Dev) (n : Nat) (x : InstSt) : (d.setInst n x).gwy = d.gwy := rfl
@[simp] theorem Dev.setInst_tbu (d : Dev) (n : Nat) (x : InstSt) : (d.setInst n x).tbu = d.tbu := rfl
@[simp] theorem Dev.setInst_hbr (d : Dev) (n : Nat) (x : InstSt) : (d.setInst n x).hbr = d.hbr := rfl
@[simp] theorem Dev.setInst_eth (d : Dev) (n : Nat) (x : InstSt) : (d.setInst n x).eth = d.eth := rfl
@[simp] theorem Dev.setInst_cb (d : Dev) (n : Nat) (x : InstSt) : (d.setInst n x).cb = d.cb := rfl
@[simp] theorem Dev.setInst_fbus (d : Dev) (n : Nat) (x : InstSt) : (d.setInst n x).fbus = d.fbus := rfl
@[simp] theorem Dev.setInst_sty (d : Dev) (n : Nat) (x : InstSt) : (d.setInst n x).sty = d.sty := rfl
@[simp] theorem Dev.setInst_pwr (d : Dev) (n : Nat) (x : InstSt) : (d.setInst n x).pwr = d.pwr := rfl
@[simp] theorem Dev.setInst_mst (d : Dev) (n : Nat) (x : InstSt) : (d.setInst n x).mst = d.mst := rfl
@[simp] theorem Dev.setInst_hlt (d : Dev) (n : Nat) (x : InstSt) : (d.setInst n x).hlt = d.hlt := rfl
@[simp] theorem Dev.setInst_wires (d : Dev) (n : Nat) (x : InstSt) : (d.setInst n x).wires = d.wires := rfl

/-! `Dev.setMeter` -/

@[simp] theorem Dev.setMeter_regs (d : Dev) (n : Nat) (x : Meter) : (d.setMeter n x).regs = d.regs := rfl
@[simp] theorem Dev.setMeter_now (d : Dev) (n : Nat) (x : Meter) : (d.setMeter n x).now = d.now := rfl
@[simp] theorem Dev.setMeter_free (d : Dev) (n : Nat) (x : Meter) : (d.setMeter n x).free = d.free := rfl
@[simp] theorem Dev.setMeter_maint (d : Dev) (n : Nat) (x : Meter) : (d.setMeter n x).maint = d.maint := rfl
@[simp] theorem Dev.setMeter_swc (d : Dev) (n : Nat) (x : Meter) : (d.setMeter n x).swc = d.swc := rfl
@[simp] theorem Dev.setMeter_xm (d : Dev) (n : Nat) (x : Meter) : (d.setMeter n x).xm = d.xm := rfl
@[simp] theorem Dev.setMeter_eng (d : Dev) (n : Nat) (x : Meter) : (d.setMeter n x).eng = d.eng := rfl
@[simp] theorem Dev.setMeter_gwy (d : Dev) (n : Nat) (x : Meter) : (d.setMeter n x).gwy = d.gwy := rfl
@[simp] theorem Dev.setMeter_tbu (d : Dev) (n : Nat) (x : Meter) : (d.setMeter n x).tbu = d.tbu := rfl
@[simp] theorem Dev.setMeter_hbr (d : Dev) (n : Nat) (x : Meter) : (d.setMeter n x).hbr = d.hbr := rfl
@[simp] theorem Dev.setMeter_eth (d : Dev) (n : Nat) (x : Meter) : (d.setMeter n x).eth = d.eth := rfl
@[simp] theorem Dev.setMeter_cb (d : Dev) (n : Nat) (x : Meter) : (d.setMeter n x).cb = d.cb := rfl
@[simp] theorem Dev.setMeter_fbus (d : Dev) (n : Nat) (x : Meter) : (d.setMeter n x).fbus = d.fbus := rfl
@[simp] theorem Dev.setMeter_insts (d : Dev) (n : Nat) (x : Meter) : (d.setMeter n x).insts = d.insts := rfl
@[simp] theorem Dev.setMeter_sty (d : Dev) (n : Nat) (x : Meter) : (d.setMeter n x).sty = d.sty := rfl
@[simp] theorem Dev.setMeter_pwr (d : Dev) (n : Nat) (x : Meter) : (d.setMeter n x).pwr = d.pwr := rfl
@[simp] theorem Dev.setMeter_mst (d : Dev) (n : Nat) (x : Meter) : (d.setMeter n x).mst = d.mst := rfl
@[simp] theorem Dev.setMeter_hlt (d : Dev) (n : Nat) (x : Meter) : (d.setMeter n x).hlt = d.hlt := rfl
@[simp] theorem Dev.setMeter_wires (d : Dev) (n : Nat) (x : Meter) : (d.setMeter n x).wires = d.wires := rfl

/-! `Dev.setSen` -/

@[simp] theorem Dev.setSen_regs (d : Dev) (n : Nat) (x : Sen) : (d.setSen n x).regs = d.regs := rfl
@[simp] theorem Dev.setSen_now (d : Dev) (n : Nat) (x : Sen) : (d.setSen n x).now = d.now := rfl
@[simp] theorem Dev.setSen_free (d : Dev) (n : Nat) (x : Sen) : (d.setSen n x).free = d.free := rfl
@[simp] theorem Dev.setSen_maint (d : Dev) (n : Nat) (x : Sen) : (d.setSen n x).maint = d.maint := rfl
@[simp] theorem Dev.setSen_xm (d : Dev) (n : Nat) (x : Sen) : (d.setSen n x).xm = d.xm := rfl
@[simp] theorem Dev.setSen_nrm (d : Dev) (n : Nat) (x : Sen) : (d.setSen n x).nrm = d.nrm := rfl
@[simp] theorem Dev.setSen_eng (d : Dev) (n : Nat) (x : Sen) : (d.setSen n x).eng = d.eng := rfl
@[simp] theorem Dev.setSen_gwy (d : Dev) (n : Nat) (x : Sen) : (d.setSen n x).gwy = d.gwy := rfl
@[simp] theorem Dev.setSen_tbu (d : Dev) (n : Nat) (x : Sen) : (d.setSen n x).tbu = d.tbu := rfl
@[simp] theorem Dev.setSen_hbr (d : Dev) (n : Nat) (x : Sen) : (d.setSen n x).hbr = d.hbr := rfl
@[simp] theorem Dev.setSen_eth (d : Dev) (n : Nat) (x : Sen) : (d.setSen n x).eth = d.eth := rfl
@[simp] theorem Dev.setSen_cb (d : Dev) (n : Nat) (x : Sen) : (d.setSen n x).cb = d.cb := rfl
@[simp] theorem Dev.setSen_fbus (d : Dev) (n : Nat) (x : Sen) : (d.setSen n x).fbus = d.fbus := rfl
@[simp] theorem Dev.setSen_insts (d : Dev) (n : Nat) (x : Sen) : (d.setSen n x).insts = d.insts := rfl
@[simp] theorem Dev.setSen_sty (d : Dev) (n : Nat) (x : Sen) : (d.setSen n x).sty = d.sty := rfl
@[simp] theorem Dev.setSen_pwr (d : Dev) (n : Nat) (x : Sen) : (d.setSen n x).pwr = d.pwr := rfl
@[simp] theorem Dev.setSen_mst (d : Dev) (n : Nat) (x : Sen) : (d.setSen n x).mst = d.mst := rfl
@[simp] theorem Dev.setSen_hlt (d : Dev) (n : Nat) (x : Sen) : (d.setSen n x).hlt = d.hlt := rfl
@[simp] theorem Dev.setSen_wires (d : Dev) (n : Nat) (x : Sen) : (d.setSen n x).wires = d.wires := rfl

/-! `Dev.setAcct` -/

@[simp] theorem Dev.setAcct_regs (d : Dev) (n : Nat) (x : Acct) : (d.setAcct n x).regs = d.regs := rfl
@[simp] theorem Dev.setAcct_now (d : Dev) (n : Nat) (x : Acct) : (d.setAcct n x).now = d.now := rfl
@[simp] theorem Dev.setAcct_free (d : Dev) (n : Nat) (x : Acct) : (d.setAcct n x).free = d.free := rfl
@[simp] theorem Dev.setAcct_maint (d : Dev) (n : Nat) (x : Acct) : (d.setAcct n x).maint = d.maint := rfl
@[simp] theorem Dev.setAcct_xm (d : Dev) (n : Nat) (x : Acct) : (d.setAcct n x).xm = d.xm := rfl
@[simp] theorem Dev.setAcct_nrm (d : Dev) (n : Nat) (x : Acct) : (d.setAcct n x).nrm = d.nrm := rfl
@[simp] theorem Dev.setAcct_eng (d : Dev) (n : Nat) (x : Acct) : (d.setAcct n x).eng = d.eng := rfl
@[simp] theorem Dev.setAcct_gwy (d : Dev) (n : Nat) (x : Acct) : (d.setAcct n x).gwy = d.gwy := rfl
@[simp] theorem Dev.setAcct_tbu (d : Dev) (n : Nat) (x : Acct) : (d.setAcct n x).tbu = d.tbu := rfl
@[simp] theorem Dev.setAcct_hbr (d : Dev) (n : Nat) (x : Acct) : (d.setAcct n x).hbr = d.hbr := rfl
@[simp] theorem Dev.setAcct_eth (d : Dev) (n : Nat) (x : Acct) : (d.setAcct n x).eth = d.eth := rfl
@[simp] theorem Dev.setAcct_cb (d : Dev) (n : Nat) (x : Acct) : (d.setAcct n x).cb = d.cb := rfl
@[simp] theorem Dev.setAcct_fbus (d : Dev) (n : Nat) (x : Acct) : (d.setAcct n x).fbus = d.fbus := rfl
@[simp] theorem Dev.setAcct_insts (d : Dev) (n : Nat) (x : Acct) : (d.setAcct n x).insts = d.insts := rfl
@[simp] theorem Dev.setAcct_sty (d : Dev) (n : Nat) (x : Acct) : (d.setAcct n x).sty = d.sty := rfl
@[simp] theorem Dev.setAcct_pwr (d : Dev) (n : Nat) (x : Acct) : (d.setAcct n x).pwr = d.pwr := rfl
@[simp] theorem Dev.setAcct_mst (d : Dev) (n : Nat) (x : Acct) : (d.setAcct n x).mst = d.mst := rfl
@[simp] theorem Dev.setAcct_hlt (d : Dev) (n : Nat) (x : Acct) : (d.setAcct n x).hlt = d.hlt := rfl
@[simp] theorem Dev.setAcct_wires (d : Dev) (n : Nat) (x : Acct) : (d.setAcct n x).wires = d.wires := rfl

/-! `Dev.setPwr` -/

@[simp] theorem Dev.setPwr_regs (d : Dev) (x : Pwr) : (d.setPwr x).regs = d.regs := rfl
@[simp] theorem Dev.setPwr_now (d : Dev) (x : Pwr) : (d.setPwr x).now = d.now := rfl
@[simp] theorem Dev.setPwr_free (d : Dev) (x : Pwr) : (d.setPwr x).free = d.free := rfl
@[simp] theorem Dev.setPwr_maint (d : Dev) (x : Pwr) : (d.setPwr x).maint = d.maint := rfl
@[simp] theorem Dev.setPwr_swc (d : Dev) (x : Pwr) : (d.setPwr x).swc = d.swc := rfl
@[simp] theorem Dev.setPwr_xm (d : Dev) (x : Pwr) : (d.setPwr x).xm = d.xm := rfl
@[simp] theorem Dev.setPwr_nrm (d : Dev) (x : Pwr) : (d.setPwr x).nrm = d.nrm := rfl
@[simp] theorem Dev.setPwr_eng (d : Dev) (x : Pwr) : (d.setPwr x).eng = d.eng := rfl
@[simp] theorem Dev.setPwr_gwy (d : Dev) (x : Pwr) : (d.setPwr x).gwy = d.gwy := rfl
@[simp] theorem Dev.setPwr_tbu (d : Dev) (x : Pwr) : (d.setPwr x).tbu = d.tbu := rfl
@[simp] theorem Dev.setPwr_hbr (d : Dev) (x : Pwr) : (d.setPwr x).hbr = d.hbr := rfl
@[simp] theorem Dev.setPwr_eth (d : Dev) (x : Pwr) : (d.setPwr x).eth = d.eth := rfl
@[simp] theorem Dev.setPwr_cb (d : Dev) (x : Pwr) : (d.setPwr x).cb = d.cb := rfl
@[simp] theorem Dev.setPwr_fbus (d : Dev) (x : Pwr) : (d.setPwr x).fbus = d.fbus := rfl
@[simp] theorem Dev.setPwr_insts (d : Dev) (x : Pwr) : (d.setPwr x).insts = d.insts := rfl
@[simp] theorem Dev.setPwr_sty (d : Dev) (x : Pwr) : (d.setPwr x).sty = d.sty := rfl
@[simp] theorem Dev.setPwr_mst (d : Dev) (x : Pwr) : (d.setPwr x).mst = d.mst := rfl
@[simp] theorem Dev.setPwr_hlt (d : Dev) (x : Pwr) : (d.setPwr x).hlt = d.hlt := rfl
@[simp] theorem Dev.setPwr_wires (d : Dev) (x : Pwr) : (d.setPwr x).wires = d.wires := rfl

/-! `Dev.setMst` -/

@[simp] theorem Dev.setMst_regs (d : Dev) (x : Mst) : (d.setMst x).regs = d.regs := rfl
@[simp] theorem Dev.setMst_now (d : Dev) (x : Mst) : (d.setMst x).now = d.now := rfl
@[simp] theorem Dev.setMst_free (d : Dev) (x : Mst) : (d.setMst x).free = d.free := rfl
@[simp] theorem Dev.setMst_maint (d : Dev) (x : Mst) : (d.setMst x).maint = d.maint := rfl
@[simp] theorem Dev.setMst_swc (d : Dev) (x : Mst) : (d.setMst x).swc = d.swc := rfl
@[simp] theorem Dev.setMst_xm (d : Dev) (x : Mst) : (d.setMst x).xm = d.xm := rfl
@[simp] theorem Dev.setMst_nrm (d : Dev) (x : Mst) : (d.setMst x).nrm = d.nrm := rfl
@[simp] theorem Dev.setMst_eng (d : Dev) (x : Mst) : (d.setMst x).eng = d.eng := rfl
@[simp] theorem Dev.setMst_gwy (d : Dev) (x : Mst) : (d.setMst x).gwy = d.gwy := rfl
@[simp] theorem Dev.setMst_tbu (d : Dev) (x : Mst) : (d.setMst x).tbu = d.tbu := rfl
@[simp] theorem Dev.setMst_hbr (d : Dev) (x : Mst) : (d.setMst x).hbr = d.hbr := rfl
@[simp] theorem Dev.setMst_eth (d : Dev) (x : Mst) : (d.setMst x).eth = d.eth := rfl
@[simp] theorem Dev.setMst_cb (d : Dev) (x : Mst) : (d.setMst x).cb = d.cb := rfl
@[simp] theorem Dev.setMst_fbus (d : Dev) (x : Mst) : (d.setMst x).fbus = d.fbus := rfl
@[simp] theorem Dev.setMst_insts (d : Dev) (x : Mst) : (d.setMst x).insts = d.insts := rfl
@[simp] theorem Dev.setMst_sty (d : Dev) (x : Mst) : (d.setMst x).sty = d.sty := rfl
@[simp] theorem Dev.setMst_pwr (d : Dev) (x : Mst) : (d.setMst x).pwr = d.pwr := rfl
@[simp] theorem Dev.setMst_hlt (d : Dev) (x : Mst) : (d.setMst x).hlt = d.hlt := rfl
@[simp] theorem Dev.setMst_wires (d : Dev) (x : Mst) : (d.setMst x).wires = d.wires := rfl

/-! `Dev.setHlt` -/

@[simp] theorem Dev.setHlt_regs (d : Dev) (x : Hlt) : (d.setHlt x).regs = d.regs := rfl
@[simp] theorem Dev.setHlt_now (d : Dev) (x : Hlt) : (d.setHlt x).now = d.now := rfl
@[simp] theorem Dev.setHlt_free (d : Dev) (x : Hlt) : (d.setHlt x).free = d.free := rfl
@[simp] theorem Dev.setHlt_maint (d : Dev) (x : Hlt) : (d.setHlt x).maint = d.maint := rfl
@[simp] theorem Dev.setHlt_swc (d : Dev) (x : Hlt) : (d.setHlt x).swc = d.swc := rfl
@[simp] theorem Dev.setHlt_xm (d : Dev) (x : Hlt) : (d.setHlt x).xm = d.xm := rfl
@[simp] theorem Dev.setHlt_nrm (d : Dev) (x : Hlt) : (d.setHlt x).nrm = d.nrm := rfl
@[simp] theorem Dev.setHlt_eng (d : Dev) (x : Hlt) : (d.setHlt x).eng = d.eng := rfl
@[simp] theorem Dev.setHlt_gwy (d : Dev) (x : Hlt) : (d.setHlt x).gwy = d.gwy := rfl
@[simp] theorem Dev.setHlt_tbu (d : Dev) (x : Hlt) : (d.setHlt x).tbu = d.tbu := rfl
@[simp] theorem Dev.setHlt_hbr (d : Dev) (x : Hlt) : (d.setHlt x).hbr = d.hbr := rfl
@[simp] theorem Dev.setHlt_eth (d : Dev) (x : Hlt) : (d.setHlt x).eth = d.eth := rfl
@[simp] theorem Dev.setHlt_cb (d : Dev) (x : Hlt) : (d.setHlt x).cb = d.cb := rfl
@[simp] theorem Dev.setHlt_fbus (d : Dev) (x : Hlt) : (d.setHlt x).fbus = d.fbus := rfl
@[simp] theorem Dev.setHlt_insts (d : Dev) (x : Hlt) : (d.setHlt x).insts = d.insts := rfl
@[simp] theorem Dev.setHlt_sty (d : Dev) (x : Hlt) : (d.setHlt x).sty = d.sty := rfl
@[simp] theorem Dev.setHlt_pwr (d : Dev) (x : Hlt) : (d.setHlt x).pwr = d.pwr := rfl
@[simp] theorem Dev.setHlt_mst (d : Dev) (x : Hlt) : (d.setHlt x).mst = d.mst := rfl
@[simp] theorem Dev.setHlt_wires (d : Dev) (x : Hlt) : (d.setHlt x).wires = d.wires := rfl

/-! `Dev.setTso` -/

@[simp] theorem Dev.setTso_regs (d : Dev) (o : Nat) (x : Tso) : (d.setTso o x).regs = d.regs := rfl
@[simp] theorem Dev.setTso_now (d : Dev) (o : Nat) (x : Tso) : (d.setTso o x).now = d.now := rfl
@[simp] theorem Dev.setTso_free (d : Dev) (o : Nat) (x : Tso) : (d.setTso o x).free = d.free := rfl
@[simp] theorem Dev.setTso_maint (d : Dev) (o : Nat) (x : Tso) : (d.setTso o x).maint = d.maint := rfl
@[simp] theorem Dev.setTso_swc (d : Dev) (o : Nat) (x : Tso) : (d.setTso o x).swc = d.swc := rfl
@[simp] theorem Dev.setTso_xm (d : Dev) (o : Nat) (x : Tso) : (d.setTso o x).xm = d.xm := rfl
@[simp] theorem Dev.setTso_nrm (d : Dev) (o : Nat) (x : Tso) : (d.setTso o x).nrm = d.nrm := rfl
@[simp] theorem Dev.setTso_eng (d : Dev) (o : Nat) (x : Tso) : (d.setTso o x).eng = d.eng := rfl
@[simp] theorem Dev.setTso_gwy (d : Dev) (o : Nat) (x : Tso) : (d.setTso o x).gwy = d.gwy := rfl
@[simp] theorem Dev.setTso_hbr (d : Dev) (o : Nat) (x : Tso) : (d.setTso o x).hbr = d.hbr := rfl
@[simp] theorem Dev.setTso_eth (d : Dev) (o : Nat) (x : Tso) : (d.setTso o x).eth = d.eth := rfl
@[simp] theorem Dev.setTso_cb (d : Dev) (o : Nat) (x : Tso) : (d.setTso o x).cb = d.cb := rfl
@[simp] theorem Dev.setTso_fbus (d : Dev) (o : Nat) (x : Tso) : (d.setTso o x).fbus = d.fbus := rfl
@[simp] theorem Dev.setTso_insts (d : Dev) (o : Nat) (x : Tso) : (d.setTso o x).insts = d.insts := rfl
@[simp] theorem Dev.setTso_sty (d : Dev) (o : Nat) (x : Tso) : (d.setTso o x).sty = d.sty := rfl
@[simp] theorem Dev.setTso_pwr (d : Dev) (o : Nat) (x : Tso) : (d.setTso o x).pwr = d.pwr := rfl
@[simp] theorem Dev.setTso_mst (d : Dev) (o : Nat) (x : Tso) : (d.setTso o x).mst = d.mst := rfl
@[simp] theorem Dev.setTso_hlt (d : Dev) (o : Nat) (x : Tso) : (d.setTso o x).hlt = d.hlt := rfl
@[simp] theorem Dev.setTso_wires (d : Dev) (o : Nat) (x : Tso) : (d.setTso o x).wires = d.wires := rfl

/-! `Dev.setCbRec` -/

@[simp] theorem Dev.setCbRec_regs (d : Dev) (k : Nat) (x : CbRec) : (d.setCbRec k x).regs = d.regs := rfl
@[simp] theorem Dev.setCbRec_now (d : Dev) (k : Nat) (x : CbRec) : (d.setCbRec k x).now = d.now := rfl
@[simp] theorem Dev.setCbRec_free (d : Dev) (k : Nat) (x : CbRec) : (d.setCbRec k x).free = d.free := rfl
@[simp] theorem Dev.setCbRec_maint (d : Dev) (k : Nat) (x : CbRec) : (d.setCbRec k x).maint = d.maint := rfl
@[simp] theorem Dev.setCbRec_swc (d : Dev) (k : Nat) (x : CbRec) : (d.setCbRec k x).swc = d.swc := rfl
@[simp] theorem Dev.setCbRec_xm (d : Dev) (k : Nat) (x : CbRec) : (d.setCbRec k x).xm = d.xm := rfl
@[simp] theorem Dev.setCbRec_nrm (d : Dev) (k : Nat) (x : CbRec) : (d.setCbRec k x).nrm = d.nrm := rfl
@[simp] theorem Dev.setCbRec_eng (d : Dev) (k : Nat) (x : CbRec) : (d.setCbRec k x).eng = d.eng := rfl
@[simp] theorem Dev.setCbRec_gwy (d : Dev) (k : Nat) (x : CbRec) : (d.setCbRec k x).gwy = d.gwy := rfl
@[simp] theorem Dev.setCbRec_tbu (d : Dev) (k : Nat) (x : CbRec) : (d.setCbRec k x).tbu = d.tbu := rfl
@[simp] theorem Dev.setCbRec_hbr (d : Dev) (k : Nat) (x : CbRec) : (d.setCbRec k x).hbr = d.hbr := rfl
@[simp] theorem Dev.setCbRec_eth (d : Dev) (k : Nat) (x : CbRec) : (d.setCbRec k x).eth = d.eth := rfl
@[simp] theorem Dev.setCbRec_fbus (d : Dev) (k : Nat) (x : CbRec) : (d.setCbRec k x).fbus = d.fbus := rfl
@[simp] theorem Dev.setCbRec_insts (d : Dev) (k : Nat) (x : CbRec) : (d.setCbRec k x).insts = d.insts := rfl
@[simp] theorem Dev.setCbRec_sty (d : Dev) (k : Nat) (x : CbRec) : (d.setCbRec k x).sty = d.sty := rfl
@[simp] theorem Dev.setCbRec_pwr (d : Dev) (k : Nat) (x : CbRec) : (d.setCbRec k x).pwr = d.pwr := rfl
@[simp] theorem Dev.setCbRec_mst (d : Dev) (k : Nat) (x : CbRec) : (d.setCbRec k x).mst = d.mst := rfl
@[simp] theorem Dev.setCbRec_hlt (d : Dev) (k : Nat) (x : CbRec) : (d.setCbRec k x).hlt = d.hlt := rfl
@[simp] theorem Dev.setCbRec_wires (d : Dev) (k : Nat) (x : CbRec) : (d.setCbRec k x).wires = d.wires := rfl

/-! `Dev.setPoll` -/

@[simp] theorem Dev.setPoll_regs (d : Dev) (b k : Nat) (x : PollSt) : (d.setPoll b k x).regs = d.regs := rfl
@[simp] theorem Dev.setPoll_now (d : Dev) (b k : Nat) (x : PollSt) : (d.setPoll b k x).now = d.now := rfl
@[simp] theorem Dev.setPoll_free (d : Dev) (b k : Nat) (x : PollSt) : (d.setPoll b k x).free = d.free := rfl
@[simp] theorem Dev.setPoll_maint (d : Dev) (b k : Nat) (x : PollSt) : (d.setPoll b k x).maint = d.maint := rfl
@[simp] theorem Dev.setPoll_swc (d : Dev) (b k : Nat) (x : PollSt) : (d.setPoll b k x).swc = d.swc := rfl
@[simp] theorem Dev.setPoll_xm (d : Dev) (b k : Nat) (x : PollSt) : (d.setPoll b k x).xm = d.xm := rfl
@[simp] theorem Dev.setPoll_nrm (d : Dev) (b k : Nat) (x : PollSt) : (d.setPoll b k x).nrm = d.nrm := rfl
@[simp] theorem Dev.setPoll_eng (d : Dev) (b k : Nat) (x : PollSt) : (d.setPoll b k x).eng = d.eng := rfl
@[simp] theorem Dev.setPoll_gwy (d : Dev) (b k : Nat) (x : PollSt) : (d.setPoll b k x).gwy = d.gwy := rfl
@[simp] theorem Dev.setPoll_tbu (d : Dev) (b k : Nat) (x : PollSt) : (d.setPoll b k x).tbu = d.tbu := rfl
@[simp] theorem Dev.setPoll_hbr (d : Dev) (b k : Nat) (x : PollSt) : (d.setPoll b k x).hbr = d.hbr := rfl
@[simp] theorem Dev.setPoll_eth (d : Dev) (b k : Nat) (x : PollSt) : (d.setPoll b k x).eth = d.eth := rfl
@[simp] theorem Dev.setPoll_cb (d : Dev) (b k : Nat) (x : PollSt) : (d.setPoll b k x).cb = d.cb := rfl
@[simp] theorem Dev.setPoll_insts (d : Dev) (b k : Nat) (x : PollSt) : (d.setPoll b k x).insts = d.insts := rfl
@[simp] theorem Dev.setPoll_sty (d : Dev) (b k : Nat) (x : PollSt) : (d.setPoll b k x).sty = d.sty := rfl
@[simp] theorem Dev.setPoll_pwr (d : Dev) (b k : Nat) (x : PollSt) : (d.setPoll b k x).pwr = d.pwr := rfl
@[simp] theorem Dev.setPoll_mst (d : Dev) (b k : Nat) (x : PollSt) : (d.setPoll b k x).mst = d.mst := rfl
@[simp] theorem Dev.setPoll_hlt (d : Dev) (b k : Nat) (x : PollSt) : (d.setPoll b k x).hlt = d.hlt := rfl
@[simp] theorem Dev.setPoll_wires (d : Dev) (b k : Nat) (x : PollSt) : (d.setPoll b k x).wires = d.wires := rfl

/-! `Dev.setDeb` -/

@[simp] theorem Dev.setDeb_regs (d : Dev) (i : Nat) (x : Deb) : (d.setDeb i x).regs = d.regs := rfl
@[simp] theorem Dev.setDeb_now (d : Dev) (i : Nat) (x : Deb) : (d.setDeb i x).now = d.now := rfl
@[simp] theorem Dev.setDeb_free (d : Dev) (i : Nat) (x : Deb) : (d.setDeb i x).free = d.free := rfl
@[simp] theorem Dev.setDeb_maint (d : Dev) (i : Nat) (x : Deb) : (d.setDeb i x).maint = d.maint := rfl
@[simp] theorem Dev.setDeb_swc (d : Dev) (i : Nat) (x : Deb) : (d.setDeb i x).swc = d.swc := rfl
@[simp] theorem Dev.setDeb_xm (d : Dev) (i : Nat) (x : Deb) : (d.setDeb i x).xm = d.xm := rfl
@[simp] theorem Dev.setDeb_nrm (d : Dev) (i : Nat) (x : Deb) : (d.setDeb i x).nrm = d.nrm := rfl
@[simp] theorem Dev.setDeb_eng (d : Dev) (i : Nat) (x : Deb) : (d.setDeb i x).eng = d.eng := rfl
@[simp] theorem Dev.setDeb_gwy (d : Dev) (i : Nat) (x : Deb) : (d.setDeb i x).gwy = d.gwy := rfl
@[simp] theorem Dev.setDeb_tbu (d : Dev) (i : Nat) (x : Deb) : (d.setDeb i x).tbu = d.tbu := rfl
@[simp] theorem Dev.setDeb_hbr (d : Dev) (i : Nat) (x : Deb) : (d.setDeb i x).hbr = d.hbr := rfl
@[simp] theorem Dev.setDeb_eth (d : Dev) (i : Nat) (x : Deb) : (d.setDeb i x).eth = d.eth := rfl
@[simp] theorem Dev.setDeb_cb (d : Dev) (i : Nat) (x : Deb) : (d.setDeb i x).cb = d.cb := rfl
@[simp] theorem Dev.setDeb_insts (d : Dev) (i : Nat) (x : Deb) : (d.setDeb i x).insts = d.insts := rfl
@[simp] theorem Dev.setDeb_sty (d : Dev) (i : Nat) (x : Deb) : (d.setDeb i x).sty = d.sty := rfl
@[simp] theorem Dev.setDeb_pwr (d : Dev) (i : Nat) (x : Deb) : (d.setDeb i x).pwr = d.pwr := rfl
@[simp] theorem Dev.setDeb_mst (d : Dev) (i : Nat) (x : Deb) : (d.setDeb i x).mst = d.mst := rfl
@[simp] theorem Dev.setDeb_hlt (d : Dev) (i : Nat) (x : Deb) : (d.setDeb i x).hlt = d.hlt := rfl
@[simp] theorem Dev.setDeb_wires (d : Dev) (i : Nat) (x : Deb) : (d.setDeb i x).wires = d.wires := rfl

/-! `Dev.setLinBuf` -/

@[simp] theorem Dev.setLinBuf_regs (d : Dev) (l fid : Nat) (x : LinBuf) : (d.setLinBuf l fid x).regs = d.regs := rfl
@[simp] theorem Dev.setLinBuf_now (d : Dev) (l fid : Nat) (x : LinBuf) : (d.setLinBuf l fid x).now = d.now := rfl
@[simp] theorem Dev.setLinBuf_free (d : Dev) (l fid : Nat) (x : LinBuf) : (d.setLinBuf l fid x).free = d.free := rfl
@[simp] theorem Dev.setLinBuf_maint (d : Dev) (l fid : Nat) (x : LinBuf) : (d.setLinBuf l fid x).maint = d.maint := rfl
@[simp] theorem Dev.setLinBuf_swc (d : Dev) (l fid : Nat) (x : LinBuf) : (d.setLinBuf l fid x).swc = d.swc := rfl
@[simp] theorem Dev.setLinBuf_xm (d : Dev) (l fid : Nat) (x : LinBuf) : (d.setLinBuf l fid x).xm = d.xm := rfl
@[simp] theorem Dev.setLinBuf_nrm (d : Dev) (l fid : Nat) (x : LinBuf) : (d.setLinBuf l fid x).nrm = d.nrm := rfl
@[simp] theorem Dev.setLinBuf_eng (d : Dev) (l fid : Nat) (x : LinBuf) : (d.setLinBuf l fid x).eng = d.eng := rfl
@[simp] theorem Dev.setLinBuf_gwy (d : Dev) (l fid : Nat) (x : LinBuf) : (d.setLinBuf l fid x).gwy = d.gwy := rfl
@[simp] theorem Dev.setLinBuf_tbu (d : Dev) (l fid : Nat) (x : LinBuf) : (d.setLinBuf l fid x).tbu = d.tbu := rfl
@[simp] theorem Dev.setLinBuf_hbr (d : Dev) (l fid : Nat) (x : LinBuf) : (d.setLinBuf l fid x).hbr = d.hbr := rfl
@[simp] theorem Dev.setLinBuf_eth (d : Dev) (l fid : Nat) (x : LinBuf) : (d.setLinBuf l fid x).eth = d.eth := rfl
@[simp] theorem Dev.setLinBuf_cb (d : Dev) (l fid : Nat) (x : LinBuf) : (d.setLinBuf l fid x).cb = d.cb := rfl
@[simp] theorem Dev.setLinBuf_insts (d : Dev) (l fid : Nat) (x : LinBuf) : (d.setLinBuf l fid x).insts = d.insts := rfl
@[simp] theorem Dev.setLinBuf_sty (d : Dev) (l fid : Nat) (x : LinBuf) : (d.setLinBuf l fid x).sty = d.sty := rfl
@[simp] theorem Dev.setLinBuf_pwr (d : Dev) (l fid : Nat) (x : LinBuf) : (d.setLinBuf l fid x).pwr = d.pwr := rfl
@[simp] theorem Dev.setLinBuf_mst (d : Dev) (l fid : Nat) (x : LinBuf) : (d.setLinBuf l fid x).mst = d.mst := rfl
@[simp] theorem Dev.setLinBuf_hlt (d : Dev) (l fid : Nat) (x : LinBuf) : (d.setLinBuf l fid x).hlt = d.hlt := rfl
@[simp] theorem Dev.setLinBuf_wires (d : Dev) (l fid : Nat) (x : LinBuf) : (d.setLinBuf l fid x).wires = d.wires := rfl

/-! `Dev.setSess` -/

@[simp] theorem Dev.setSess_regs (d : Dev) (x : Session) : (d.setSess x).regs = d.regs := rfl
@[simp] theorem Dev.setSess_now (d : Dev) (x : Session) : (d.setSess x).now = d.now := rfl
@[simp] theorem Dev.setSess_free (d : Dev) (x : Session) : (d.setSess x).free = d.free := rfl
@[simp] theorem Dev.setSess_maint (d : Dev) (x : Session) : (d.setSess x).maint = d.maint := rfl
@[simp] theorem Dev.setSess_swc (d : Dev) (x : Session) : (d.setSess x).swc = d.swc := rfl
@[simp] theorem Dev.setSess_xm (d : Dev) (x : Session) : (d.setSess x).xm = d.xm := rfl
@[simp] theorem Dev.setSess_nrm (d : Dev) (x : Session) : (d.setSess x).nrm = d.nrm := rfl
@[simp] theorem Dev.setSess_eng (d : Dev) (x : Session) : (d.setSess x).eng = d.eng := rfl
@[simp] theorem Dev.setSess_gwy (d : Dev) (x : Session) : (d.setSess x).gwy = d.gwy := rfl
@[simp] theorem Dev.setSess_tbu (d : Dev) (x : Session) : (d.setSess x).tbu = d.tbu := rfl
@[simp] theorem Dev.setSess_hbr (d : Dev) (x : Session) : (d.setSess x).hbr = d.hbr := rfl
@[simp] theorem Dev.setSess_eth (d : Dev) (x : Session) : (d.setSess x).eth = d.eth := rfl
@[simp] theorem Dev.setSess_cb (d : Dev) (x : Session) : (d.setSess x).cb = d.cb := rfl
@[simp] theorem Dev.setSess_fbus (d : Dev) (x : Session) : (d.setSess x).fbus = d.fbus := rfl
@[simp] theorem Dev.setSess_insts (d : Dev) (x : Session) : (d.setSess x).insts = d.insts := rfl
@[simp] theorem Dev.setSess_sty (d : Dev) (x : Session) : (d.setSess x).sty = d.sty := rfl
@[simp] theorem Dev.setSess_pwr (d : Dev) (x : Session) : (d.setSess x).pwr = d.pwr := rfl
@[simp] theorem Dev.setSess_hlt (d : Dev) (x : Session) : (d.setSess x).hlt = d.hlt := rfl
@[simp] theorem Dev.setSess_wires (d : Dev) (x : Session) : (d.setSess x).wires = d.wires := rfl

/-! `Dev.setComp` -/

@[simp] theorem Dev.setComp_regs (d : Dev) (t : Nat) (x : Comp) : (d.setComp t x).regs = d.regs := rfl
@[simp] theorem Dev.setComp_now (d : Dev) (t : Nat) (x : Comp) : (d.setComp t x).now = d.now := rfl
@[simp] theorem Dev.setComp_free (d : Dev) (t : Nat) (x : Comp) : (d.setComp t x).free = d.free := rfl
@[simp] theorem Dev.setComp_maint (d : Dev) (t : Nat) (x : Comp) : (d.setComp t x).maint = d.maint := rfl
@[simp] theorem Dev.setComp_swc (d : Dev) (t : Nat) (x : Comp) : (d.setComp t x).swc = d.swc := rfl
@[simp] theorem Dev.setComp_xm (d : Dev) (t : Nat) (x : Comp) : (d.setComp t x).xm = d.xm := rfl
@[simp] theorem Dev.setComp_nrm (d : Dev) (t : Nat) (x : Comp) : (d.setComp t x).nrm = d.nrm := rfl
@[simp] theorem Dev.setComp_eng (d : Dev) (t : Nat) (x : Comp) : (d.setComp t x).eng = d.eng := rfl
@[simp] theorem Dev.setComp_gwy (d : Dev) (t : Nat) (x : Comp) : (d.setComp t x).gwy = d.gwy := rfl
@[simp] theorem Dev.setComp_tbu (d : Dev) (t : Nat) (x : Comp) : (d.setComp t x).tbu = d.tbu := rfl
@[simp] theorem Dev.setComp_hbr (d : Dev) (t : Nat) (x : Comp) : (d.setComp t x).hbr = d.hbr := rfl
@[simp] theorem Dev.setComp_eth (d : Dev) (t : Nat) (x : Comp) : (d.setComp t x).eth = d.eth := rfl
@[simp] theorem Dev.setComp_cb (d : Dev) (t : Nat) (x : Comp) : (d.setComp t x).cb = d.cb := rfl
@[simp] theorem Dev.setComp_fbus (d : Dev) (t : Nat) (x : Comp) : (d.setComp t x).fbus = d.fbus := rfl
@[simp] theorem Dev.setComp_insts (d : Dev) (t : Nat) (x : Comp) : (d.setComp t x).insts = d.insts := rfl
@[simp] theorem Dev.setComp_sty (d : Dev) (t : Nat) (x : Comp) : (d.setComp t x).sty = d.sty := rfl
@[simp] theorem Dev.setComp_pwr (d : Dev) (t : Nat) (x : Comp) : (d.setComp t x).pwr = d.pwr := rfl
@[simp] theorem Dev.setComp_hlt (d : Dev) (t : Nat) (x : Comp) : (d.setComp t x).hlt = d.hlt := rfl
@[simp] theorem Dev.setComp_wires (d : Dev) (t : Nat) (x : Comp) : (d.setComp t x).wires = d.wires := rfl

/-! What an update reads back as -/

@[simp] theorem Dev.setEport_get (d : Dev) (p : Nat) (x : EthPort) : (d.setEport p x).eport p = x := SMap.get_put_same ..
@[simp] theorem Dev.setCan_get (d : Dev) (p : Nat) (x : CanCh) : (d.setCan p x).can p = x := SMap.get_put_same ..
@[simp] theorem Dev.setLin_get (d : Dev) (p : Nat) (x : LinCh) : (d.setLin p x).lin p = x := SMap.get_put_same ..
@[simp] theorem Dev.setUart_get (d : Dev) (p : Nat) (x : Uart) : (d.setUart p x).uart p = x := SMap.get_put_same ..
@[simp] theorem Dev.setBus_get (d : Dev) (p : Nat) (x : PollBus) : (d.setBus p x).bus p = x := SMap.get_put_same ..
@[simp] theorem Dev.setSpe_get (d : Dev) (p : Nat) (x : Spe) : (d.setSpe p x).spe p = x := SMap.get_put_same ..
@[simp] theorem Dev.setTctl_get (d : Dev) (p : Nat) (x : TalkerCtl) : (d.setTctl p x).tctl p = x := SMap.get_put_same ..
@[simp] theorem Dev.setSlot_get (d : Dev) (p : Nat) (x : Slot) : (d.setSlot p x).slot p = x := SMap.get_put_same ..
@[simp] theorem Dev.setPlist_get (d : Dev) (p : Nat) (x : PList) : (d.setPlist p x).plist p = x := SMap.get_put_same ..
@[simp] theorem Dev.setDom_get (d : Dev) (p : Nat) (x : Domain) : (d.setDom p x).dom p = x := SMap.get_put_same ..
@[simp] theorem Dev.setHq_get (d : Dev) (n q : Nat) (x : HostQ) : (d.setHq n q x).hq n q = x := SMap.get_put_same ..
@[simp] theorem Dev.setLink_get (d : Dev) (p : Nat) (x : StayLink) : (d.setLink p x).link p = x := SMap.get_put_same ..
@[simp] theorem Dev.setGcl_get (d : Dev) (p : Nat) (x : Gcl) : (d.setGcl p x).gclOf p = x := SMap.get_put_same ..
@[simp] theorem Dev.setInst_get (d : Dev) (p : Nat) (x : InstSt) : (d.setInst p x).inst p = x := SMap.get_put_same ..
@[simp] theorem Dev.setMeter_get (d : Dev) (p : Nat) (x : Meter) : (d.setMeter p x).meter p = x := SMap.get_put_same ..
@[simp] theorem Dev.setMaint_get (d : Dev) (p : PageId) (x : Maint) : (d.setMaint p x).maintOf p = x := SMap.get_put_same ..
@[simp] theorem Dev.setTso_get (d : Dev) (o : Nat) (x : Tso) : (d.setTso o x).tso o = x := SMap.get_put_same ..
@[simp] theorem Dev.setCbRec_get (d : Dev) (k : Nat) (x : CbRec) : (d.setCbRec k x).cbRec k = x := SMap.get_put_same ..
@[simp] theorem Dev.setPoll_get (d : Dev) (b k : Nat) (x : PollSt) : (d.setPoll b k x).poll b k = x := by
  simp [Dev.setPoll, Dev.poll, SMap.get_put_same]
@[simp] theorem Dev.setSess_get (d : Dev) (x : Session) : (d.setSess x).mst.sess = x := rfl
@[simp] theorem Dev.setPwr_get (d : Dev) (x : Pwr) : (d.setPwr x).pwr = x := rfl
@[simp] theorem Dev.setMst_get (d : Dev) (x : Mst) : (d.setMst x).mst = x := rfl
@[simp] theorem Dev.setHlt_get (d : Dev) (x : Hlt) : (d.setHlt x).hlt = x := rfl

/-! Reading a register field after writing one -/

@[simp] theorem Dev.rd_wr_same (d : Dev) (p : PageId) (f : Fld) (v i : Nat) (h : f.wid ≤ 32) :
    (d.wr p f v i).rd p f i = v % 2 ^ f.wid := by
  have hv : v % 2 ^ f.wid < 2 ^ 32 :=
    Nat.lt_of_lt_of_le (Nat.mod_lt _ (Nat.two_pow_pos _)) (Nat.pow_le_pow_right (by decide) h)
  simp only [Dev.rd, Dev.wr, SMap.get_put_same, BitVec.toNat_ofNat, Nat.mod_eq_of_lt hv]

theorem Dev.rd_wr_other (d : Dev) (p q : PageId) (f g : Fld) (v i j : Nat) (h : g.key q j ≠ f.key p i) :
    (d.wr p f v i).rd q g j = d.rd q g j := by
  simp only [Dev.rd, Dev.wr, SMap.get_put_other _ _ _ _ _ _ h]

theorem Dev.rd_eq_of_regs {d e : Dev} (h : e.regs = d.regs) (p : PageId) (f : Fld) (i : Nat) : e.rd p f i = d.rd p f i := by
  simp only [Dev.rd, h]

theorem Dev.on_eq_of_regs {d e : Dev} (h : e.regs = d.regs) (p : PageId) (f : Fld) (i : Nat) : e.on p f i = d.on p f i := by
  simp only [Dev.on, Dev.rd_eq_of_regs h]

/-- Fields at offsets below 0x1000 with first bits below 32 have keys of their own. -/
theorem fieldKey_ne {p q off off' lo lo' : Nat} (ho : off < 4096) (ho' : off' < 4096) (hl : lo < 32) (hl' : lo' < 32)
    (h : p ≠ q ∨ off ≠ off' ∨ lo ≠ lo') : fieldKey p off lo ≠ fieldKey q off' lo' := by
  unfold fieldKey; omega

end Sys2Proof.Machine
end

