-- ==== Sys2Proof/Laws/Ops.lean ====
section
/-! SUPPORT. What the shared operations can do: latching an event and following the levels change registers, interrupt
state and what is driven out, and nothing else; a command's outcome is a next state whose queue is as it was. -/

namespace Sys2Proof.Machine

open Sys2Proof

/-- `e` differs from `d` in registers, interrupt state and what was driven out alone. -/
abbrev OnlySignals (d e : Dev) : Prop := ∃ r x w, e = { d with regs := r, hbr := { d.hbr with msix := x }, wires := w }

theorem OnlySignals.same (d : Dev) : OnlySignals d d := ⟨d.regs, d.hbr.msix, d.wires, rfl⟩

theorem OnlySignals.chain {a b c : Dev} (h : OnlySignals a b) (g : OnlySignals b c) : OnlySignals a c := by
  obtain ⟨r, x, w, rfl⟩ := h
  obtain ⟨r', x', w', rfl⟩ := g
  exact ⟨r', x', w', rfl⟩

theorem Dev.wr_signals (d : Dev) (p : PageId) (f : Fld) (v i : Nat) : OnlySignals d (d.wr p f v i) :=
  ⟨_, d.hbr.msix, d.wires, rfl⟩

theorem Dev.signal_signals (d : Dev) (n v : Nat) : OnlySignals d (d.signal n v) := by
  simp only [Dev.signal]
  split
  · exact ⟨d.regs, d.hbr.msix, _, rfl⟩
  · exact ⟨d.regs, _, d.wires, rfl⟩

theorem Dev.signal_regs (d : Dev) (n v : Nat) : (d.signal n v).regs = d.regs := by
  simp only [Dev.signal]
  split <;> rfl

theorem Dev.requestInst_signals (d : Dev) (n v : Nat) : OnlySignals d (d.requestInst n v) := by
  simp only [Dev.requestInst]
  split
  · exact (d.signal_signals n v).chain (Dev.wr_signals ..)
  · exact d.signal_signals n v

theorem Dev.requestPage_signals (d : Dev) (p : PageId) : OnlySignals d (d.requestPage p) := by
  simp only [Dev.requestPage]
  split
  · exact d.requestInst_signals ..
  · split <;> split
    · exact (d.signal_signals ..).chain (Dev.wr_signals ..)
    · exact d.signal_signals ..
    · exact Dev.wr_signals ..
    · exact .same d

/-- R78, R79: latching events. -/
theorem Dev.latch_signals (d : Dev) (p : PageId) (mask : Nat) : OnlySignals d (d.latch p mask) := by
  simp only [Dev.latch, Dev.watching]
  split
  · exact .same d
  · split
    · exact (Dev.wr_signals ..).chain (Dev.requestPage_signals ..)
    · exact Dev.wr_signals ..

theorem Dev.raise_signals (d : Dev) (p : PageId) (bit : Nat) : OnlySignals d (d.raise p bit) := d.latch_signals ..

/-- R578: following the levels. -/
theorem Dev.followLevels_signals (d e : Dev) : OnlySignals e (d.followLevels e) := by
  unfold Dev.followLevels
  suffices h : ∀ (l : List PageId) (x : Dev), OnlySignals e x →
      OnlySignals e (l.foldl (fun e' p => e'.latch p (newBits (d.levels p) (e.levels p))) x) from h _ _ (.same e)
  intro l
  induction l with
  | nil => exact fun _ h => h
  | cons p l ih => exact fun x h => ih _ (h.chain (x.latch_signals ..))

/-- The events, the interrupt bits of the LHP: what a request of a page changes of the registers. -/
theorem Dev.requestInst_rd (d : Dev) (n v : Nat) (q : PageId) (f : Fld) (i : Nat)
    (h : f.key q i ≠ Reg.HBR_LHP_IRQ.PENDING.key 0x01F 0) : (d.requestInst n v).rd q f i = d.rd q f i := by
  simp only [Dev.requestInst]
  split
  · exact (Dev.rd_wr_other _ _ _ _ _ _ _ _ h).trans (Dev.rd_eq_of_regs (d.signal_regs ..) ..)
  · exact Dev.rd_eq_of_regs (d.signal_regs ..) ..

theorem Dev.requestPage_rd (d : Dev) (p q : PageId) (f : Fld) (i : Nat)
    (h : f.key q i ≠ Reg.HBR_LHP_IRQ.PENDING.key 0x01F 0) : (d.requestPage p).rd q f i = d.rd q f i := by
  simp only [Dev.requestPage]
  split
  · exact d.requestInst_rd _ _ _ _ _ h
  · split <;> split
    · exact (Dev.rd_wr_other _ _ _ _ _ _ _ _ h).trans (Dev.rd_eq_of_regs (d.signal_regs ..) ..)
    · exact Dev.rd_eq_of_regs (d.signal_regs ..) ..
    · exact Dev.rd_wr_other _ _ _ _ _ _ _ _ h
    · rfl

/-- R78, R79: latching an event of page `p` changes PG_EVT of the page and HBR_LHP_IRQ alone. -/
theorem Dev.latch_rd (d : Dev) (p : PageId) (mask : Nat) (q : PageId) (f : Fld) (i : Nat)
    (he : f.key q i ≠ Reg.PG_EVT.EVT.key p 0) (hi : f.key q i ≠ Reg.HBR_LHP_IRQ.PENDING.key 0x01F 0) :
    (d.latch p mask).rd q f i = d.rd q f i := by
  simp only [Dev.latch, Dev.watching]
  split
  · rfl
  · split
    · exact (Dev.requestPage_rd _ _ _ _ _ hi).trans (Dev.rd_wr_other _ _ _ _ _ _ _ _ he)
    · exact Dev.rd_wr_other _ _ _ _ _ _ _ _ he

/-- R578: following the levels changes PG_EVT fields and HBR_LHP_IRQ alone. -/
theorem Dev.followLevels_rd (d e : Dev) (q : PageId) (f : Fld) (i : Nat)
    (he : ∀ p, f.key q i ≠ Reg.PG_EVT.EVT.key p 0) (hi : f.key q i ≠ Reg.HBR_LHP_IRQ.PENDING.key 0x01F 0) :
    (d.followLevels e).rd q f i = e.rd q f i := by
  unfold Dev.followLevels
  suffices h : ∀ (l : List PageId) (x : Dev), x.rd q f i = e.rd q f i →
      (l.foldl (fun e' p => e'.latch p (newBits (d.levels p) (e.levels p))) x).rd q f i = e.rd q f i from h _ _ rfl
  intro l
  induction l with
  | nil => exact fun _ h => h
  | cons p l ih => exact fun x h => ih _ ((x.latch_rd _ _ _ _ _ (he p) hi).trans h)

/-- The outcome of a command of the fast domains while their clocks run. -/
theorem onDevL_clocked (f : Dev → Dev) (s : State) (h : s.dev.clocked = true) :
    onDevL f s = .next { s with dev := s.dev.closing (f s.dev) } := by
  simp [onDevL, h]

/-- The outcome of a command of the fast domains while their clocks do not run. -/
theorem onDevL_unclocked (f : Dev → Dev) (s : State) (h : s.dev.clocked = false) : onDevL f s = .next s := by
  simp [onDevL, h]

/-- The outcome of a command of the always-on domain. -/
theorem onAon_alive (f : Dev → Dev) (s : State) (h : s.dev.pwr.dead = false) :
    onAon f s = .next { s with dev := s.dev.closing (f s.dev) } := by
  simp [onAon, h]

theorem onAon_dead (f : Dev → Dev) (s : State) (h : s.dev.pwr.dead = true) : onAon f s = .next s := by
  simp [onAon, h]

end Sys2Proof.Machine
end

