-- ==== Sys2Proof/Laws/Exec.lean ====
section
/-! SUPPORT. What `exec` answers for each command, by its meaning; the commands of the fast domains have their effect while the
clocks run, those of the always-on domain while it has its supply. -/

namespace Sys2Proof.Machine

open Sys2Proof

theorem exec_registerWrite (a s) : exec (.registerWrite a) s = execRegisterWrite a s := rfl
theorem exec_clearingRead (a s) : exec (.clearingRead a) s = execClearingRead a s := rfl
theorem exec_counterSnapshotRead (a s) : exec (.counterSnapshotRead a) s = execCounterSnapshotRead a s := rfl
theorem exec_pop (a s) : exec (.pop a) s = execPop a s := rfl
theorem exec_push (a s) : exec (.push a) s = execPush a s := rfl
theorem exec_tagAliasPush (q t data s) : exec (.tagAliasPush q t data) s = execTagAliasPush q t data s := rfl
theorem exec_eventInject (via pg data s) : exec (.eventInject via pg data) s = execEventInject via pg data s := rfl
theorem exec_pgEvtClear (via pg data s) : exec (.pgEvtClear via pg data) s = execPgEvtClear via pg data s := rfl
theorem exec_take (via pg act s) : exec (.take via pg act) s = execTake via pg act s := rfl
theorem exec_drop (via pg s) : exec (.drop via pg) s = execDrop via pg s := rfl
theorem exec_pgLockWrite (via pg data s) : exec (.pgLockWrite via pg data) s = execPgLockWrite via pg data s := rfl
theorem exec_clockStop (dom arrival s) : exec (.clockStop dom arrival) s = execClockStop dom arrival s := rfl
theorem exec_domainRestart (dom s) : exec (.domainRestart dom) s = execDomainRestart dom s := rfl
theorem exec_frameHeadReceived (p age head s) : exec (.frameHeadReceived p age head) s = execFrameHeadReceived p age head s := rfl
theorem exec_frameEndReceived (p tail how s) : exec (.frameEndReceived p tail how) s = execFrameEndReceived p tail how s := rfl
theorem exec_pauseTimerExpiry (p c s) : exec (.pauseTimerExpiry p c) s = execPauseTimerExpiry p c s := rfl
theorem exec_pauseRefresh (p s) : exec (.pauseRefresh p) s = execPauseRefresh p s := rfl
theorem exec_cbRecoveryReset (pair k s) : exec (.cbRecoveryReset pair k) s = execCbRecoveryReset pair k s := rfl
theorem exec_egressFrameStart (p s) : exec (.egressFrameStart p) s = execEgressFrameStart p s := rfl
theorem exec_frameTxEnd (p s) : exec (.frameTxEnd p) s = execFrameTxEnd p s := rfl
theorem exec_preemptVerifyDone (p ok s) : exec (.preemptVerifyDone p ok) s = execPreemptVerifyDone p ok s := rfl
theorem exec_verifyRetry (p s) : exec (.verifyRetry p) s = execVerifyRetry p s := rfl
theorem exec_collision (p late s) : exec (.collision p late) s = execCollision p late s := rfl
theorem exec_backoffExpiry (p s) : exec (.backoffExpiry p) s = execBackoffExpiry p s := rfl
theorem exec_plcaLoss (p s) : exec (.plcaLoss p) s = execPlcaLoss p s := rfl
theorem exec_plcaBeaconReturn (p s) : exec (.plcaBeaconReturn p) s = execPlcaBeaconReturn p s := rfl
theorem exec_linkGood (p rxSpeed s) : exec (.linkGood p rxSpeed) s = execLinkGood p rxSpeed s := rfl
theorem exec_linkLoss (p lost s) : exec (.linkLoss p lost) s = execLinkLoss p lost s := rfl
theorem exec_linkReturn (p s) : exec (.linkReturn p) s = execLinkReturn p s := rfl
theorem exec_holdExpiry (u s) : exec (.holdExpiry u) s = execHoldExpiry u s := rfl
theorem exec_portEnable (via p s) : exec (.portEnable via p) s = execPortEnable via p s := rfl
theorem exec_portDisable (via p s) : exec (.portDisable via p) s = execPortDisable via p s := rfl
theorem exec_sleepReq (via z s) : exec (.sleepReq via z) s = execSleepReq via z s := rfl
theorem exec_tc10SleepReceived (z s) : exec (.tc10SleepReceived z) s = execTc10SleepReceived z s := rfl
theorem exec_tc10SleepAck (z s) : exec (.tc10SleepAck z) s = execTc10SleepAck z s := rfl
theorem exec_tc10Asleep (z s) : exec (.tc10Asleep z) s = execTc10Asleep z s := rfl
theorem exec_tc10Wake (z s) : exec (.tc10Wake z) s = execTc10Wake z s := rfl
theorem exec_wakeReq (via z s) : exec (.wakeReq via z) s = execWakeReq via z s := rfl
theorem exec_diagStart (via z s) : exec (.diagStart via z) s = execDiagStart via z s := rfl
theorem exec_diagDone (z res dist s) : exec (.diagDone z res dist) s = execDiagDone z res dist s := rfl
theorem exec_canFrameReceived (c age own f s) : exec (.canFrameReceived c age own f) s = execCanFrameReceived c age own f s := rfl
theorem exec_canError (c inc age s) : exec (.canError c inc age) s = execCanError c inc age s := rfl
theorem exec_canTxDone (c age s) : exec (.canTxDone c age) s = execCanTxDone c age s := rfl
theorem exec_arbLost (c s) : exec (.arbLost c) s = execArbLost c s := rfl
theorem exec_busoff (c s) : exec (.busoff c) s = execBusoff c s := rfl
theorem exec_busoffRecovered (c s) : exec (.busoffRecovered c) s = execBusoffRecovered c s := rfl
theorem exec_recover (via c s) : exec (.recover via c) s = execRecover via c s := rfl
theorem exec_linSlotStart (l s) : exec (.linSlotStart l) s = execLinSlotStart l s := rfl
theorem exec_schedSwitch (via l start stop s) : exec (.schedSwitch via l start stop) s = execSchedSwitch via l start stop s := rfl
theorem exec_linHeaderReceived (l head age s) : exec (.linHeaderReceived l head age) s = execLinHeaderReceived l head age s := rfl
theorem exec_linResponseReceived (l age bytes framingOk s) : exec (.linResponseReceived l age bytes framingOk) s = execLinResponseReceived l age bytes framingOk s := rfl
theorem exec_noResp (l s) : exec (.noResp l) s = execNoResp l s := rfl
theorem exec_uartCharReceived (u age ch ok s) : exec (.uartCharReceived u age ch ok) s = execUartCharReceived u age ch ok s := rfl
theorem exec_uartIdle (u s) : exec (.uartIdle u) s = execUartIdle u s := rfl
theorem exec_uartTxDone (u s) : exec (.uartTxDone u) s = execUartTxDone u s := rfl
theorem exec_pollDue (b k s) : exec (.pollDue b k) s = execPollDue b k s := rfl
theorem exec_pollCaptured (b bytes s) : exec (.pollCaptured b bytes) s = execPollCaptured b bytes s := rfl
theorem exec_nack (b s) : exec (.nack b) s = execNack b s := rfl
theorem exec_i2cTimeout (b s) : exec (.i2cTimeout b) s = execI2cTimeout b s := rfl
theorem exec_busWriteStart (b s) : exec (.busWriteStart b) s = execBusWriteStart b s := rfl
theorem exec_busWriteDone (b s) : exec (.busWriteDone b) s = execBusWriteDone b s := rfl
theorem exec_gpiSample (levels s) : exec (.gpiSample levels) s = execGpiSample levels s := rfl
theorem exec_lookup (pipe s) : exec (.lookup pipe) s = execLookup pipe s := rfl
theorem exec_lookupPartB (p s) : exec (.lookupPartB p) s = execLookupPartB p s := rfl
theorem exec_sfUnblock (via s) : exec (.sfUnblock via) s = execSfUnblock via s := rfl
theorem exec_redLatchClear (via s) : exec (.redLatchClear via) s = execRedLatchClear via s := rfl
theorem exec_shadowWrite (a s) : exec (.shadowWrite a) s = execShadowWrite a s := rfl
theorem exec_dualWrite (a s) : exec (.dualWrite a) s = execDualWrite a s := rfl
theorem exec_commit (via s) : exec (.commit via) s = execCommit via s := rfl
theorem exec_commitSwap (s) : exec .commitSwap s = execCommitSwap s := rfl
theorem exec_resyncCopy (part s) : exec (.resyncCopy part) s = execResyncCopy part s := rfl
theorem exec_resyncDone (s) : exec .resyncDone s = execResyncDone s := rfl
theorem exec_matchRound (s) : exec .matchRound s = execMatchRound s := rfl
theorem exec_expressGrant (s) : exec .expressGrant s = execExpressGrant s := rfl
theorem exec_gclChange (via p s) : exec (.gclChange via p) s = execGclChange via p s := rfl
theorem exec_gclChangeTime (p s) : exec (.gclChangeTime p) s = execGclChangeTime p s := rfl
theorem exec_gclEntryEnd (p s) : exec (.gclEntryEnd p) s = execGclEntryEnd p s := rfl
theorem exec_lifetimeExpiry (sid member s) : exec (.lifetimeExpiry sid member) s = execLifetimeExpiry sid member s := rfl
theorem exec_egressHandOn (set s) : exec (.egressHandOn set) s = execEgressHandOn set s := rfl
theorem exec_memberDelivered (sid member s) : exec (.memberDelivered sid member) s = execMemberDelivered sid member s := rfl
theorem exec_reseqTimeout (out talker s) : exec (.reseqTimeout out talker) s = execReseqTimeout out talker s := rfl
theorem exec_admission (s) : exec .admission s = execAdmission s := rfl
theorem exec_admitLifetime (sid s) : exec (.admitLifetime sid) s = execAdmitLifetime sid s := rfl
theorem exec_spill (s) : exec .spill s = execSpill s := rfl
theorem exec_prefetch (s) : exec .prefetch s = execPrefetch s := rfl
theorem exec_memFault (sid cell s) : exec (.memFault sid cell) s = execMemFault sid cell s := rfl
theorem exec_xmTraining (s) : exec .xmTraining s = execXmTraining s := rfl
theorem exec_xmTrainingDone (ok s) : exec (.xmTrainingDone ok) s = execXmTrainingDone ok s := rfl
theorem exec_xmRetrain (s) : exec .xmRetrain s = execXmRetrain s := rfl
theorem exec_xmRetrainStart (via s) : exec (.xmRetrainStart via) s = execXmRetrainStart via s := rfl
theorem exec_xmRetrainDone (ok s) : exec (.xmRetrainDone ok) s = execXmRetrainDone ok s := rfl
theorem exec_engineTake (k s) : exec (.engineTake k) s = execEngineTake k s := rfl
theorem exec_runCommit (k s) : exec (.runCommit k) s = execRunCommit k s := rfl
theorem exec_speHwFault (k s) : exec (.speHwFault k) s = execSpeHwFault k s := rfl
theorem exec_wdogExpired (k s) : exec (.wdogExpired k) s = execWdogExpired k s := rfl
theorem exec_selfTestDone (k pass s) : exec (.selfTestDone k pass) s = execSelfTestDone k pass s := rfl
theorem exec_selfTestRotation (s) : exec .selfTestRotation s = execSelfTestRotation s := rfl
theorem exec_engReturn (via s) : exec (.engReturn via) s = execEngReturn via s := rfl
theorem exec_engRetire (via s) : exec (.engRetire via) s = execEngRetire via s := rfl
theorem exec_creditRefill (s) : exec .creditRefill s = execCreditRefill s := rfl
theorem exec_tsWrite (via data s) : exec (.tsWrite via data) s = execTsWrite via data s := rfl
theorem exec_tsWriteApply (s) : exec .tsWriteApply s = execTsWriteApply s := rfl
theorem exec_runCancel (n s) : exec (.runCancel n) s = execRunCancel n s := rfl
theorem exec_nop (u s) : exec (.nop u) s = execNop u s := rfl
theorem exec_mov (u d src s) : exec (.mov u d src) s = execMov u d src s := rfl
theorem exec_ldi (u d tg imm s) : exec (.ldi u d tg imm) s = execLdi u d tg imm s := rfl
theorem exec_tag (u d src tg s) : exec (.tag u d src tg) s = execTag u d src tg s := rfl
theorem exec_ld (u d a inc imm s) : exec (.ld u d a inc imm) s = execLd u d a inc imm s := rfl
theorem exec_st (u d a inc imm s) : exec (.st u d a inc imm) s = execSt u d a inc imm s := rfl
theorem exec_ldb (u d a inc imm s) : exec (.ldb u d a inc imm) s = execLdb u d a inc imm s := rfl
theorem exec_stb (u d a inc imm s) : exec (.stb u d a inc imm) s = execStb u d a inc imm s := rfl
theorem exec_lda (u a imm s) : exec (.lda u a imm) s = execLda u a imm s := rfl
theorem exec_adda (u a imm s) : exec (.adda u a imm) s = execAdda u a imm s := rfl
theorem exec_mova (u a src s) : exec (.mova u a src) s = execMova u a src s := rfl
theorem exec_movw (u d a s) : exec (.movw u d a) s = execMovw u d a s := rfl
theorem exec_add (u d src t s) : exec (.add u d src t) s = execAdd u d src t s := rfl
theorem exec_adc (u d src t s) : exec (.adc u d src t) s = execAdc u d src t s := rfl
theorem exec_sub (u d src t s) : exec (.sub u d src t) s = execSub u d src t s := rfl
theorem exec_sbc (u d src t s) : exec (.sbc u d src t) s = execSbc u d src t s := rfl
theorem exec_and (u d src t s) : exec (.and u d src t) s = execAnd u d src t s := rfl
theorem exec_or (u d src t s) : exec (.or u d src t) s = execOr u d src t s := rfl
theorem exec_xor (u d src t s) : exec (.xor u d src t) s = execXor u d src t s := rfl
theorem exec_not (u d src s) : exec (.not u d src) s = execNot u d src s := rfl
theorem exec_addi (u d src imm s) : exec (.addi u d src imm) s = execAddi u d src imm s := rfl
theorem exec_subi (u d src imm s) : exec (.subi u d src imm) s = execSubi u d src imm s := rfl
theorem exec_andi (u d src imm s) : exec (.andi u d src imm) s = execAndi u d src imm s := rfl
theorem exec_ori (u d src imm s) : exec (.ori u d src imm) s = execOri u d src imm s := rfl
theorem exec_xori (u d src imm s) : exec (.xori u d src imm) s = execXori u d src imm s := rfl
theorem exec_cmp (u src t s) : exec (.cmp u src t) s = execCmp u src t s := rfl
theorem exec_cmpi (u src imm s) : exec (.cmpi u src imm) s = execCmpi u src imm s := rfl
theorem exec_shl (u d src n s) : exec (.shl u d src n) s = execShl u d src n s := rfl
theorem exec_shr (u d src n s) : exec (.shr u d src n) s = execShr u d src n s := rfl
theorem exec_sar (u d src n s) : exec (.sar u d src n) s = execSar u d src n s := rfl
theorem exec_mul (u d src t s) : exec (.mul u d src t) s = execMul u d src t s := rfl
theorem exec_ext (u d src p w s) : exec (.ext u d src p w) s = execExt u d src p w s := rfl
theorem exec_ins (u d src p w s) : exec (.ins u d src p w) s = execIns u d src p w s := rfl
theorem exec_br (u cond target s) : exec (.br u cond target) s = execBr u cond target s := rfl
theorem exec_btag (u src tg target s) : exec (.btag u src tg target) s = execBtag u src tg target s := rfl
theorem exec_dbnz (u a target s) : exec (.dbnz u a target) s = execDbnz u a target s := rfl
theorem exec_endProg (u s) : exec (.endProg u) s = execEndProg u s := rfl
theorem exec_hdr (u a s) : exec (.hdr u a) s = execHdr u a s := rfl
theorem exec_emit (u a src s) : exec (.emit u a src) s = execEmit u a src s := rfl
theorem exec_sld (u d src s) : exec (.sld u d src) s = execSld u d src s := rfl
theorem exec_sst (u d src s) : exec (.sst u d src) s = execSst u d src s := rfl
theorem exec_time (u d s) : exec (.time u d) s = execTime u d s := rfl
theorem exec_cut (s) : exec .cut s = execCut s := rfl
theorem exec_slotVloWrite (via data s) : exec (.slotVloWrite via data) s = execSlotVloWrite via data s := rfl
theorem exec_slotVhiWrite (via data s) : exec (.slotVhiWrite via data) s = execSlotVhiWrite via data s := rfl
theorem exec_stale (slot s) : exec (.stale slot) s = execStale slot s := rfl
theorem exec_firingDue (l s) : exec (.firingDue l) s = execFiringDue l s := rfl
theorem exec_changeCheck (l s) : exec (.changeCheck l) s = execChangeCheck l s := rfl
theorem exec_firingStart (s) : exec .firingStart s = execFiringStart s := rfl
theorem exec_acfMessage (l s) : exec (.acfMessage l) s = execAcfMessage l s := rfl
theorem exec_acfHoldExpiry (l s) : exec (.acfHoldExpiry l) s = execAcfHoldExpiry l s := rfl
theorem exec_snapshot (via s) : exec (.snapshot via) s = execSnapshot via s := rfl
theorem exec_rateApply (n s) : exec (.rateApply n) s = execRateApply n s := rfl
theorem exec_syncLost (n s) : exec (.syncLost n) s = execSyncLost n s := rfl
theorem exec_domainStep (via n s) : exec (.domainStep via n) s = execDomainStep via n s := rfl
theorem exec_domainStepApply (n s) : exec (.domainStepApply n) s = execDomainStepApply n s := rfl
theorem exec_eventInput (inp rising age s) : exec (.eventInput inp rising age) s = execEventInput inp rising age s := rfl
theorem exec_tsoRise (o s) : exec (.tsoRise o) s = execTsoRise o s := rfl
theorem exec_tsoFall (o s) : exec (.tsoFall o) s = execTsoFall o s := rfl
theorem exec_timeExchange (l s) : exec (.timeExchange l) s = execTimeExchange l s := rfl
theorem exec_boardLockLost (s) : exec .boardLockLost s = execBoardLockLost s := rfl
theorem exec_boardStepRetry (s) : exec .boardStepRetry s = execBoardStepRetry s := rfl
theorem exec_domRelayApply (n s) : exec (.domRelayApply n) s = execDomRelayApply n s := rfl
theorem exec_dbTail (via n q idx s) : exec (.dbTail via n q idx) s = execDbTail via n q idx s := rfl
theorem exec_dbCqHead (via n q idx s) : exec (.dbCqHead via n q idx) s = execDbCqHead via n q idx s := rfl
theorem exec_descriptorFetch (n q desc s) : exec (.descriptorFetch n q desc) s = execDescriptorFetch n q desc s := rfl
theorem exec_dmaReadDone (n t bytes s) : exec (.dmaReadDone n t bytes) s = execDmaReadDone n t bytes s := rfl
theorem exec_dmaReadError (n q s) : exec (.dmaReadError n q) s = execDmaReadError n q s := rfl
theorem exec_rxCompletion (n q s) : exec (.rxCompletion n q) s = execRxCompletion n q s := rfl
theorem exec_holdoffExpiry (n q s) : exec (.holdoffExpiry n q) s = execHoldoffExpiry n q s := rfl
theorem exec_hostHandOn (s) : exec .hostHandOn s = execHostHandOn s := rfl
theorem exec_queueOff (via n q s) : exec (.queueOff via n q) s = execQueueOff via n q s := rfl
theorem exec_queueDma (via n q s) : exec (.queueDma via n q) s = execQueueDma via n q s := rfl
theorem exec_queueWindow (via n q s) : exec (.queueWindow via n q) s = execQueueWindow via n q s := rfl
theorem exec_queueStopped (n q s) : exec (.queueStopped n q) s = execQueueStopped n q s := rfl
theorem exec_windowFlush (via n data s) : exec (.windowFlush via n data) s = execWindowFlush via n data s := rfl
theorem exec_pushHoldTimeout (s) : exec .pushHoldTimeout s = execPushHoldTimeout s := rfl
theorem exec_lhpTimeout (s) : exec .lhpTimeout s = execLhpTimeout s := rfl
theorem exec_busMasterEnable (n s) : exec (.busMasterEnable n) s = execBusMasterEnable n s := rfl
theorem exec_functionLevelReset (n s) : exec (.functionLevelReset n) s = execFunctionLevelReset n s := rfl
theorem exec_pcieLinkDown (s) : exec .pcieLinkDown s = execPcieLinkDown s := rfl
theorem exec_create (via target s) : exec (.create via target) s = execCreate via target s := rfl
theorem exec_destroy (via target s) : exec (.destroy via target) s = execDestroy via target s := rfl
theorem exec_setShare (via target s) : exec (.setShare via target) s = execSetShare via target s := rfl
theorem exec_reset (via target s) : exec (.reset via target) s = execReset via target s := rfl
theorem exec_resetDone (n s) : exec (.resetDone n) s = execResetDone n s := rfl
theorem exec_freeze (via target s) : exec (.freeze via target) s = execFreeze via target s := rfl
theorem exec_frozen (n s) : exec (.frozen n) s = execFrozen n s := rfl
theorem exec_freezeTimeout (n s) : exec (.freezeTimeout n) s = execFreezeTimeout n s := rfl
theorem exec_thaw (via target s) : exec (.thaw via target) s = execThaw via target s := rfl
theorem exec_save (via target s) : exec (.save via target) s = execSave via target s := rfl
theorem exec_restore (via target s) : exec (.restore via target) s = execRestore via target s := rfl
theorem exec_imgDone (n s) : exec (.imgDone n) s = execImgDone n s := rfl
theorem exec_copy (via target s) : exec (.copy via target) s = execCopy via target s := rfl
theorem exec_copyDone (farReady crcOk pathOk s) : exec (.copyDone farReady crcOk pathOk) s = execCopyDone farReady crcOk pathOk s := rfl
theorem exec_imgData (via write data s) : exec (.imgData via write data) s = execImgData via write data s := rfl
theorem exec_linkTraining (l s) : exec (.linkTraining l) s = execLinkTraining l s := rfl
theorem exec_stayLinkUp (l lanes asym s) : exec (.stayLinkUp l lanes asym) s = execStayLinkUp l lanes asym s := rfl
theorem exec_ident (l dev manager level s) : exec (.ident l dev manager level) s = execIdent l dev manager level s := rfl
theorem exec_identRetry (l s) : exec (.identRetry l) s = execIdentRetry l s := rfl
theorem exec_creditInit (l c0 c1 c2 s) : exec (.creditInit l c0 c1 c2) s = execCreditInit l c0 c1 c2 s := rfl
theorem exec_flitReceive (l f s) : exec (.flitReceive l f) s = execFlitReceive l f s := rfl
theorem exec_ack (l count s) : exec (.ack l count) s = execAck l count s := rfl
theorem exec_nak (l count s) : exec (.nak l count) s = execNak l count s := rfl
theorem exec_ackTimer (l s) : exec (.ackTimer l) s = execAckTimer l s := rfl
theorem exec_timeReq (l seq t1 s) : exec (.timeReq l seq t1) s = execTimeReq l seq t1 s := rfl
theorem exec_timeResp (l seq t2 t3 s) : exec (.timeResp l seq t2 t3) s = execTimeResp l seq t2 t3 s := rfl
theorem exec_domRelay (l m s) : exec (.domRelay l m) s = execDomRelay l m s := rfl
theorem exec_laneStat (l lanes s) : exec (.laneStat l lanes) s = execLaneStat l lanes s := rfl
theorem exec_staySentence (l s) : exec (.staySentence l) s = execStaySentence l s := rfl
theorem exec_stayForward (l s) : exec (.stayForward l) s = execStayForward l s := rfl
theorem exec_remoteAccess (a write s) : exec (.remoteAccess a write) s = execRemoteAccess a write s := rfl
theorem exec_remoteRequest (l r s) : exec (.remoteRequest l r) s = execRemoteRequest l r s := rfl
theorem exec_remoteCompletion (tag status value s) : exec (.remoteCompletion tag status value) s = execRemoteCompletion tag status value s := rfl
theorem exec_remoteTimeout (tag s) : exec (.remoteTimeout tag) s = execRemoteTimeout tag s := rfl
theorem exec_atomicop (fn addr op wide s) : exec (.atomicop fn addr op wide) s = execAtomicop fn addr op wide s := rfl
theorem exec_laneFail (l k s) : exec (.laneFail l k) s = execLaneFail l k s := rfl
theorem exec_laneRetrain (l s) : exec (.laneRetrain l) s = execLaneRetrain l s := rfl
theorem exec_laneRetrainStart (via l s) : exec (.laneRetrainStart via l) s = execLaneRetrainStart via l s := rfl
theorem exec_laneRejoin (l s) : exec (.laneRejoin l) s = execLaneRejoin l s := rfl
theorem exec_stayLinkFail (l s) : exec (.stayLinkFail l) s = execStayLinkFail l s := rfl
theorem exec_requestFull (via s) : exec (.requestFull via) s = execRequestFull via s := rfl
theorem exec_requestReefed (via s) : exec (.requestReefed via) s = execRequestReefed via s := rfl
theorem exec_requestFurled (via s) : exec (.requestFurled via) s = execRequestFurled via s := rfl
theorem exec_requestStruck (via s) : exec (.requestStruck via) s = execRequestStruck via s := rfl
theorem exec_entryQuiesced (s) : exec .entryQuiesced s = execEntryQuiesced s := rfl
theorem exec_drainExpiry (s) : exec .drainExpiry s = execDrainExpiry s := rfl
theorem exec_wakeEvent (src unit ide w s) : exec (.wakeEvent src unit ide w) s = execWakeEvent src unit ide w s := rfl
theorem exec_wakeTimer (s) : exec .wakeTimer s = execWakeTimer s := rfl
theorem exec_wakeRunStart (s) : exec .wakeRunStart s = execWakeRunStart s := rfl
theorem exec_wakeRunLimit (s) : exec .wakeRunLimit s = execWakeRunLimit s := rfl
theorem exec_pllRelock (s) : exec .pllRelock s = execPllRelock s := rfl
theorem exec_powerOnReset (s) : exec .powerOnReset s = execPowerOnReset s := rfl
theorem exec_resetN (s) : exec .resetN s = execResetN s := rfl
theorem exec_resetNGlitch (s) : exec .resetNGlitch s = execResetNGlitch s := rfl
theorem exec_railsReady (manager dev s) : exec (.railsReady manager dev) s = execRailsReady manager dev s := rfl
theorem exec_railWaitExpiry (s) : exec .railWaitExpiry s = execRailWaitExpiry s := rfl
theorem exec_pllLock (s) : exec .pllLock s = execPllLock s := rfl
theorem exec_settingsReload (s) : exec .settingsReload s = execSettingsReload s := rfl
theorem exec_fastStart (s) : exec .fastStart s = execFastStart s := rfl
theorem exec_forwarding (s) : exec .forwarding s = execForwarding s := rfl
theorem exec_mastheadStart (s) : exec .mastheadStart s = execMastheadStart s := rfl
theorem exec_softReset (via key s) : exec (.softReset via key) s = execSoftReset via key s := rfl
theorem exec_watchdogReset (s) : exec .watchdogReset s = execWatchdogReset s := rfl
theorem exec_kick (via s) : exec (.kick via) s = execKick via s := rfl
theorem exec_stayReset (s) : exec .stayReset s = execStayReset s := rfl
theorem exec_resetComplete (s) : exec .resetComplete s = execResetComplete s := rfl
theorem exec_mhRestart (s) : exec .mhRestart s = execMhRestart s := rfl
theorem exec_settingsCommit (via s) : exec (.settingsCommit via) s = execSettingsCommit via s := rfl
theorem exec_settingsCommitDone (s) : exec .settingsCommitDone s = execSettingsCommitDone s := rfl
theorem exec_eraseOld (via key s) : exec (.eraseOld via key) s = execEraseOld via key s := rfl
theorem exec_mramScrub (s) : exec .mramScrub s = execMramScrub s := rfl
theorem exec_openSession (via target s) : exec (.openSession via target) s = execOpenSession via target s := rfl
theorem exec_verify (via s) : exec (.verify via) s = execVerify via s := rfl
theorem exec_verifyDone (s) : exec .verifyDone s = execVerifyDone s := rfl
theorem exec_write (via s) : exec (.write via) s = execWrite via s := rfl
theorem exec_close (via s) : exec (.close via) s = execClose via s := rfl
theorem exec_abort (via s) : exec (.abort via) s = execAbort via s := rfl
theorem exec_updData (via data s) : exec (.updData via data) s = execUpdData via data s := rfl
theorem exec_updData16 (via data s) : exec (.updData16 via data) s = execUpdData16 via data s := rfl
theorem exec_sessionAbandon (s) : exec .sessionAbandon s = execSessionAbandon s := rfl
theorem exec_downgradePermit (via key permit s) : exec (.downgradePermit via key permit) s = execDowngradePermit via key permit s := rfl
theorem exec_rigCommitRetry (s) : exec .rigCommitRetry s = execRigCommitRetry s := rfl
theorem exec_updCommandRelay (op s) : exec (.updCommandRelay op) s = execUpdCommandRelay op s := rfl
theorem exec_updDataRelay (off bytes s) : exec (.updDataRelay off bytes) s = execUpdDataRelay off bytes s := rfl
theorem exec_updStatusRelay (result state s) : exec (.updStatusRelay result state) s = execUpdStatusRelay result state s := rfl
theorem exec_freezeWrite (s) : exec .freezeWrite s = execFreezeWrite s := rfl
theorem exec_faultAck (via page all s) : exec (.faultAck via page all) s = execFaultAck via page all s := rfl
theorem exec_hostSafe (via key s) : exec (.hostSafe via key) s = execHostSafe via key s := rfl
theorem exec_tempSample (tj s) : exec (.tempSample tj) s = execTempSample tj s := rfl
theorem exec_patrolScrub (s) : exec .patrolScrub s = execPatrolScrub s := rfl
theorem exec_clockLoss (s) : exec .clockLoss s = execClockLoss s := rfl
theorem exec_supplyFault (rail s) : exec (.supplyFault rail) s = execSupplyFault rail s := rfl
theorem exec_parity (pg s) : exec (.parity pg) s = execParity pg s := rfl
theorem exec_registerRead (a s) : exec (.registerRead a) s = execRegisterRead a s := rfl
theorem exec_pcieLinkUp (speed width s) : exec (.pcieLinkUp speed width) s = execPcieLinkUp speed width s := rfl
theorem exec_d3hotTransition (n toD3 s) : exec (.d3hotTransition n toD3) s = execD3hotTransition n toD3 s := rfl
theorem exec_spillDone (s) : exec .spillDone s = execSpillDone s := rfl
theorem exec_prefetchDone (s) : exec .prefetchDone s = execPrefetchDone s := rfl
theorem exec_mramScrubDone (corrected bad s) : exec (.mramScrubDone corrected bad) s = execMramScrubDone corrected bad s := rfl
theorem exec_scrubChunkDone (corrected bad s) : exec (.scrubChunkDone corrected bad) s = execScrubChunkDone corrected bad s := rfl
theorem exec_laneRetrainFailed (l s) : exec (.laneRetrainFailed l) s = execLaneRetrainFailed l s := rfl
theorem exec_vddAonLoss (s) : exec .vddAonLoss s = execVddAonLoss s := rfl
theorem exec_canBusJoin (c s) : exec (.canBusJoin c) s = execCanBusJoin c s := rfl

/-- Every command but those of the always-on domain and of the device's resets is one of the fast domains. -/
theorem exec_fast (i : Instr) (h : Instr.alwaysOn i = false) : ∃ f, ∀ s, exec i s = onDevL f s := by
  cases i
  case registerWrite => exact ⟨_, exec_registerWrite _⟩
  case clearingRead => exact ⟨_, exec_clearingRead _⟩
  case counterSnapshotRead => exact ⟨_, exec_counterSnapshotRead _⟩
  case pop => exact ⟨_, exec_pop _⟩
  case push => exact ⟨_, exec_push _⟩
  case tagAliasPush => exact ⟨_, exec_tagAliasPush _ _ _⟩
  case eventInject => exact ⟨_, fun s => by rw [exec_eventInject, execEventInject, onBus, onBusFor]⟩
  case pgEvtClear => exact ⟨_, fun s => by rw [exec_pgEvtClear, execPgEvtClear, onBus, onBusFor]⟩
  case take => exact ⟨_, fun s => by rw [exec_take, execTake, onBus, onBusFor]⟩
  case drop => exact ⟨_, fun s => by rw [exec_drop, execDrop, onBus, onBusFor]⟩
  case pgLockWrite => exact ⟨_, fun s => by rw [exec_pgLockWrite, execPgLockWrite, onBus, onBusFor]⟩
  case clockStop => exact ⟨_, exec_clockStop _ _⟩
  case domainRestart => exact ⟨_, exec_domainRestart _⟩
  case frameHeadReceived => exact ⟨_, exec_frameHeadReceived _ _ _⟩
  case frameEndReceived => exact ⟨_, exec_frameEndReceived _ _ _⟩
  case pauseTimerExpiry => exact ⟨_, exec_pauseTimerExpiry _ _⟩
  case pauseRefresh => exact ⟨_, exec_pauseRefresh _⟩
  case cbRecoveryReset => exact ⟨_, exec_cbRecoveryReset _ _⟩
  case egressFrameStart => exact ⟨_, exec_egressFrameStart _⟩
  case frameTxEnd => exact ⟨_, exec_frameTxEnd _⟩
  case preemptVerifyDone => exact ⟨_, exec_preemptVerifyDone _ _⟩
  case verifyRetry => exact ⟨_, exec_verifyRetry _⟩
  case collision => exact ⟨_, exec_collision _ _⟩
  case backoffExpiry => exact ⟨_, exec_backoffExpiry _⟩
  case plcaLoss => exact ⟨_, exec_plcaLoss _⟩
  case plcaBeaconReturn => exact ⟨_, exec_plcaBeaconReturn _⟩
  case linkGood => exact ⟨_, exec_linkGood _ _⟩
  case linkLoss => exact ⟨_, exec_linkLoss _ _⟩
  case linkReturn => exact ⟨_, exec_linkReturn _⟩
  case holdExpiry => exact ⟨_, exec_holdExpiry _⟩
  case portEnable => exact ⟨_, fun s => by rw [exec_portEnable, execPortEnable, onBus, onBusFor]⟩
  case portDisable => exact ⟨_, fun s => by rw [exec_portDisable, execPortDisable, onBus, onBusFor]⟩
  case sleepReq => exact ⟨_, fun s => by rw [exec_sleepReq, execSleepReq, onBus, onBusFor]⟩
  case tc10SleepReceived => exact ⟨_, exec_tc10SleepReceived _⟩
  case tc10SleepAck => exact ⟨_, exec_tc10SleepAck _⟩
  case tc10Asleep => exact ⟨_, exec_tc10Asleep _⟩
  case tc10Wake => exact Bool.noConfusion (h : true = false)
  case wakeReq => exact ⟨_, fun s => by rw [exec_wakeReq, execWakeReq, onBus, onBusFor]⟩
  case diagStart => exact ⟨_, fun s => by rw [exec_diagStart, execDiagStart, onBus, onBusFor]⟩
  case diagDone => exact ⟨_, exec_diagDone _ _ _⟩
  case canFrameReceived => exact ⟨_, exec_canFrameReceived _ _ _ _⟩
  case canError => exact ⟨_, exec_canError _ _ _⟩
  case canTxDone => exact ⟨_, exec_canTxDone _ _⟩
  case arbLost => exact ⟨_, exec_arbLost _⟩
  case busoff => exact ⟨_, exec_busoff _⟩
  case busoffRecovered => exact ⟨_, exec_busoffRecovered _⟩
  case recover => exact ⟨_, fun s => by rw [exec_recover, execRecover, onBus, onBusFor]⟩
  case linSlotStart => exact ⟨_, exec_linSlotStart _⟩
  case schedSwitch => exact ⟨_, fun s => by rw [exec_schedSwitch, execSchedSwitch, onBus, onBusFor]⟩
  case linHeaderReceived => exact ⟨_, exec_linHeaderReceived _ _ _⟩
  case linResponseReceived => exact ⟨_, exec_linResponseReceived _ _ _ _⟩
  case noResp => exact ⟨_, exec_noResp _⟩
  case uartCharReceived => exact ⟨_, exec_uartCharReceived _ _ _ _⟩
  case uartIdle => exact ⟨_, exec_uartIdle _⟩
  case uartTxDone => exact ⟨_, exec_uartTxDone _⟩
  case pollDue => exact ⟨_, exec_pollDue _ _⟩
  case pollCaptured => exact ⟨_, exec_pollCaptured _ _⟩
  case nack => exact ⟨_, exec_nack _⟩
  case i2cTimeout => exact ⟨_, exec_i2cTimeout _⟩
  case busWriteStart => exact ⟨_, exec_busWriteStart _⟩
  case busWriteDone => exact ⟨_, exec_busWriteDone _⟩
  case gpiSample => exact Bool.noConfusion (h : true = false)
  case lookup => exact ⟨_, exec_lookup _⟩
  case lookupPartB => exact ⟨_, exec_lookupPartB _⟩
  case sfUnblock => exact ⟨_, fun s => by rw [exec_sfUnblock, execSfUnblock, onBus, onBusFor]⟩
  case redLatchClear => exact ⟨_, fun s => by rw [exec_redLatchClear, execRedLatchClear, onBus, onBusFor]⟩
  case shadowWrite => exact ⟨_, exec_shadowWrite _⟩
  case dualWrite => exact ⟨_, exec_dualWrite _⟩
  case commit => exact ⟨_, fun s => by rw [exec_commit, execCommit, onBus, onBusFor]⟩
  case commitSwap => exact ⟨_, exec_commitSwap⟩
  case resyncCopy => exact ⟨_, exec_resyncCopy _⟩
  case resyncDone => exact ⟨_, exec_resyncDone⟩
  case matchRound => exact ⟨_, exec_matchRound⟩
  case expressGrant => exact ⟨_, exec_expressGrant⟩
  case gclChange => exact ⟨_, fun s => by rw [exec_gclChange, execGclChange, onBus, onBusFor]⟩
  case gclChangeTime => exact ⟨_, exec_gclChangeTime _⟩
  case gclEntryEnd => exact ⟨_, exec_gclEntryEnd _⟩
  case lifetimeExpiry => exact ⟨_, exec_lifetimeExpiry _ _⟩
  case egressHandOn => exact ⟨_, exec_egressHandOn _⟩
  case memberDelivered => exact ⟨_, exec_memberDelivered _ _⟩
  case reseqTimeout => exact ⟨_, exec_reseqTimeout _ _⟩
  case admission => exact ⟨_, exec_admission⟩
  case admitLifetime => exact ⟨_, exec_admitLifetime _⟩
  case spill => exact ⟨_, exec_spill⟩
  case prefetch => exact ⟨_, exec_prefetch⟩
  case memFault => exact ⟨_, exec_memFault _ _⟩
  case xmTraining => exact ⟨_, exec_xmTraining⟩
  case xmTrainingDone => exact ⟨_, exec_xmTrainingDone _⟩
  case xmRetrain => exact ⟨_, exec_xmRetrain⟩
  case xmRetrainStart => exact ⟨_, fun s => by rw [exec_xmRetrainStart, execXmRetrainStart, onBus, onBusFor]⟩
  case xmRetrainDone => exact ⟨_, exec_xmRetrainDone _⟩
  case engineTake => exact ⟨_, exec_engineTake _⟩
  case runCommit => exact ⟨_, exec_runCommit _⟩
  case speHwFault => exact ⟨_, exec_speHwFault _⟩
  case wdogExpired => exact ⟨_, exec_wdogExpired _⟩
  case selfTestDone => exact ⟨_, exec_selfTestDone _ _⟩
  case selfTestRotation => exact ⟨_, exec_selfTestRotation⟩
  case engReturn => exact ⟨_, fun s => by rw [exec_engReturn, execEngReturn, onBus, onBusFor]⟩
  case engRetire => exact ⟨_, fun s => by rw [exec_engRetire, execEngRetire, onBus, onBusFor]⟩
  case creditRefill => exact ⟨_, exec_creditRefill⟩
  case tsWrite => exact ⟨_, fun s => by rw [exec_tsWrite, execTsWrite, onBus, onBusFor]⟩
  case tsWriteApply => exact ⟨_, exec_tsWriteApply⟩
  case runCancel => exact ⟨_, exec_runCancel _⟩
  case nop => exact Bool.noConfusion (h : true = false)
  case mov => exact Bool.noConfusion (h : true = false)
  case ldi => exact Bool.noConfusion (h : true = false)
  case tag => exact Bool.noConfusion (h : true = false)
  case ld => exact Bool.noConfusion (h : true = false)
  case st => exact Bool.noConfusion (h : true = false)
  case ldb => exact Bool.noConfusion (h : true = false)
  case stb => exact Bool.noConfusion (h : true = false)
  case lda => exact Bool.noConfusion (h : true = false)
  case adda => exact Bool.noConfusion (h : true = false)
  case mova => exact Bool.noConfusion (h : true = false)
  case movw => exact Bool.noConfusion (h : true = false)
  case add => exact Bool.noConfusion (h : true = false)
  case adc => exact Bool.noConfusion (h : true = false)
  case sub => exact Bool.noConfusion (h : true = false)
  case sbc => exact Bool.noConfusion (h : true = false)
  case and => exact Bool.noConfusion (h : true = false)
  case or => exact Bool.noConfusion (h : true = false)
  case xor => exact Bool.noConfusion (h : true = false)
  case not => exact Bool.noConfusion (h : true = false)
  case addi => exact Bool.noConfusion (h : true = false)
  case subi => exact Bool.noConfusion (h : true = false)
  case andi => exact Bool.noConfusion (h : true = false)
  case ori => exact Bool.noConfusion (h : true = false)
  case xori => exact Bool.noConfusion (h : true = false)
  case cmp => exact Bool.noConfusion (h : true = false)
  case cmpi => exact Bool.noConfusion (h : true = false)
  case shl => exact Bool.noConfusion (h : true = false)
  case shr => exact Bool.noConfusion (h : true = false)
  case sar => exact Bool.noConfusion (h : true = false)
  case mul => exact Bool.noConfusion (h : true = false)
  case ext => exact Bool.noConfusion (h : true = false)
  case ins => exact Bool.noConfusion (h : true = false)
  case br => exact Bool.noConfusion (h : true = false)
  case btag => exact Bool.noConfusion (h : true = false)
  case dbnz => exact Bool.noConfusion (h : true = false)
  case endProg => exact Bool.noConfusion (h : true = false)
  case hdr => exact Bool.noConfusion (h : true = false)
  case emit => exact Bool.noConfusion (h : true = false)
  case sld => exact Bool.noConfusion (h : true = false)
  case sst => exact Bool.noConfusion (h : true = false)
  case time => exact Bool.noConfusion (h : true = false)
  case cut => exact ⟨_, exec_cut⟩
  case slotVloWrite => exact ⟨_, fun s => by rw [exec_slotVloWrite, execSlotVloWrite, onBus, onBusFor]⟩
  case slotVhiWrite => exact ⟨_, fun s => by rw [exec_slotVhiWrite, execSlotVhiWrite, onBus, onBusFor]⟩
  case stale => exact ⟨_, exec_stale _⟩
  case firingDue => exact ⟨_, exec_firingDue _⟩
  case changeCheck => exact ⟨_, exec_changeCheck _⟩
  case firingStart => exact ⟨_, exec_firingStart⟩
  case acfMessage => exact ⟨_, exec_acfMessage _⟩
  case acfHoldExpiry => exact ⟨_, exec_acfHoldExpiry _⟩
  case snapshot => exact ⟨_, fun s => by rw [exec_snapshot, execSnapshot, onBus, onBusFor]⟩
  case rateApply => exact ⟨_, exec_rateApply _⟩
  case syncLost => exact ⟨_, exec_syncLost _⟩
  case domainStep => exact ⟨_, fun s => by rw [exec_domainStep, execDomainStep, onBus, onBusFor]⟩
  case domainStepApply => exact ⟨_, exec_domainStepApply _⟩
  case eventInput => exact ⟨_, exec_eventInput _ _ _⟩
  case tsoRise => exact ⟨_, exec_tsoRise _⟩
  case tsoFall => exact ⟨_, exec_tsoFall _⟩
  case timeExchange => exact ⟨_, exec_timeExchange _⟩
  case boardLockLost => exact ⟨_, exec_boardLockLost⟩
  case boardStepRetry => exact ⟨_, exec_boardStepRetry⟩
  case domRelayApply => exact ⟨_, exec_domRelayApply _⟩
  case dbTail => exact ⟨_, fun s => by rw [exec_dbTail, execDbTail, onBus, onBusFor]⟩
  case dbCqHead => exact ⟨_, fun s => by rw [exec_dbCqHead, execDbCqHead, onBus, onBusFor]⟩
  case descriptorFetch => exact ⟨_, exec_descriptorFetch _ _ _⟩
  case dmaReadDone => exact ⟨_, exec_dmaReadDone _ _ _⟩
  case dmaReadError => exact ⟨_, exec_dmaReadError _ _⟩
  case rxCompletion => exact ⟨_, exec_rxCompletion _ _⟩
  case holdoffExpiry => exact ⟨_, exec_holdoffExpiry _ _⟩
  case hostHandOn => exact ⟨_, exec_hostHandOn⟩
  case queueOff => exact ⟨_, fun s => by rw [exec_queueOff, execQueueOff, onBus, onBusFor]⟩
  case queueDma => exact ⟨_, fun s => by rw [exec_queueDma, execQueueDma, onBus, onBusFor]⟩
  case queueWindow => exact ⟨_, fun s => by rw [exec_queueWindow, execQueueWindow, onBus, onBusFor]⟩
  case queueStopped => exact ⟨_, exec_queueStopped _ _⟩
  case windowFlush => exact ⟨_, fun s => by rw [exec_windowFlush, execWindowFlush, onBus, onBusFor]⟩
  case pushHoldTimeout => exact ⟨_, exec_pushHoldTimeout⟩
  case lhpTimeout => exact ⟨_, exec_lhpTimeout⟩
  case busMasterEnable => exact ⟨_, exec_busMasterEnable _⟩
  case functionLevelReset => exact ⟨_, exec_functionLevelReset _⟩
  case pcieLinkDown => exact ⟨_, exec_pcieLinkDown⟩
  case create => exact ⟨_, fun s => by rw [exec_create, execCreate, onBus, onBusFor]⟩
  case destroy => exact ⟨_, fun s => by rw [exec_destroy, execDestroy, onBus, onBusFor]⟩
  case setShare => exact ⟨_, fun s => by rw [exec_setShare, execSetShare, onBus, onBusFor]⟩
  case reset => exact ⟨_, fun s => by rw [exec_reset, execReset, onBus, onBusFor]⟩
  case resetDone => exact ⟨_, exec_resetDone _⟩
  case freeze => exact ⟨_, fun s => by rw [exec_freeze, execFreeze, onBus, onBusFor]⟩
  case frozen => exact ⟨_, exec_frozen _⟩
  case freezeTimeout => exact ⟨_, exec_freezeTimeout _⟩
  case thaw => exact ⟨_, fun s => by rw [exec_thaw, execThaw, onBus, onBusFor]⟩
  case save => exact ⟨_, fun s => by rw [exec_save, execSave, onBus, onBusFor]⟩
  case restore => exact ⟨_, fun s => by rw [exec_restore, execRestore, onBus, onBusFor]⟩
  case imgDone => exact ⟨_, exec_imgDone _⟩
  case copy => exact ⟨_, fun s => by rw [exec_copy, execCopy, onBus, onBusFor]⟩
  case copyDone => exact ⟨_, exec_copyDone _ _ _⟩
  case imgData => exact ⟨_, fun s => by rw [exec_imgData, execImgData, onBusFor]⟩
  case linkTraining => exact ⟨_, exec_linkTraining _⟩
  case stayLinkUp => exact ⟨_, exec_stayLinkUp _ _ _⟩
  case ident => exact ⟨_, exec_ident _ _ _ _⟩
  case identRetry => exact ⟨_, exec_identRetry _⟩
  case creditInit => exact ⟨_, exec_creditInit _ _ _ _⟩
  case flitReceive => exact ⟨_, exec_flitReceive _ _⟩
  case ack => exact ⟨_, exec_ack _ _⟩
  case nak => exact ⟨_, exec_nak _ _⟩
  case ackTimer => exact ⟨_, exec_ackTimer _⟩
  case timeReq => exact ⟨_, exec_timeReq _ _ _⟩
  case timeResp => exact ⟨_, exec_timeResp _ _ _ _⟩
  case domRelay => exact ⟨_, exec_domRelay _ _⟩
  case laneStat => exact ⟨_, exec_laneStat _ _⟩
  case staySentence => exact ⟨_, exec_staySentence _⟩
  case stayForward => exact ⟨_, exec_stayForward _⟩
  case remoteAccess => exact ⟨_, exec_remoteAccess _ _⟩
  case remoteRequest => exact ⟨_, exec_remoteRequest _ _⟩
  case remoteCompletion => exact ⟨_, exec_remoteCompletion _ _ _⟩
  case remoteTimeout => exact ⟨_, exec_remoteTimeout _⟩
  case atomicop => exact ⟨_, exec_atomicop _ _ _ _⟩
  case laneFail => exact ⟨_, exec_laneFail _ _⟩
  case laneRetrain => exact ⟨_, exec_laneRetrain _⟩
  case laneRetrainStart => exact ⟨_, fun s => by rw [exec_laneRetrainStart, execLaneRetrainStart, onBus, onBusFor]⟩
  case laneRejoin => exact ⟨_, exec_laneRejoin _⟩
  case stayLinkFail => exact ⟨_, exec_stayLinkFail _⟩
  case requestFull => exact ⟨_, fun s => by rw [exec_requestFull, execRequestFull, onBus, onBusFor]⟩
  case requestReefed => exact ⟨_, fun s => by rw [exec_requestReefed, execRequestReefed, onBus, onBusFor]⟩
  case requestFurled => exact ⟨_, fun s => by rw [exec_requestFurled, execRequestFurled, onBus, onBusFor]⟩
  case requestStruck => exact ⟨_, fun s => by rw [exec_requestStruck, execRequestStruck, onBus, onBusFor]⟩
  case entryQuiesced => exact ⟨_, exec_entryQuiesced⟩
  case drainExpiry => exact ⟨_, exec_drainExpiry⟩
  case wakeEvent => exact Bool.noConfusion (h : true = false)
  case wakeTimer => exact Bool.noConfusion (h : true = false)
  case wakeRunStart => exact Bool.noConfusion (h : true = false)
  case wakeRunLimit => exact Bool.noConfusion (h : true = false)
  case pllRelock => exact Bool.noConfusion (h : true = false)
  case powerOnReset => exact Bool.noConfusion (h : true = false)
  case resetN => exact Bool.noConfusion (h : true = false)
  case resetNGlitch => exact Bool.noConfusion (h : true = false)
  case railsReady => exact Bool.noConfusion (h : true = false)
  case railWaitExpiry => exact Bool.noConfusion (h : true = false)
  case pllLock => exact Bool.noConfusion (h : true = false)
  case settingsReload => exact ⟨_, exec_settingsReload⟩
  case fastStart => exact ⟨_, exec_fastStart⟩
  case forwarding => exact ⟨_, exec_forwarding⟩
  case mastheadStart => exact ⟨_, exec_mastheadStart⟩
  case softReset => exact ⟨_, fun s => by rw [exec_softReset, execSoftReset, onBus, onBusFor]⟩
  case watchdogReset => exact ⟨_, exec_watchdogReset⟩
  case kick => exact ⟨_, fun s => by rw [exec_kick, execKick, onBus, onBusFor]⟩
  case stayReset => exact ⟨_, exec_stayReset⟩
  case resetComplete => exact ⟨_, exec_resetComplete⟩
  case mhRestart => exact ⟨_, exec_mhRestart⟩
  case settingsCommit => exact ⟨_, fun s => by rw [exec_settingsCommit, execSettingsCommit, onBus, onBusFor]⟩
  case settingsCommitDone => exact ⟨_, exec_settingsCommitDone⟩
  case eraseOld => exact ⟨_, fun s => by rw [exec_eraseOld, execEraseOld, onBus, onBusFor]⟩
  case mramScrub => exact ⟨_, exec_mramScrub⟩
  case openSession => exact ⟨_, fun s => by rw [exec_openSession, execOpenSession, onBus, onBusFor]⟩
  case verify => exact ⟨_, fun s => by rw [exec_verify, execVerify, onBus, onBusFor]⟩
  case verifyDone => exact ⟨_, exec_verifyDone⟩
  case write => exact ⟨_, fun s => by rw [exec_write, execWrite, onBus, onBusFor]⟩
  case close => exact ⟨_, fun s => by rw [exec_close, execClose, onBus, onBusFor]⟩
  case abort => exact ⟨_, fun s => by rw [exec_abort, execAbort, onBus, onBusFor]⟩
  case updData => exact ⟨_, fun s => by rw [exec_updData, execUpdData, onBus, onBusFor]⟩
  case updData16 => exact ⟨_, fun s => by rw [exec_updData16, execUpdData16, onBus, onBusFor]⟩
  case sessionAbandon => exact ⟨_, exec_sessionAbandon⟩
  case downgradePermit => exact ⟨_, fun s => by rw [exec_downgradePermit, execDowngradePermit, onBus, onBusFor]⟩
  case rigCommitRetry => exact ⟨_, exec_rigCommitRetry⟩
  case updCommandRelay => exact ⟨_, exec_updCommandRelay _⟩
  case updDataRelay => exact ⟨_, exec_updDataRelay _ _⟩
  case updStatusRelay => exact ⟨_, exec_updStatusRelay _ _⟩
  case freezeWrite => exact Bool.noConfusion (h : true = false)
  case faultAck => exact ⟨_, fun s => by rw [exec_faultAck, execFaultAck, onBus, onBusFor]⟩
  case hostSafe => exact ⟨_, fun s => by rw [exec_hostSafe, execHostSafe, onBus, onBusFor]⟩
  case tempSample => exact ⟨_, exec_tempSample _⟩
  case patrolScrub => exact ⟨_, exec_patrolScrub⟩
  case clockLoss => exact ⟨_, exec_clockLoss⟩
  case supplyFault => exact Bool.noConfusion (h : true = false)
  case parity => exact ⟨_, exec_parity _⟩
  case registerRead => exact ⟨_, exec_registerRead _⟩
  case pcieLinkUp => exact ⟨_, exec_pcieLinkUp _ _⟩
  case d3hotTransition => exact ⟨_, exec_d3hotTransition _ _⟩
  case spillDone => exact ⟨_, exec_spillDone⟩
  case prefetchDone => exact ⟨_, exec_prefetchDone⟩
  case mramScrubDone => exact ⟨_, exec_mramScrubDone _ _⟩
  case scrubChunkDone => exact ⟨_, exec_scrubChunkDone _ _⟩
  case laneRetrainFailed => exact ⟨_, exec_laneRetrainFailed _⟩
  case vddAonLoss => exact Bool.noConfusion (h : true = false)
  case canBusJoin => exact ⟨_, exec_canBusJoin _⟩

/-- A command of the always-on domain, but for the resets from outside. -/
theorem exec_alwaysOn (i : Instr) (h : Instr.alwaysOn i = true) (hp : i ≠ .powerOnReset) (hr : i ≠ .resetN) :
    ∃ f, ∀ s, exec i s = onAon f s := by
  cases i
  case registerWrite => exact Bool.noConfusion (h : false = true)
  case clearingRead => exact Bool.noConfusion (h : false = true)
  case counterSnapshotRead => exact Bool.noConfusion (h : false = true)
  case pop => exact Bool.noConfusion (h : false = true)
  case push => exact Bool.noConfusion (h : false = true)
  case tagAliasPush => exact Bool.noConfusion (h : false = true)
  case eventInject => exact Bool.noConfusion (h : false = true)
  case pgEvtClear => exact Bool.noConfusion (h : false = true)
  case take => exact Bool.noConfusion (h : false = true)
  case drop => exact Bool.noConfusion (h : false = true)
  case pgLockWrite => exact Bool.noConfusion (h : false = true)
  case clockStop => exact Bool.noConfusion (h : false = true)
  case domainRestart => exact Bool.noConfusion (h : false = true)
  case frameHeadReceived => exact Bool.noConfusion (h : false = true)
  case frameEndReceived => exact Bool.noConfusion (h : false = true)
  case pauseTimerExpiry => exact Bool.noConfusion (h : false = true)
  case pauseRefresh => exact Bool.noConfusion (h : false = true)
  case cbRecoveryReset => exact Bool.noConfusion (h : false = true)
  case egressFrameStart => exact Bool.noConfusion (h : false = true)
  case frameTxEnd => exact Bool.noConfusion (h : false = true)
  case preemptVerifyDone => exact Bool.noConfusion (h : false = true)
  case verifyRetry => exact Bool.noConfusion (h : false = true)
  case collision => exact Bool.noConfusion (h : false = true)
  case backoffExpiry => exact Bool.noConfusion (h : false = true)
  case plcaLoss => exact Bool.noConfusion (h : false = true)
  case plcaBeaconReturn => exact Bool.noConfusion (h : false = true)
  case linkGood => exact Bool.noConfusion (h : false = true)
  case linkLoss => exact Bool.noConfusion (h : false = true)
  case linkReturn => exact Bool.noConfusion (h : false = true)
  case holdExpiry => exact Bool.noConfusion (h : false = true)
  case portEnable => exact Bool.noConfusion (h : false = true)
  case portDisable => exact Bool.noConfusion (h : false = true)
  case sleepReq => exact Bool.noConfusion (h : false = true)
  case tc10SleepReceived => exact Bool.noConfusion (h : false = true)
  case tc10SleepAck => exact Bool.noConfusion (h : false = true)
  case tc10Asleep => exact Bool.noConfusion (h : false = true)
  case tc10Wake => exact ⟨_, exec_tc10Wake _⟩
  case wakeReq => exact Bool.noConfusion (h : false = true)
  case diagStart => exact Bool.noConfusion (h : false = true)
  case diagDone => exact Bool.noConfusion (h : false = true)
  case canFrameReceived => exact Bool.noConfusion (h : false = true)
  case canError => exact Bool.noConfusion (h : false = true)
  case canTxDone => exact Bool.noConfusion (h : false = true)
  case arbLost => exact Bool.noConfusion (h : false = true)
  case busoff => exact Bool.noConfusion (h : false = true)
  case busoffRecovered => exact Bool.noConfusion (h : false = true)
  case recover => exact Bool.noConfusion (h : false = true)
  case linSlotStart => exact Bool.noConfusion (h : false = true)
  case schedSwitch => exact Bool.noConfusion (h : false = true)
  case linHeaderReceived => exact Bool.noConfusion (h : false = true)
  case linResponseReceived => exact Bool.noConfusion (h : false = true)
  case noResp => exact Bool.noConfusion (h : false = true)
  case uartCharReceived => exact Bool.noConfusion (h : false = true)
  case uartIdle => exact Bool.noConfusion (h : false = true)
  case uartTxDone => exact Bool.noConfusion (h : false = true)
  case pollDue => exact Bool.noConfusion (h : false = true)
  case pollCaptured => exact Bool.noConfusion (h : false = true)
  case nack => exact Bool.noConfusion (h : false = true)
  case i2cTimeout => exact Bool.noConfusion (h : false = true)
  case busWriteStart => exact Bool.noConfusion (h : false = true)
  case busWriteDone => exact Bool.noConfusion (h : false = true)
  case gpiSample => exact ⟨_, exec_gpiSample _⟩
  case lookup => exact Bool.noConfusion (h : false = true)
  case lookupPartB => exact Bool.noConfusion (h : false = true)
  case sfUnblock => exact Bool.noConfusion (h : false = true)
  case redLatchClear => exact Bool.noConfusion (h : false = true)
  case shadowWrite => exact Bool.noConfusion (h : false = true)
  case dualWrite => exact Bool.noConfusion (h : false = true)
  case commit => exact Bool.noConfusion (h : false = true)
  case commitSwap => exact Bool.noConfusion (h : false = true)
  case resyncCopy => exact Bool.noConfusion (h : false = true)
  case resyncDone => exact Bool.noConfusion (h : false = true)
  case matchRound => exact Bool.noConfusion (h : false = true)
  case expressGrant => exact Bool.noConfusion (h : false = true)
  case gclChange => exact Bool.noConfusion (h : false = true)
  case gclChangeTime => exact Bool.noConfusion (h : false = true)
  case gclEntryEnd => exact Bool.noConfusion (h : false = true)
  case lifetimeExpiry => exact Bool.noConfusion (h : false = true)
  case egressHandOn => exact Bool.noConfusion (h : false = true)
  case memberDelivered => exact Bool.noConfusion (h : false = true)
  case reseqTimeout => exact Bool.noConfusion (h : false = true)
  case admission => exact Bool.noConfusion (h : false = true)
  case admitLifetime => exact Bool.noConfusion (h : false = true)
  case spill => exact Bool.noConfusion (h : false = true)
  case prefetch => exact Bool.noConfusion (h : false = true)
  case memFault => exact Bool.noConfusion (h : false = true)
  case xmTraining => exact Bool.noConfusion (h : false = true)
  case xmTrainingDone => exact Bool.noConfusion (h : false = true)
  case xmRetrain => exact Bool.noConfusion (h : false = true)
  case xmRetrainStart => exact Bool.noConfusion (h : false = true)
  case xmRetrainDone => exact Bool.noConfusion (h : false = true)
  case engineTake => exact Bool.noConfusion (h : false = true)
  case runCommit => exact Bool.noConfusion (h : false = true)
  case speHwFault => exact Bool.noConfusion (h : false = true)
  case wdogExpired => exact Bool.noConfusion (h : false = true)
  case selfTestDone => exact Bool.noConfusion (h : false = true)
  case selfTestRotation => exact Bool.noConfusion (h : false = true)
  case engReturn => exact Bool.noConfusion (h : false = true)
  case engRetire => exact Bool.noConfusion (h : false = true)
  case creditRefill => exact Bool.noConfusion (h : false = true)
  case tsWrite => exact Bool.noConfusion (h : false = true)
  case tsWriteApply => exact Bool.noConfusion (h : false = true)
  case runCancel => exact Bool.noConfusion (h : false = true)
  case nop => exact ⟨_, exec_nop _⟩
  case mov => exact ⟨_, exec_mov _ _ _⟩
  case ldi => exact ⟨_, exec_ldi _ _ _ _⟩
  case tag => exact ⟨_, exec_tag _ _ _ _⟩
  case ld => exact ⟨_, exec_ld _ _ _ _ _⟩
  case st => exact ⟨_, exec_st _ _ _ _ _⟩
  case ldb => exact ⟨_, exec_ldb _ _ _ _ _⟩
  case stb => exact ⟨_, exec_stb _ _ _ _ _⟩
  case lda => exact ⟨_, exec_lda _ _ _⟩
  case adda => exact ⟨_, exec_adda _ _ _⟩
  case mova => exact ⟨_, exec_mova _ _ _⟩
  case movw => exact ⟨_, exec_movw _ _ _⟩
  case add => exact ⟨_, exec_add _ _ _ _⟩
  case adc => exact ⟨_, exec_adc _ _ _ _⟩
  case sub => exact ⟨_, exec_sub _ _ _ _⟩
  case sbc => exact ⟨_, exec_sbc _ _ _ _⟩
  case and => exact ⟨_, exec_and _ _ _ _⟩
  case or => exact ⟨_, exec_or _ _ _ _⟩
  case xor => exact ⟨_, exec_xor _ _ _ _⟩
  case not => exact ⟨_, exec_not _ _ _⟩
  case addi => exact ⟨_, exec_addi _ _ _ _⟩
  case subi => exact ⟨_, exec_subi _ _ _ _⟩
  case andi => exact ⟨_, exec_andi _ _ _ _⟩
  case ori => exact ⟨_, exec_ori _ _ _ _⟩
  case xori => exact ⟨_, exec_xori _ _ _ _⟩
  case cmp => exact ⟨_, exec_cmp _ _ _⟩
  case cmpi => exact ⟨_, exec_cmpi _ _ _⟩
  case shl => exact ⟨_, exec_shl _ _ _ _⟩
  case shr => exact ⟨_, exec_shr _ _ _ _⟩
  case sar => exact ⟨_, exec_sar _ _ _ _⟩
  case mul => exact ⟨_, exec_mul _ _ _ _⟩
  case ext => exact ⟨_, exec_ext _ _ _ _ _⟩
  case ins => exact ⟨_, exec_ins _ _ _ _ _⟩
  case br => exact ⟨_, exec_br _ _ _⟩
  case btag => exact ⟨_, exec_btag _ _ _ _⟩
  case dbnz => exact ⟨_, exec_dbnz _ _ _⟩
  case endProg => exact ⟨_, exec_endProg _⟩
  case hdr => exact ⟨_, exec_hdr _ _⟩
  case emit => exact ⟨_, exec_emit _ _ _⟩
  case sld => exact ⟨_, exec_sld _ _ _⟩
  case sst => exact ⟨_, exec_sst _ _ _⟩
  case time => exact ⟨_, exec_time _ _⟩
  case cut => exact Bool.noConfusion (h : false = true)
  case slotVloWrite => exact Bool.noConfusion (h : false = true)
  case slotVhiWrite => exact Bool.noConfusion (h : false = true)
  case stale => exact Bool.noConfusion (h : false = true)
  case firingDue => exact Bool.noConfusion (h : false = true)
  case changeCheck => exact Bool.noConfusion (h : false = true)
  case firingStart => exact Bool.noConfusion (h : false = true)
  case acfMessage => exact Bool.noConfusion (h : false = true)
  case acfHoldExpiry => exact Bool.noConfusion (h : false = true)
  case snapshot => exact Bool.noConfusion (h : false = true)
  case rateApply => exact Bool.noConfusion (h : false = true)
  case syncLost => exact Bool.noConfusion (h : false = true)
  case domainStep => exact Bool.noConfusion (h : false = true)
  case domainStepApply => exact Bool.noConfusion (h : false = true)
  case eventInput => exact Bool.noConfusion (h : false = true)
  case tsoRise => exact Bool.noConfusion (h : false = true)
  case tsoFall => exact Bool.noConfusion (h : false = true)
  case timeExchange => exact Bool.noConfusion (h : false = true)
  case boardLockLost => exact Bool.noConfusion (h : false = true)
  case boardStepRetry => exact Bool.noConfusion (h : false = true)
  case domRelayApply => exact Bool.noConfusion (h : false = true)
  case dbTail => exact Bool.noConfusion (h : false = true)
  case dbCqHead => exact Bool.noConfusion (h : false = true)
  case descriptorFetch => exact Bool.noConfusion (h : false = true)
  case dmaReadDone => exact Bool.noConfusion (h : false = true)
  case dmaReadError => exact Bool.noConfusion (h : false = true)
  case rxCompletion => exact Bool.noConfusion (h : false = true)
  case holdoffExpiry => exact Bool.noConfusion (h : false = true)
  case hostHandOn => exact Bool.noConfusion (h : false = true)
  case queueOff => exact Bool.noConfusion (h : false = true)
  case queueDma => exact Bool.noConfusion (h : false = true)
  case queueWindow => exact Bool.noConfusion (h : false = true)
  case queueStopped => exact Bool.noConfusion (h : false = true)
  case windowFlush => exact Bool.noConfusion (h : false = true)
  case pushHoldTimeout => exact Bool.noConfusion (h : false = true)
  case lhpTimeout => exact Bool.noConfusion (h : false = true)
  case busMasterEnable => exact Bool.noConfusion (h : false = true)
  case functionLevelReset => exact Bool.noConfusion (h : false = true)
  case pcieLinkDown => exact Bool.noConfusion (h : false = true)
  case create => exact Bool.noConfusion (h : false = true)
  case destroy => exact Bool.noConfusion (h : false = true)
  case setShare => exact Bool.noConfusion (h : false = true)
  case reset => exact Bool.noConfusion (h : false = true)
  case resetDone => exact Bool.noConfusion (h : false = true)
  case freeze => exact Bool.noConfusion (h : false = true)
  case frozen => exact Bool.noConfusion (h : false = true)
  case freezeTimeout => exact Bool.noConfusion (h : false = true)
  case thaw => exact Bool.noConfusion (h : false = true)
  case save => exact Bool.noConfusion (h : false = true)
  case restore => exact Bool.noConfusion (h : false = true)
  case imgDone => exact Bool.noConfusion (h : false = true)
  case copy => exact Bool.noConfusion (h : false = true)
  case copyDone => exact Bool.noConfusion (h : false = true)
  case imgData => exact Bool.noConfusion (h : false = true)
  case linkTraining => exact Bool.noConfusion (h : false = true)
  case stayLinkUp => exact Bool.noConfusion (h : false = true)
  case ident => exact Bool.noConfusion (h : false = true)
  case identRetry => exact Bool.noConfusion (h : false = true)
  case creditInit => exact Bool.noConfusion (h : false = true)
  case flitReceive => exact Bool.noConfusion (h : false = true)
  case ack => exact Bool.noConfusion (h : false = true)
  case nak => exact Bool.noConfusion (h : false = true)
  case ackTimer => exact Bool.noConfusion (h : false = true)
  case timeReq => exact Bool.noConfusion (h : false = true)
  case timeResp => exact Bool.noConfusion (h : false = true)
  case domRelay => exact Bool.noConfusion (h : false = true)
  case laneStat => exact Bool.noConfusion (h : false = true)
  case staySentence => exact Bool.noConfusion (h : false = true)
  case stayForward => exact Bool.noConfusion (h : false = true)
  case remoteAccess => exact Bool.noConfusion (h : false = true)
  case remoteRequest => exact Bool.noConfusion (h : false = true)
  case remoteCompletion => exact Bool.noConfusion (h : false = true)
  case remoteTimeout => exact Bool.noConfusion (h : false = true)
  case atomicop => exact Bool.noConfusion (h : false = true)
  case laneFail => exact Bool.noConfusion (h : false = true)
  case laneRetrain => exact Bool.noConfusion (h : false = true)
  case laneRetrainStart => exact Bool.noConfusion (h : false = true)
  case laneRejoin => exact Bool.noConfusion (h : false = true)
  case stayLinkFail => exact Bool.noConfusion (h : false = true)
  case requestFull => exact Bool.noConfusion (h : false = true)
  case requestReefed => exact Bool.noConfusion (h : false = true)
  case requestFurled => exact Bool.noConfusion (h : false = true)
  case requestStruck => exact Bool.noConfusion (h : false = true)
  case entryQuiesced => exact Bool.noConfusion (h : false = true)
  case drainExpiry => exact Bool.noConfusion (h : false = true)
  case wakeEvent => exact ⟨_, exec_wakeEvent _ _ _ _⟩
  case wakeTimer => exact ⟨_, exec_wakeTimer⟩
  case wakeRunStart => exact ⟨_, exec_wakeRunStart⟩
  case wakeRunLimit => exact ⟨_, exec_wakeRunLimit⟩
  case pllRelock => exact ⟨_, exec_pllRelock⟩
  case powerOnReset => exact absurd rfl hp
  case resetN => exact absurd rfl hr
  case resetNGlitch => exact ⟨_, exec_resetNGlitch⟩
  case railsReady => exact ⟨_, exec_railsReady _ _⟩
  case railWaitExpiry => exact ⟨_, exec_railWaitExpiry⟩
  case pllLock => exact ⟨_, exec_pllLock⟩
  case settingsReload => exact Bool.noConfusion (h : false = true)
  case fastStart => exact Bool.noConfusion (h : false = true)
  case forwarding => exact Bool.noConfusion (h : false = true)
  case mastheadStart => exact Bool.noConfusion (h : false = true)
  case softReset => exact Bool.noConfusion (h : false = true)
  case watchdogReset => exact Bool.noConfusion (h : false = true)
  case kick => exact Bool.noConfusion (h : false = true)
  case stayReset => exact Bool.noConfusion (h : false = true)
  case resetComplete => exact Bool.noConfusion (h : false = true)
  case mhRestart => exact Bool.noConfusion (h : false = true)
  case settingsCommit => exact Bool.noConfusion (h : false = true)
  case settingsCommitDone => exact Bool.noConfusion (h : false = true)
  case eraseOld => exact Bool.noConfusion (h : false = true)
  case mramScrub => exact Bool.noConfusion (h : false = true)
  case openSession => exact Bool.noConfusion (h : false = true)
  case verify => exact Bool.noConfusion (h : false = true)
  case verifyDone => exact Bool.noConfusion (h : false = true)
  case write => exact Bool.noConfusion (h : false = true)
  case close => exact Bool.noConfusion (h : false = true)
  case abort => exact Bool.noConfusion (h : false = true)
  case updData => exact Bool.noConfusion (h : false = true)
  case updData16 => exact Bool.noConfusion (h : false = true)
  case sessionAbandon => exact Bool.noConfusion (h : false = true)
  case downgradePermit => exact Bool.noConfusion (h : false = true)
  case rigCommitRetry => exact Bool.noConfusion (h : false = true)
  case updCommandRelay => exact Bool.noConfusion (h : false = true)
  case updDataRelay => exact Bool.noConfusion (h : false = true)
  case updStatusRelay => exact Bool.noConfusion (h : false = true)
  case freezeWrite => exact ⟨_, exec_freezeWrite⟩
  case faultAck => exact Bool.noConfusion (h : false = true)
  case hostSafe => exact Bool.noConfusion (h : false = true)
  case tempSample => exact Bool.noConfusion (h : false = true)
  case patrolScrub => exact Bool.noConfusion (h : false = true)
  case clockLoss => exact Bool.noConfusion (h : false = true)
  case supplyFault => exact ⟨_, exec_supplyFault _⟩
  case parity => exact Bool.noConfusion (h : false = true)
  case registerRead => exact Bool.noConfusion (h : false = true)
  case pcieLinkUp => exact Bool.noConfusion (h : false = true)
  case d3hotTransition => exact Bool.noConfusion (h : false = true)
  case spillDone => exact Bool.noConfusion (h : false = true)
  case prefetchDone => exact Bool.noConfusion (h : false = true)
  case mramScrubDone => exact Bool.noConfusion (h : false = true)
  case scrubChunkDone => exact Bool.noConfusion (h : false = true)
  case laneRetrainFailed => exact Bool.noConfusion (h : false = true)
  case vddAonLoss => exact ⟨_, exec_vddAonLoss⟩
  case canBusJoin => exact Bool.noConfusion (h : false = true)

/-- A command of the fast domains completes while their clocks run. -/
theorem Completes.ofFast {i : Instr} {s : State} {f : Dev → Dev} (h : exec i s = onDevL f s) (hr : s.Runs) :
    Completes i s (f s.dev) := by
  rw [Completes, h, onDevL_clocked _ _ hr]

/-- A command of the always-on domain completes while it has its supply. -/
theorem Completes.ofAlwaysOn {i : Instr} {s : State} {f : Dev → Dev} (h : exec i s = onAon f s) (hr : s.Alive) :
    Completes i s (f s.dev) := by
  rw [Completes, h, onAon_alive _ _ hr]

end Sys2Proof.Machine
end

