-- ==== Sys2Proof/Laws/Memory.lean ====
section
/-! SUPPORT. Every operation on the two byte memories, the table memory and the image memory, keeps the canonical form. -/

namespace Sys2Proof.Machine

open Sys2Proof

/-- Writing table bytes keeps the canonical form. -/
theorem Dev.tabWrite_wf (d : Dev) (b : BitVec 2) (bytes : List (Nat × Byte)) (h : Memory.wf d.nrm.tab = true) :
    Memory.wf (d.tabWrite b bytes).nrm.tab = true :=
  SMap.puts_wf _ (fun x : Nat × Byte => tabKey b x.1) (fun x => x.2) bytes _ h

/-- Copying a part of the table set to the other bank keeps the canonical form. -/
theorem Dev.copyPart_wf (d : Dev) (b : BitVec 2) (part : TablePart) (h : Memory.wf d.nrm.tab = true) :
    Memory.wf (d.copyPart b part).nrm.tab = true :=
  SMap.puts_wf _ (fun x : Nat × Byte => tabKey (otherBank b) (x.1 - tabKey b 0)) (fun x => x.2) _ _ (SMap.filter_wf _ _ _ h)

/-- Clearing a bank keeps the canonical form. -/
theorem Dev.clearBank_wf (d : Dev) (b : BitVec 2) (h : Memory.wf d.nrm.tab = true) :
    Memory.wf (d.clearBank b).nrm.tab = true := SMap.filter_wf _ _ _ h

/-- Writing the table blocks of a rig image keeps the canonical form. -/
theorem Dev.writeBlocks_wf (d : Dev) (b : BitVec 2) (ss : List Section) (h : Memory.wf d.nrm.tab = true) :
    Memory.wf (d.writeBlocks b ss).nrm.tab = true := by
  unfold Dev.writeBlocks
  induction ss generalizing d with
  | nil => exact h
  | cons s ss ih =>
    cases s with
    | block a data => exact ih _ (Dev.tabWrite_wf d b _ h)
    | regs _ => exact ih _ h

/-- Writing bytes of the image memory keeps the canonical form. -/
theorem putBytes_wf (m : List Host.Cell) (a : Nat) (bs : List Byte) (h : Memory.wf m = true) :
    Memory.wf (putBytes m a bs) = true := by
  induction bs generalizing m a with
  | nil => exact h
  | cons b bs ih => exact ih _ _ (SMap.put_wf _ m a b h)

theorem reset_tab_wf : Memory.wf State.reset.dev.nrm.tab = true := rfl

theorem reset_images_wf : Memory.wf State.reset.dev.insts.images = true := rfl

end Sys2Proof.Machine
end

