-- ==== Sys2Proof/Machine/Pins.lean ====
section
/-! DEFINITION. The levels of the pins: the condition that the device is in, the table of R509, and the outputs whose level follows a
state of the device: SVC_OK (R552), WAKE_OUT (R502), LIRQ_N (R435), LWAIT_N (R430) and the periodic outputs (R382). -/

namespace Sys2Proof.Machine

open Sys2Proof

/-- R509: the conditions of the table, its columns. -/
inductive PinCond where
  | unpowered
  | resetHeld
  | running
  | furled
  | struck
  | safe
  deriving DecidableEq, Repr

/-- R509: the groups of pins, its rows. -/
inductive PinGroup where
  | busTxd
  | canXlm
  | spi
  | i2c
  | serdes
  | mdi
  | pcie
  | ld
  | lwaitN
  | lirqN
  | svcOk
  | wakeOut
  | tso
  | lpddr5
  | inputs
  deriving DecidableEq, Repr

/-- R509: what a group of pins does in a condition. `follows` is the level of a rule of its own: R430, R435, R552 or R382. -/
inductive PinLevel where
  | hiZ
  | high
  | low
  | csHighElseLow
  | electricalIdle
  | noSignal
  | wakeDetect
  | readCycles
  | linkKept
  | selfRefresh
  | memoryReset
  | input
  | active
  | follows
  | idleLevel
  deriving DecidableEq, Repr

/-- R509: the table of pin states. -/
def pinLevel : PinGroup → PinCond → PinLevel
  | .inputs, .unpowered => .hiZ
  | .inputs, _ => .input
  | .svcOk, .running => .follows
  | .svcOk, _ => .low
  | _, .unpowered => .hiZ
  | .busTxd, .running => .active
  | .busTxd, _ => .high
  | .canXlm, .running => .active
  | .canXlm, _ => .low
  | .spi, .running => .active
  | .spi, _ => .csHighElseLow
  | .i2c, .running => .active
  | .i2c, _ => .hiZ
  | .serdes, .running => .active
  | .serdes, _ => .electricalIdle
  | .mdi, .running => .active
  | .mdi, .furled => .wakeDetect
  | .mdi, .struck => .wakeDetect
  | .mdi, _ => .noSignal
  | .pcie, .running => .active
  | .pcie, .safe => .linkKept
  | .pcie, _ => .electricalIdle
  | .ld, .running => .readCycles
  | .ld, .safe => .readCycles
  | .ld, _ => .hiZ
  | .lwaitN, .running => .follows
  | .lwaitN, .safe => .follows
  | .lwaitN, _ => .hiZ
  | .lirqN, .running => .follows
  | .lirqN, .safe => .follows
  | .lirqN, _ => .hiZ
  | .wakeOut, .struck => .low
  | .wakeOut, _ => .high
  | .tso, .running => .follows
  | .tso, .safe => .follows
  | .tso, .resetHeld => .low
  | .tso, _ => .idleLevel
  | .lpddr5, .resetHeld => .memoryReset
  | .lpddr5, .furled => .selfRefresh
  | .lpddr5, .struck => .low
  | .lpddr5, _ => .active

/-- R509: the condition that the device is in. Between a start and FWD no column of the table holds: after power-on reset and
RESET_N the pins stay as while it is held, in a wake as in the state that it leaves, and after another reset as in the safe
state, where they have stood silent (DESIGN CHOICE, notes/assumptions/53.md). -/
def Dev.pinCond (d : Dev) : PinCond :=
  if d.pwr.dead then .unpowered
  else match d.pwr.power with
    | .furled => .furled
    | .struck => .struck
    | .waking => if d.bootCause = 5 then .struck else .furled
    | _ =>
      if !d.pwr.silent then .running
      else if d.on 0x001 Reg.PCH_SAFE.ACTIVE || [2, 3, 4].contains d.bootCause then .safe
      else .resetHeld

/-- R509: what a group of pins does now. WAKE_OUT has risen when a wake is decided (R502). -/
def Dev.pin (d : Dev) (g : PinGroup) : PinLevel :=
  match g with
  | .wakeOut => if d.pwr.dead then .hiZ else if d.pwr.wakeOut then .high else .low
  | _ => pinLevel g d.pinCond

/-- R435: LIRQ_N, which is low while a bit is set in both HBR_LHP_IRQ and HBR_LHP_IRQ_EN; the open-drain pin is high otherwise. -/
def Dev.lirqN (d : Dev) : Bool :=
  d.pin .lirqN != .follows || Nat.land (d.rd 0x01F Reg.HBR_LHP_IRQ.PENDING) (d.rd 0x01F Reg.HBR_LHP_IRQ_EN.EN) == 0

/-- R430, R431: LWAIT_N, which is low while the device holds an LHP cycle. -/
def Dev.lwaitN (d : Dev) : Bool := d.pin .lwaitN != .follows || d.hbr.lwait.isNone

/-- R552: SVC_OK. -/
def Dev.svcPin (d : Dev) : Bool := d.pin .svcOk == .follows && d.pwr.svcOk

end Sys2Proof.Machine
end

