-- ==== Sys2Proof/Tests/Slice0.lean ====
section
/-! SUPPORT. The model's own tests: ill-formed terms that the check refuses, a state that meets the hypotheses of each
statement, the spec's worked examples and results worked out by hand. -/

namespace Sys2Proof.Machine.Tests

open Sys2Proof Sys2Proof.Machine

/-! ### Ill-formed terms are refused -/

theorem test_wf_unaligned : (Instr.registerRead ⟨.mh, 2, 0xF, 0, 0⟩).wellFormed = false := by decide
theorem test_wf_no_byte : (Instr.registerWrite ⟨.mh, 0x40, 0, 0, 0⟩).wellFormed = false := by decide
theorem test_wf_odd_lhp : (Instr.remoteAccess ⟨.lhp, 0x41, 0xF, 0, 0⟩ false).wellFormed = false := by decide
theorem test_wf_lin_response : (Instr.linResponseReceived 0 0 (List.replicate 10 0) true).wellFormed = false := by decide
theorem test_wf_flit : (Instr.flitReceive 0 ⟨0, 1, true, List.replicate 63 0, 0, 0, true, false⟩).wellFormed = false := by decide
theorem test_wf_hand_on : (Instr.egressHandOn 5).wellFormed = false := by decide
theorem test_wf_device_number : (Instr.railsReady true 3).wellFormed = false := by decide
theorem test_wf_atomic : (Instr.atomicop 0 0x1000044 (.swap 0) true).wellFormed = false := by decide
theorem test_wf_remote : (Instr.remoteRequest 0 ⟨1, 0, 0, 0xF, 0x60042, .read⟩).wellFormed = false := by decide
theorem test_wf_wide : (Instr.registerRead ⟨.mh, 0x40, 0xF, 0, 1⟩).wellFormed = false := by decide
theorem test_wf_head : (Instr.frameHeadReceived 3 0 (List.replicate 63 0)).wellFormed = false := by decide
theorem test_wf_short : (Instr.frameEndReceived 3 ⟨List.replicate 64 0, some 0⟩ .good).wellFormed = false := by decide
theorem test_wf_part : (Instr.linkLoss 3 ⟨64, 0, []⟩).wellFormed = false := by decide
theorem test_wf_can : (Instr.canFrameReceived 2 0 false ⟨0, 0, 0, 0, List.replicate 2049 0⟩).wellFormed = false := by
  simp only [Instr.wellFormed, CanFrame.wellFormed, List.length_replicate]; decide
theorem test_wf_write : (Instr.registerWrite ⟨.pcie 0, 0x40, 0xF, 0, 0⟩).wellFormed = true := by decide

/-! ### A running device -/

/-- After the start (R502). -/
def run : Dev := { Dev.reset with pwr := { Dev.reset.pwr with boot := .running, silent := false } }

theorem witness_runs : State.Runs ⟨run, []⟩ ∧ State.Alive ⟨run, []⟩ := by decide
theorem witness_queues : ∃ e, runs [Instr.lookup 0].length ⟨run, [Instr.lookup 0]⟩ = .next ⟨e, []⟩ := ⟨_, rfl⟩
theorem witness_svcTrue : State.SvcTrue ⟨run, []⟩ := by unfold State.SvcTrue; decide
theorem witness_svcFall : ({ run with pwr := { run.pwr with svcOk := true } }).svcHolds = false := by decide
theorem witness_asleep : State.Asleep Dev.reset ⟨Dev.reset, [.lookup 0]⟩ := by
  refine ⟨by decide, by decide, rfl⟩

/-! ### The register bus -/

/-- Page 0x060 locked. -/
def locked : Dev := run.wr 0x060 Reg.PG_LOCK.LOCK 1
/-- A page of the header commands. -/
def styPage : PageRef := ⟨0x060, 0⟩
/-- The token of page 0x060 held by the Masthead controller. -/
def holding : Dev := run.setMaint 0x060 ⟨some (5, viaCode .mh), none⟩

theorem witness_busFree : State.BusFree ⟨run, []⟩ := by decide
theorem witness_accesses :
    run.reaches .mh true = true ∧ run.reaches .mh false = true ∧
    run.names ⟨.mh, 0x400C00, 0xF, 0, 0⟩ (fun f => f.acc == .rc) = true ∧
    run.names ⟨.mh, 0x20C00, 0xF, 0, 0⟩ (fun f => f.acc == .rp) = true ∧
    run.names ⟨.mh, 0x08C00, 0xF, 0, 0⟩ (fun f => f.acc == .wp) = true := by decide
/-- A device whose core domain stands. -/
def stopped : Dev := { run with pwr := { run.pwr with power := .reefed, coreStopped := true } }
theorem witness_busWaits :
    stopped.sty.busQ = [] ∧ stopped.reaches .lhp true = true ∧
    (stopped.sty.busBy.isSome || stopped.stopsFor ⟨.lhp, 0x0F040, 0xF, 9, 0⟩) = true := by decide
theorem witness_places :
    run.spotOf .mh 0x400C28 = .reg 0x100 0xC28 ∧ wideAt 0x100 0xC28 = some 0xC28 ∧ accHigh ⟨.mh, 0x400C28, 0xF, 0, 0⟩ = false ∧
    (run.spotOf .mh 0x100000 matches .table ⟨true, _, _, _, _⟩) = true ∧
    (run.spotOf .mh 0x140000 matches .table ⟨false, _, _, _, _⟩) = true ∧
    run.spotOf .mh 0x1160000 = .remote 1 0x60000 := by decide
/-- The Masthead controller reaches every page of a device whose register bus is free. -/
theorem witness_reached (p : PageId) (write : Bool) : State.Reached ⟨run, []⟩ .mh p write := ⟨rfl, rfl, rfl, rfl⟩
/-- So do the manager, by a Stay link, INST_CMD of page 0x100, and a virtual function its own area and no other. -/
theorem witness_maps :
    State.Reached ⟨run, []⟩ (.stay 4) 0x100 ∧ State.Reached ⟨run, []⟩ (.pcie 3) (instPage 3) ∧ viaMaps (.pcie 3) 0x060 = false := by
  decide
theorem witness_headerWaits :
    viaMaps .mh (PageRef.id ⟨0x060, 0⟩) = true ∧ stopped.reaches .mh true = true ∧
    stopped.pageStopped (PageRef.id ⟨0x060, 0⟩) = true := by
  decide
theorem witness_tagAlias : run.reaches .lhp true = true := by decide
theorem witness_header :
    pagePresent (PageRef.id styPage) = true ∧ run.locked (PageRef.id styPage) = false ∧
    (run.wr (PageRef.id styPage) Reg.PG_MAINT.ACT 5).maintBlock (PageRef.id styPage) 5 = none ∧
    (holding.maintOf (PageRef.id styPage)).held = some (5, viaCode .mh) := by decide
theorem witness_clocks :
    ({ run with pwr := { run.pwr with power := .reefed } }).domIdle .core = true ∧
    ({ run with pwr := { run.pwr with power := .reefed } }).domIdle .engine = true := by decide
theorem witness_absent :
    run.spotOf .mh 0x3000 = .hole ∧ blockPagePresent (0x3000 / 0x1000) = false ∧
    run.spotOf .mh 0x60030 = .reg 0x060 0x030 ∧ inMirrors 0x030 = false ∧ offDefined 0x060 0x030 = false ∧
    run.spotOf .mh 0x60404 = .reg 0x060 0x404 ∧ inMirrors 0x404 = true ∧ offDefined 0x060 0xC04 = false := by decide
theorem witness_locks : locked.locked 0x060 = true ∧ locked.clocked = true ∧ run.locked 0x060 = false := by decide
theorem witness_fields : Reg.STY_SCRATCH.DATA.wid ≤ 32 ∧ Reg.STY_SCRATCH.DATA.off + Reg.STY_SCRATCH.DATA.step * 3 < 4096 ∧
    Reg.STY_SCRATCH.DATA.lo < 32 ∧ Reg.STY_SCRATCH.DATA.key 0x060 3 ≠ Reg.PG_EVT.EVT.key 0x060 0 ∧
    Reg.STY_SCRATCH.DATA.key 0x060 3 ≠ Reg.HBR_LHP_IRQ.PENDING.key 0x01F 0 := by decide

/-! ### Ethernet ports -/

/-- Port `p` as `x`. -/
def port (p : Nat) (x : EthPort) (d : Dev := run) : Dev := d.setEport p x
def frame : RxFrame := ⟨List.replicate 64 0, 0, none, none, false, false, none, false⟩
def sending : TxFrame := ⟨0, 0, List.replicate 64 0, 0, 0, 0, false, 0⟩
def up : EthPort := { EthPort.reset with link := .up }

theorem witness_reception :
    (port 3 up).rxOpen 3 = true ∧ (port 3 up).deaf 3 0 = false ∧ (port 3 up).jams 3 = false ∧
    (port 3 { EthPort.reset with link := .down }).rxOpen 3 = true ∧ (port 3 { EthPort.reset with link := .down }).deaf 3 0 = true ∧
    (port 0 { up with rx := [frame] }).rxOpen 0 = true ∧
    ((port 3 { up with rx := [frame] }).eport 3).rx = [frame] ∧ frame.skip = false ∧
    ((port 3 { up with rx := [{ frame with skip := true }] }).eport 3).rx = [{ frame with skip := true }] ∧
    ([] : List Byte).length < 64 := by decide
theorem witness_jams :
    let d := port 16 { up with xoffAll := true } (run.wr (ethPage 16) Reg.ETH_FC_CFG.TX_MODE 3)
    d.rxOpen 16 = true ∧ d.deaf 16 0 = false ∧ d.jams 16 = true := by decide
theorem witness_transmission :
    ((port 3 { up with pauses := [5, 0, 0, 0, 0, 0, 0, 7] }).eport 3).pauseEnd 7 ≠ 0 ∧
    (port 3 { up with xoffAll := true } (run.wr (ethPage 3) Reg.ETH_FC_CFG.TX_MODE 1)).txMode 3 = 1 ∧
    ((port 3 up).eport 3).link = .up ∧
    ((run.setCbRec 127 { CbRec.reset with newest := some 4 }).cbRec (64 * 1 + 63)).newest = some 4 ∧
    (port 3 up (run.wr (ethPage 3) Reg.ETH_PREEMPT.EN 1)).verifying 3 = true := by decide
theorem witness_pfc :
    let d := port 3 { up with xoffAll := true } ((run.wr (ethPage 3) Reg.ETH_FC_CFG.TX_MODE 2).wr (ethPage 3) Reg.ETH_FC_CFG.PFC_EN 4)
    d.txMode 3 = 2 ∧ pfcMask (d.rd (ethPage 3) Reg.ETH_FC_CFG.PFC_EN) (d.eport 3).xoffAll (d.eport 3).xoffQ ≠ 0 := by decide
theorem witness_halfDuplex :
    ((port 21 { up with tx := some sending, attempts := 15 }).eport (16 + 5)).tx = some sending ∧
    ((port 21 { up with held := some sending, backoff := true }).eport (16 + 5)).held = some sending ∧
    ((run.wr (ethPage 21) Reg.ETH_MD_CFG.PLCA_EN 1).wr (ethPage 21) Reg.ETH_MD_CFG.NODE_ID 3).follower (16 + 5) = true := by decide
theorem witness_collisions :
    let d := port 21 { EthPort.reset with link := .hold, tx := some sending, attempts := 16 }
    (d.eport (16 + 5)).tx = some sending ∧ (d.eport (16 + 5)).link = .hold ∧ 16 ≤ (d.eport (16 + 5)).attempts ∧
    ((port 21 { d.eport 21 with attempts := 15 }).eport (16 + 5)).attempts < 16 ∧ ((port 3 up).eport 3).ctl = [] := by decide
/-- A locked page of a port, which is enabled or not. -/
theorem witness_portLocked :
    (run.entered .mh).locked (ethPage 21) = false ∧ ((run.wr (ethPage 21) Reg.PG_LOCK.LOCK 1).entered .mh).locked (ethPage 21) = true ∧
    (run.entered .mh).on (ethPage 21) Reg.PG_CTRL.EN = false ∧
    ((run.wr (ethPage 21) Reg.PG_CTRL.EN 1).entered .mh).on (ethPage 21) Reg.PG_CTRL.EN = true := by decide
theorem witness_links :
    (port 21 { EthPort.reset with link := .down } (run.wr (ethPage 21) Reg.PG_CTRL.EN 1)).linkBarred 21 = false ∧
    (port 21 { EthPort.reset with link := .down } (run.wr (ethPage 21) Reg.PG_CTRL.EN 1)).on (ethPage 21) Reg.PG_CTRL.EN = true ∧
    run.inBand 21 = false ∧ run.modeBad 21 = false ∧
    ((port 0 { EthPort.reset with link := .hold } (run.wr (ethPage 0) Reg.PG_CTRL.EN 1)).eport 0).link = .hold ∧
    run.locked (ethPage 0) = false ∧ run.on (ethPage 0) Reg.PG_CTRL.EN = false := by decide

/-- Port Z0 with TC10, its handshake at `st`. -/
def tc10 (st : Nat) : Dev := (run.wr (ethPage 4) Reg.ETH_T1_CFG.TC10_EN 1).wr (ethPage 4) Reg.ETH_T1_CFG.TC10_STAT st

theorem witness_tc10 :
    run.locked (ethPage 4) = false ∧ (tc10 1).tc10En 4 = true ∧ (tc10 1).tc10 4 = 1 ∧ ((tc10 1).eport 4).sleepRx = false ∧
    ((tc10 1).setEport 4 { up with sleepRx := true }).egressEmpty 4 = true ∧
    ((tc10 2).wr 0x000 Reg.PCH_WAKE_EN.SRC 4).wakeDetects 2 0 false noWakeData = true ∧
    run.wakeDetects 2 0 false noWakeData = false ∧
    (run.wr (ethPage 11) Reg.ETH_T1_CFG.DIAG_START 1).on (ethPage (4 + 7)) Reg.ETH_T1_CFG.DIAG_START = true := by decide

/-! ### Field buses -/

/-- Channel C2 as `x`. -/
def can (x : CanCh) (d : Dev := run) : Dev := d.setCan 2 x
def canTx : CanTx := ⟨0, 0, 1, 1, 0, false, [], false⟩
def canFrame : CanFrame := ⟨0, 0x123, 0, 0, [1, 2]⟩
def canUp : CanCh := { CanCh.reset with state := .active }

theorem witness_can :
    ((can canUp).can 2).onBus = true ∧ (can canUp).shut = false ∧ (can canUp).canTakes 2 0 = true ∧
    (can canUp).canTakes 2 1024 = false ∧
    ((can canUp (run.wr (canPage 2) Reg.CAN_CTRL.SELF_RX 1)).on (canPage 2) Reg.CAN_CTRL.SELF_RX) = true ∧
    (((can canUp).bump (canPage 2) Reg.CAN.RX_OK).canFilter 2 0 0x123 0).2.2 = true ∧
    (can { canUp with tx := [canTx] }).canOffered 2 ((can canUp).now - 0) = some canTx ∧ canTx.ts = false ∧
    ((can { canUp with tx := [canTx] }).can 2).tx ≠ [] ∧
    ((can { CanCh.reset with state := .busOff, recover := true }).can 2).state = .busOff ∧
    ((can { CanCh.reset with state := .busOff, recover := true }).can 2).recover = true ∧ run.pwr.silent = false ∧
    run.locked (canPage 2) = false ∧ ((can .reset).can 2).state = .disabled ∧
    (run.wr (canPage 2) Reg.PG_CTRL.EN 1).on (canPage 2) Reg.PG_CTRL.EN = true ∧ run.canBad 2 = false := by decide

/-- Channel L1 enabled, as a commander or as a responder. -/
def lin (cmd : Nat) (x : LinCh) : Dev :=
  ((((run.wr (linPage 1) Reg.PG_CTRL.EN 1).wr (linPage 1) Reg.LIN_CTRL.ROLE cmd).wr (linPage 1) Reg.LIN_CTRL.RUN 1).wr
    (linPage 1) Reg.LIN_FRM_D0.HI 1).setLin 1 x
def linEntry0 : LinEntry := ⟨0, 0, false, 1, true, 0, 0, false⟩

theorem witness_lin :
    (lin 1 .reset).linOn 1 = true ∧ (lin 1 .reset).linCommander 1 = true ∧ (lin 1 .reset).shut = false ∧
    (lin 1 .reset).on (linPage 1) Reg.LIN_CTRL.RUN = true ∧ ((lin 1 .reset).lin 1).slot = none ∧
    ((lin 1 .reset).lin 1).switch = none ∧ run.locked (linPage 1) = false ∧ (lin 0 .reset).linCommander 1 = false ∧
    linPid ((0x80 : Byte).toNat % 64) = 0x80 ∧
    ((lin 0 .reset).linFind 1 fun e => e.fid == 0 && ((lin 0 .reset).linPublishes 1 e || (lin 0 .reset).linReceives 1 e)) =
      some linEntry0 ∧ linEntry0.type = 0 ∧
    ((lin 0 { LinCh.reset with bufs := [(0, ⟨[], true, false, none⟩)] }).linBuf 1 0).ever = true ∧
    ((lin 0 { LinCh.reset with wait := some 0x80 }).lin 1).wait = some 0x80 := by decide
/-- An entry that receives one byte, which a commander's slot 0 or a responder's entry 0 awaits. -/
def linAwaits (cmd : Nat) : Dev :=
  (lin cmd { LinCh.reset with wait := some 0x80, slot := some 0 }).wr (linPage 1) Reg.LIN_FRM_D0.LO 64
theorem witness_linResponse :
    ((linAwaits 0).lin 1).wait = some 0x80 ∧ (linAwaits 0).linAwaited 1 0x80 = some (0, { linEntry0 with type := 1 }) ∧
    (linAwaits 1).linAwaited 1 0x80 = some (0, { linEntry0 with type := 1 }) ∧
    ([5] : List Byte).length = linEntry0.dlen ∧ (0 : Byte) ≠ linCheck { linEntry0 with type := 1 } 0x80 [5] := by decide

/-- Channel U3 enabled in a mode, as `x`. -/
def uart (mode : Nat) (x : Uart) : Dev :=
  (((run.wr (uarPage 3) Reg.PG_CTRL.EN 1).wr (uarPage 3) Reg.UAR_CFG.MODE mode).wr (uarPage 3) Reg.UAR_GEN.IDLE 4).setUart 3 x
theorem witness_uart :
    (uart 0 .reset).uarOn 3 = true ∧ (uart 0 .reset).shut = false ∧ (uart 0 .reset).uarFill 3 < 2048 ∧
    (uart 0 .reset).rd (uarPage 3) Reg.UAR_CFG.MODE = 0 ∧ (uart 1 .reset).uarFill 3 < 2048 ∧
    (uart 1 .reset).rd (uarPage 3) Reg.UAR_CFG.MODE = 1 ∧ (uart 1 .reset).rd (uarPage 3) Reg.UAR_GEN.IDLE ≠ 0 ∧
    (uart 1 .reset).uarOn 3 = true ∧ ((uart 1 { Uart.reset with open_ := true }).uart 3).open_ = true ∧
    ((uart 1 { Uart.reset with tx := some (1, 0, 0, 7) }).uart 3).tx = some (1, 0, 0, 7) := by decide

/-- An item that waits for its lookup. -/
def item (o : Origin) : Item := ⟨o, 0, 5, 0, false, false, none, [], 0, 0, 0, true, none, 9, none⟩
/-- Poll controller `b` enabled and running, as `x`. -/
def bus (b : Nat) (x : PollBus) : Dev :=
  let d := ((run.wr (pollPage b) Reg.PG_CTRL.EN 1).wr (pollPage b) Reg.SPI_CFG.RUN 1).wr (pollPage b) Reg.POLL_D0.VALID 1 2
  let d := { d with nrm := { d.nrm with items := [item (.bus 0x58)] } }
  (d.wr (pollPage b) Reg.POLL_D2.PERIOD 10 2).setBus b x
def polling : PollBus := { PollBus.reset with runAt := some 0, polls := [(2, ⟨1, false, 9, some [1], 0⟩)], job := some (.poll 2) }

theorem witness_poll :
    (bus 0 polling).pollOn 0 = true ∧ (bus 0 polling).shut = false ∧ (bus 0 polling).pollRun 0 = true ∧
    ((bus 0 polling).bus 0).runAt ≠ none ∧ (bus 0 polling).pollValid 0 2 = true ∧ ((bus 0 polling).poll 0 2).item ≠ 0 ∧
    ((bus 0 polling).reach ((bus 0 polling).dueAt 0 2 ((bus 0 polling).poll 0 2).count)).heldItem
      ((bus 0 polling).poll 0 2).item = true ∧
    ((bus 0 polling).bus 0).job = some (.poll 2) ∧ isSpi 4 = false ∧ ((bus 4 polling).bus 4).job = some (.poll 2) ∧
    ((bus 4 { PollBus.reset with job := some (.write 1 0 0) }).bus 4).job = some (.write 1 0 0) := by decide
theorem witness_pollQuiet :
    let d := (bus 0 { polling with polls := [(2, ⟨1, false, 9, some [], 0⟩)] }).wr (pollPage 0) Reg.POLL_D0.CHG_ONLY 1 2
    (d.bump (pollPage 0) Reg.POLL.POLLS_OK).pollEmits 0 2 (([] : List Byte).take (d.rd (pollPage 0) Reg.POLL_D1.RD_LEN 2)) = false := by
  decide

/-- The UART FIFO is full, with an item open; and a character that would begin one. -/
theorem witness_overrun :
    let d := uart 1 { Uart.reset with open_ := true, chars := List.replicate 2048 0 }
    d.uarOn 3 = true ∧ (d.uart 3).open_ = true ∧ 2048 ≤ d.uarFill 3 ∧ d.shut = false ∧
    (uart 1 { Uart.reset with chars := List.replicate 2048 0 }).uarBegins 3 7 = true := by decide +kernel

/-! ### Tables -/

def partA : PartA := ⟨0, 0, [], false, false, [], false⟩
/-- A resynchronisation under way, with parts that are not copied. -/
def resync (parts : List TablePart) : Dev := { run with nrm := { run.nrm with resync := some ⟨1, parts⟩ } }

theorem witness_tables :
    let i := { item (.eth 3 0) with partA := some partA }
    let d := { run with nrm := { run.nrm with items := [i] } }
    d.nrm.items.find? (d.mayPartB 3) = some i ∧ i.partA = some partA ∧ d.partBRoom i partA = true ∧
    (resync [.gwy]).nrm.resync = some ⟨1, [.gwy]⟩ ∧ [TablePart.gwy].contains .gwy = true ∧
    (resync [.gwy]).drained 1 .gwy = true ∧ (resync []).nrm.resync = some ⟨1, []⟩ := by decide
theorem witness_commits :
    (resync [.gwy]).nrm.resync.isSome = true ∧ run.nrm.resync = none ∧ run.nrm.swapAt = none ∧
    (∃ p ∈ [0x028, 0x070, 0x048, 0x050], (run.wr 0x048 Reg.PG_LOCK.LOCK 1).locked p = true) ∧
    (∀ p ∈ [0x028, 0x070, 0x048, 0x050], (run.setMaint 0x028 ⟨some (5, 0), none⟩).locked p = false) ∧
    ((run.setMaint 0x028 ⟨some (5, 0), none⟩).maintTake 0x028 6 1).1 = false := by decide

/-! ### Switch core and buffers -/

def shb : Shb := ⟨5, 0, 0, false, 0, 0, 1, 4, 0, 0⟩
/-- Sentence 1, whose cells are `cells`. -/
def sen (cells : List CellAt) : Sen :=
  ⟨shb, 1, [], .device, 0, 0, cells, true, none, false, [], 0, [], false, 9, 0, 0, false, [], [], .sentence, false⟩
/-- A device that holds sentence 1, with `copies` of it. -/
def holds (x : Sen) (copies : List Copy) (d : Dev := run) : Dev := { d with swc := { d.swc with sens := [(1, x)], copies := copies } }
def copyAt (set : Nat) (place : Place) : Copy := ⟨1, .member 0, set, 18, place, false, false, .none⟩
def ctx : Ctx := ⟨18, 5, [⟨1, .waiting, 1, []⟩], false, some 3⟩

/-- A cut-through copy that waits for its ports, behind one whose lookup ended earlier. -/
def express (sid : Nat) : Cross := ⟨sid, 3, 7, 5, 1, true, true⟩
theorem witness_express :
    { run with swc := { run.swc with voq := [express 4, express 2] } }.expressNext = some (express 2) := by decide
theorem witness_switch :
    run.locked (schedPage 3) = false ∧
    (holds (sen []) [] { run.wr 0x030 Reg.SWC_LIFE.LIFE_US 2 with now := 32000 }).sen 1 = some (sen []) ∧
    (holds (sen []) [] { run.wr 0x030 Reg.SWC_LIFE.LIFE_US 2 with now := 32000 }).expired (sen []) = true ∧
    ((holds (sen []) [copyAt 0x12B .medium]).swc.copies.find? fun c =>
      c.sid == 1 && c.role == .member 0 && c.place == .medium && decide (0x100 ≤ c.set)) = some (copyAt 0x12B .medium) ∧
    { run with swc := { run.swc with ctxs := [ctx] } }.ctxOf 18 5 = some ctx := by decide

/-- The input of an engine that an engine has taken, and that waits at the head of its virtual output queue. -/
def taken : Copy := ⟨1, .engine, 0x78, 12, .medium, false, false, .none⟩
theorem witness_lifetimes :
    let d := holds (sen []) [taken] { run.wr 0x030 Reg.SWC_LIFE.LIFE_US 2 with now := 32000 }
    let e := { d with swc := { d.swc with voq := [⟨1, 0, 12, 0, 1, true, false⟩] } }
    (e.swc.copies.find? fun c => c.sid == 1 && c.role == .engine && e.atHead c (sen [])) = some taken ∧
    taken.place = .medium ∧ e.stageWaits 0x7C = false ∧
    ((holds (sen []) [copyAt 0x12B .egress]).swc.copies.find? fun c =>
      c.sid == 1 && c.role == .engine && (holds (sen []) [copyAt 0x12B .egress]).atHead c (sen [])) = none ∧
    run.locked (schedPage 3) = false := by decide
theorem witness_pooled :
    let d := holds (sen []) [⟨1, .engine, 0x78, 12, .pool, false, false, .none⟩]
      { run with eng := { run.eng with pending := [⟨1, 5, 0, 0, 0, 0, false, 0, 0⟩] } }
    (d.swc.copies.find? fun c => c.sid == 1 && c.role == .engine && d.atHead c (sen [])) =
      some ⟨1, .engine, 0x78, 12, .pool, false, false, .none⟩ ∧ d.stageWaits 0x78 = false := by decide

/-- External memory in use, with many cells to free on chip. -/
def xm (x : Xm := { Xm.reset with ready := true, cellsMi := 1 }) : Dev :=
  { (((run.wr 0x040 Reg.BUF_XM_CFG.EN 1).wr 0x040 Reg.BUF_SPILL.ON 0x3FFFF).wr 0x040 Reg.BUF_PREFETCH.SPILL_DEPTH 0).wr 0x040
      Reg.BUF_PREFETCH.AHEAD 0 with xm := x }
def waiting : Sen := { sen [] with waits := some .source }

theorem witness_waits :
    (holds waiting [] { run.wr 0x030 Reg.SWC_LIFE.LIFE_US 2 with now := 32000 }).expired waiting = true ∧
    waiting.waits.isSome = true := by decide
theorem witness_spill :
    let d := (holds (sen [.chip 7]) [copyAt 0x12B .egress] xm).spillFollow
    d.xmMoves = true ∧ d.prefetchWaits = false ∧ xm.xm.spill = false ∧ d.chipFree < d.rd 0x040 Reg.BUF_SPILL.ON ∧ d.extFree ≠ 0 ∧
    deepest d.spillable = some (1, 1, 0) ∧ (d.sen 1).map (fun y => listGet (CellAt.ext 0) y.cells 0) = some (.chip 7) := by
  decide
theorem witness_cells :
    (holds (sen [.spilling 7 9]) []).cellsWhere (fun _ _ c => match c with | .spilling _ _ => true | _ => false) =
      some (1, 0, .spilling 7 9) ∧
    (holds (sen [.fetching 9 7]) []).cellsWhere (fun _ _ c => match c with | .fetching _ _ => true | _ => false) =
      some (1, 0, .fetching 9 7) ∧ run.xm.retrain = false ∧
    (holds (sen [.spilling 7 9]) [copyAt 0x12B .egress] xm).xmOn = true ∧
    (holds (sen [.spilling 7 9]) [copyAt 0x12B .egress] xm).spillAllowed 1 0 = true ∧ run.xmOn = false := by decide
theorem witness_prefetch :
    let d := holds (sen [.spilling 7 9]) [copyAt 0x12B .egress] (run.wr 0x040 Reg.BUF_PREFETCH.AHEAD 16)
    d.cellsWhere (fun sid j c =>
      (match c with | .spilling _ _ => true | .ext _ => decide (0 < d.chipFree) | _ => false) && d.wanted sid j) =
        some (1, 0, .spilling 7 9) := by decide
theorem witness_fetch :
    let d := holds (sen [.ext 9]) [copyAt 0x12B .egress] (run.wr 0x040 Reg.BUF_PREFETCH.AHEAD 16)
    d.cellsWhere (fun sid j c =>
      (match c with | .spilling _ _ => true | .ext _ => decide (0 < d.chipFree) | _ => false) && d.wanted sid j) =
        some (1, 0, .ext 9) := by decide
theorem witness_memFault :
    (holds (sen [.chip 7]) []).sen 1 = some (sen [.chip 7]) ∧ 0 < ((holds (sen [.chip 7]) []).cellsOf (sen [.chip 7])).length ∧
    listGet (.ext 0) ((holds (sen [.chip 7]) []).cellsOf (sen [.chip 7])) 0 = .chip 7 ∧
    (holds (sen [.chip 7]) []).takenBy 1 = none ∧
    listGet (.ext 0) ((holds (sen [.ext 7]) []).cellsOf (sen [.ext 7])) 0 = .ext 7 := by decide
theorem witness_training :
    (xm .reset).on 0x040 Reg.BUF_XM_CFG.EN = true ∧ (xm .reset).xm.training = false ∧ (xm .reset).xm.ready = false ∧
    (xm .reset).xm.fail = false ∧ (xm { Xm.reset with training := true }).xm.retrain = false ∧
    (xm { Xm.reset with ready := true, temp := 40 }).tempMoved = true ∧
    ((xm { Xm.reset with ready := true, temp := 40 }).maintTake 0x040 3 0).1 = true ∧ run.locked 0x040 = false ∧
    ((xm { Xm.reset with ready := true, temp := 40 }).maintTake 0x040 3 1).1 = true ∧
    (xm { Xm.reset with retrain := true }).xm.retrain = true := by decide

/-! ### Engines -/

def entry : Entry := ⟨1, 5, 0, 0, 0, 0, false, 0, 0⟩
/-- The registers of a unit at slot 0: `w7` holds 7, `a1` the address `a1`. -/
def uregs (a1 : BitVec 16 := 0x3000) : Core :=
  ⟨[0, 0, 0, 0, 0, 0, 0, 7, 0, 0, 0, 0, 0, 0, 0, 0], [0x2008, a1, 0x10, 0], .reset, 0, 0⟩
/-- A run of a program of one slot. -/
def running (c : Core := uregs) : Run := ⟨entry, c, 0, 1, 256, [], [], 1, [], [], false, []⟩
/-- Engine 3 as `x`. -/
def spe (x : Spe) (d : Dev := run) : Dev := d.setSpe 3 x
/-- One slot of program 0 in bank 0. -/
def program (d : Dev) : Dev := d.tabWrite 0 [(0x208001, 0x10), (0x208003, 0x80)]

theorem witness_take :
    let d := program (spe { Spe.reset with deque := [entry] })
    (d.spe 3).state = .idle ∧ d.workFor 3 = some (entry, false) ∧ d.entryExpires entry = none ∧
    ((((d.leaveDeque 1).lockFor entry).toEngine 1 (spePort 3)).newRun entry).len ≠ 0 := by decide
theorem witness_engine :
    let d := spe { Spe.reset with state := .running, run := some running }
    let e := spe { Spe.reset with state := .running, run := some (running { uregs with cycles := 256 }) }
    d.inSvc 3 = true ∧ (d.spe 3).run = some running ∧ (run.spe 3).run = none ∧ run.inSvc 3 = true ∧
    (e.spe 3).run = some (running { uregs with cycles := 256 }) ∧ running.ended = false ∧
    running.limit ≤ ({ uregs with cycles := 256 } : Core).cycles ∧
    ((spe { Spe.reset with state := .selfTest }).spe 3).state = .selfTest ∧ (Spe.reset).rotating = false ∧
    (Spe.reset).returning = false ∧ (Spe.reset).retiring = false ∧ (Spe.reset).faults ≤ 2 ∧ run.locked 0x050 = false ∧
    (run.wr 0x050 Reg.ENG_SHARE_CFG.EN 1).on 0x050 Reg.ENG_SHARE_CFG.EN = true ∧
    ((run.setInst 6 { InstSt.reset with resetAt := some 0 }).inst 6).resetAt = some 0 := by decide
theorem witness_rotation :
    let d := spe { Spe.reset with state := .running, run := some running }
      ((run.wr 0x050 Reg.ENG_ST_CFG.EN 1).wr 0x050 Reg.ENG_ST_CFG.NEXT 3)
    d.on 0x050 Reg.ENG_ST_CFG.EN = true ∧ 65 ≤ d.inService ∧ (d.maintTake 0x050 4 0).1 = true ∧
    (d.maintTake 0x050 4 0).2.nextTested = some 3 ∧
    ((((d.maintTake 0x050 4 0).2.wr 0x050 Reg.ENG_ST_CFG.NEXT ((3 + 1) % 72)).spe 3).run).isSome = true := by decide

/-! ### Sentence programs -/

/-- Engine 3 runs with registers `c`, and slot 0 of its program of `len` slots holds `code`. -/
def slotted (code : BitVec 36) (c : Core := uregs) (len : Nat := 1) : State :=
  ⟨(spe { Spe.reset with state := .running, run := some { running c with len } }
    { run with nrm := { run.nrm with items := [] } }).tabWrite 0
      ((List.range 5).map fun i => (0x200000 + i, code.extractLsb' (8 * i) 8)), []⟩

/-- What the program has made of word register `i`, of the flags and of the program counter. -/
def after (i : Instr) (s : State) (k : WReg) : Option (BitVec 18 × Flags × Nat) :=
  match exec i s with
  | .next t => (t.dev.spe 3).run.map fun r => (r.core.wreg k, r.core.fl, r.core.pc)
  | _ => none

/-- Engine 3 is about to execute the slot. -/
def ReadyAt (code : BitVec 36) : Prop := State.Ready (slotted code) (.spe 3) uregs code

theorem witness_moves :
    ReadyAt (encode 0x00 0 0 0 0 0) ∧ ReadyAt (encode 0x01 2 7 0 0 0) ∧ ReadyAt (encode 0x02 2 0 0 3 9) ∧
    ReadyAt (encode 0x03 2 7 0 3 0) ∧ ReadyAt (encode 0x08 0 0 (encodeA 1 false) 0 9) ∧ ReadyAt (encode 0x09 0 0 (encodeA 1 false) 0 9) ∧
    ReadyAt (encode 0x0A 0 7 (encodeA 1 false) 0 0) ∧ ReadyAt (encode 0x0B 2 0 (encodeA 1 false) 0 0) := by
  unfold ReadyAt State.Ready; and_intros <;> decide
theorem witness_sums :
    ReadyAt (encode 0x0C 2 7 7 0 0) ∧ ReadyAt (encode 0x0D 2 7 7 0 0) ∧ ReadyAt (encode 0x0E 2 7 7 0 0) ∧
    ReadyAt (encode 0x0F 2 7 7 0 0) ∧ ReadyAt (encode 0x14 2 7 0 0 9) ∧ ReadyAt (encode 0x15 2 7 0 0 9) ∧
    ReadyAt (encode 0x19 0 7 7 0 0) ∧ ReadyAt (encode 0x1A 0 7 0 0 9) := by
  unfold ReadyAt State.Ready; and_intros <;> decide
theorem witness_logic :
    ReadyAt (encode 0x10 2 7 7 0 0) ∧ ReadyAt (encode 0x11 2 7 7 0 0) ∧ ReadyAt (encode 0x12 2 7 7 0 0) ∧
    ReadyAt (encode 0x13 2 7 0 0 0) ∧ ReadyAt (encode 0x16 2 7 0 0 9) ∧ ReadyAt (encode 0x17 2 7 0 0 9) ∧
    ReadyAt (encode 0x18 2 7 0 0 9) ∧ ReadyAt (encode 0x1B 2 7 0 0 4) ∧ ReadyAt (encode 0x1C 2 7 0 0 4) ∧
    ReadyAt (encode 0x1D 2 7 0 0 4) ∧ ReadyAt (encode 0x1E 2 7 7 0 0) ∧ ReadyAt (encode 0x1F 2 7 0 0 0x48) ∧
    ReadyAt (encode 0x20 2 7 0 0 0x48) := by
  unfold ReadyAt State.Ready; and_intros <;> decide
theorem witness_branches :
    ReadyAt (encode 0x21 14 0 0 0 0x10) ∧ ReadyAt (encode 0x22 0 7 0 3 0x10) ∧ ReadyAt (encode 0x23 0 0 (encodeA 1 false) 0 0x10) ∧
    ReadyAt (encode 0x24 0 0 0 0 0) := by
  unfold ReadyAt State.Ready; and_intros <;> decide
/-- The clauses of loads, stores and the instructions of sentences, slots and time. -/
theorem witness_memory :
    ReadyAt (encode 0x04 2 0 (encodeA 1 true) 0 3) ∧ (slotted (encode 0x04 2 0 (encodeA 1 true) 0 3)).dev.loadAt (.spe 3)
      (uregs.areg 1 + 3).toNat = some (0, 1) ∧
    ReadyAt (encode 0x05 2 0 (encodeA 1 true) 0 3) ∧ ((slotted (encode 0x05 2 0 (encodeA 1 true) 0 3)).dev.storeAt (.spe 3)
      (uregs.areg 1 + 3).toNat 7).isSome = true ∧
    ReadyAt (encode 0x25 0 0 (encodeA 1 false) 0 0) ∧ outIndex (uregs.areg 1).toNat 8 = some 0 ∧ running.emitted 0 8 = false ∧
    ReadyAt (encode 0x27 4 7 0 0 0) ∧ ReadyAt (encode 0x28 4 7 0 0 0) ∧ (running.slotStage 7 0).isSome = true ∧
    ReadyAt (encode 0x29 4 0 0 0 0) := by
  unfold ReadyAt State.Ready; and_intros <;> decide

theorem witness_bytes :
    State.Ready (slotted (encode 0x06 2 0 (encodeA 1 false) 0 0) (uregs 16)) (.spe 3) (uregs 16) (encode 0x06 2 0 (encodeA 1 false) 0 0) ∧
    ((slotted (encode 0x06 2 0 (encodeA 1 false) 0 0) (uregs 16)).dev.byteAt (.spe 3) ((uregs 16).areg 1 + 0).toNat).isSome = true ∧
    State.Ready (slotted (encode 0x07 2 0 (encodeA 1 false) 0 0) (uregs 16)) (.spe 3) (uregs 16) (encode 0x07 2 0 (encodeA 1 false) 0 0) ∧
    ((slotted (encode 0x07 2 0 (encodeA 1 false) 0 0) (uregs 16)).dev.putByteAt (.spe 3) ((uregs 16).areg 1 + 0).toNat 7).isSome =
      true := by
  unfold State.Ready; and_intros <;> decide

/-- The sentence of the run, with one listener member. -/
def membered (s : State) : State :=
  { s with dev := { s.dev with swc := { s.dev.swc with
      sens := [(1, sen [])], accts := [(1, ⟨shb, .device, [⟨0, .cut, 0, none, none⟩], false, false⟩)] } } }
theorem witness_emit :
    let s := membered (slotted (encode 0x26 0 7 (encodeA 1 false) 0 0))
    State.Ready s (.spe 3) uregs (encode 0x26 0 7 (encodeA 1 false) 0 0) ∧ (s.dev.spe 3).run = some running ∧
    running.emask &&& s.dev.lmask running ≠ 0 ∧ outIndex (uregs.areg 1).toNat (outWords ((uregs.dat 7).toNat % 16384)) = some 0 ∧
    (s.dev.stageOutput running 0 ((uregs.dat 7).toNat % 16384)).isSome = true := by
  unfold State.Ready; and_intros <;> decide
theorem witness_reserved :
    Instr.unit (.nop (.spe 3)) = some (.spe 3) ∧ (slotted 0).dev.coreOf (.spe 3) = some uregs ∧
    (slotted 0 { uregs with pc := 1 }).dev.slotAt (.spe 3) 1 = none ∧
    (slotted 0xFFFFFFFFF).dev.slotAt (.spe 3) 0 = some 0xFFFFFFFFF ∧
    (slotted 0xFFFFFFFFF).dev.badRead (.spe 3) uregs 0xFFFFFFFFF = none ∧ legal 0xFFFFFFFFF (isWatch (.spe 3)) = false := by decide

/-! ### Signal gateway -/

/-- Pack list 9 as `x`, with dword 0 of its header in bank 0. -/
def plist (x : PList) (head : Nat) : Dev := (run.tabWrite 0 [(0x20A0241, 0x80), (0x20A0242, BitVec.ofNat 8 head)]).setPlist 9 x

theorem witness_gateway :
    ({ run with gwy := { run.gwy with cuts := [(shb, [])] } }).gwy.cuts = [(shb, [])] ∧ run.locked 0x048 = false ∧
    ((plist { PList.reset with nextDue := some 5 } 0).plist 9).nextDue = some 5 := by decide
theorem witness_change :
    let d := plist { PList.reset with dirty := true } 4
    (d.plist 9).dirty = true ∧ d.listSignal d.nrm.active 9 = true ∧ d.listOnChange d.nrm.active 9 = true ∧
    (d.plist 9).lastFire = none ∧
    ((d.setPlist 9 { d.plist 9 with dirty := false }).plist 9).sent ≠ some (d.listPayload 9) := by decide
theorem witness_firing :
    let d := plist { PList.reset with fire := [0, 7] } 4
    (d.gwy.lists.filter fun x => d.listAcf d.nrm.active x.1 && d.acfFull d.nrm.active x.1) = [] ∧
    earliest (d.gwy.lists.filterMap fun x => x.2.fire.head?.map fun t => (t, x.1)) = some (0, 9) ∧
    ((plist { PList.reset with msgs := [[1]] } 1).plist 9).msgs ≠ [] ∧
    (plist { PList.reset with msgs := [[1]] } 1).listAcf (plist { PList.reset with msgs := [[1]] } 1).nrm.active 9 = true := by
  decide

/-- A LIN sentence of four bytes at the head of set 0x079, for ACF list 9. -/
def acf : Dev :=
  let y := { sen [] with org := .bus 0x41, body := [5, 1, 2, 3] }
  let d := (run.tabWrite 0 [(0x20A0241, 0x80), (0x20A0242, 1), (0x20A0259, 2), (0x20A025F, 1)]).setPlist 9 .reset
  { d with swc := { d.swc with
      sens := [(1, y)], copies := [copyAt 0x79 .egress], accts := [(1, ⟨shb, .bus 0x41, [⟨0, .list 9, 1, none, none⟩], true, false⟩)] } }
theorem witness_acfMessage :
    let y := { sen [] with org := .bus 0x41, body := [5, 1, 2, 3] }
    let b := acf.tableBank y.shb.bank
    acf.egressOrder 0x79 = [(copyAt 0x79 .egress, y)] ∧ acf.copyDest (copyAt 0x79 .egress) y = some (.list 9) ∧
    acf.listAcf b 9 = true ∧ (∀ k a, y.org ≠ .gateway k a) ∧
    acf.acfMessage b 9 y = some (acfLin 0 (false, 0) [5, 1, 2, 3]) ∧ acf.acfRoom b 9 (acfLin 0 (false, 0) [5, 1, 2, 3]) = true ∧
    (∀ k ∈ [0, 6, 7], acf.badAt b (0x20A0000 + 64 * 9 + 4 * k) = false) := by
  refine ⟨by decide, by decide, by decide, fun k a h => by simp at h, by decide, by decide, by decide⟩

/-! ### Time base -/

/-- Domain 2 as `x`. -/
def dom (x : Domain) (d : Dev := run) : Dev := d.setDom 2 x
theorem witness_time :
    run.locked 0x020 = false ∧ ((dom { Domain.reset with rateAt := some 4 }).dom 2).rateAt = some 4 ∧
    ((dom { Domain.reset with stepAt := some 4 }).dom 2).stepAt = some 4 ∧ run.locked 0x021 = false ∧
    run.captures = true ∧ bitAt ((run.wr 0x022 Reg.TBU_TSI_CFG.EDGE 1 2).rd 0x022 Reg.TBU_TSI_CFG.EDGE 2) 0 = true ∧
    SMap.get (fun _ => none) (run.wr 0x022 Reg.TBU_TSI_CFG.EDGE 1 2).tbu.lastEdge 2 = none ∧
    ((run.setTso 1 { Tso.reset with armed := true }).tso 1).armed = true ∧
    ((run.setTso 1 { Tso.reset with armed := true }).tso 1).high = false ∧
    ((run.setTso 1 { Tso.reset with armed := true, high := true }).tso 1).high = true ∧
    run.pwr.manager = false ∧ { run with tbu := { run.tbu with locked := true, stepTry := some 3 } }.tbu.locked = true := by decide
/-- A change that the manager relays. -/
def relayed : DomRelayMsg := ⟨1, 2, true, false, 0, 5, 0, 0⟩
theorem witness_domains :
    let f := run.wr 0x021 Reg.TBU_DOM_CFG.ROLE 3 2
    (run.wr 0x021 Reg.TBU_DOM_CFG.ROLE 1 2).rd 0x021 Reg.TBU_DOM_CFG.ROLE 2 = 1 ∧
    ((run.wr 0x021 Reg.TBU_DOM_CFG.ROLE 1 2).maintTake 0x021 10 (viaCode .mh)).1 = true ∧
    ((dom { Domain.reset with relay := [relayed] } f).dom 2).relay = [relayed] ∧
    (dom { Domain.reset with relay := [relayed] } f).rd 0x021 Reg.TBU_DOM_CFG.ROLE 2 = 3 := by decide
theorem witness_sync :
    let d := dom { Domain.reset with holdAt := some 4 } (((run.wr 0x021 Reg.TBU_DOM_CFG.HOLD_MS 1 2).wr 0x021
      Reg.TBU_DOM_CFG.ROLE 2 2).wr 0x021 Reg.TBU_DOM_CFG.SYNC 1 2)
    (d.dom 2).holdAt = some 4 ∧ d.rd 0x021 Reg.TBU_DOM_CFG.HOLD_MS 2 ≠ 0 ∧ d.rd 0x021 Reg.TBU_DOM_CFG.ROLE 2 = 2 ∧
    d.on 0x021 Reg.TBU_DOM_CFG.SYNC 2 = true := by decide

/-! ### Host interfaces -/

/-- Instance 3 exists, may master the bus, and its queue `q` is as `x`. -/
def host (q : Nat) (x : HostQ) : Dev :=
  let d := run.wr (instPage 3) Reg.INST_STAT.EXISTS 1
  { d with hbr := { d.hbr with bme := SMap.put (fun _ => false) d.hbr.bme 3 true } }.setHq 3 q x
def dma : HostQ := { HostQ.reset with mode := 1, tail := 4 }
def posted : HostItem := ⟨3, 2, false, 0, false, [0, 0, 0, 0, 0, 0, 0, 0], [], 0⟩
def push : HeldPush := ⟨3, 2, 0, false, 9, none⟩

theorem witness_host :
    (host 5 dma).on (instPage 3) Reg.INST_STAT.EXISTS = true ∧ run.locked (dbPage 3) = false ∧ run.locked (winPage 3) = false ∧
    (host 5 dma).mayFetch 3 5 = true ∧ ((host 5 dma).hq 3 5).mode = 1 ∧
    ((host 18 { dma with descs := [⟨0, 0, 16, 0⟩] }).hq 3 (16 + 2)).descs = [⟨0, 0, 16, 0⟩] ∧
    bitsOf (16 : BitVec 32) 0 15 ≠ 16 + (bufWord (List.replicate 32 1) 3).toNat % 16384 ∧
    ((host 5 { dma with holdAt := some 3 }).hq 3 (queueIdx (.rx 5))).holdAt = some 3 ∧
    firstHold [push] = some push ∧ (run.sty.reqs.find? fun q => q.tagless) = none ∧
    { run with hbr := { run.hbr with lwait := some 3 } }.hbr.lwait = some 3 ∧
    bitsOf (16 : BitVec 32) 0 15 = 16 + (bufWord (List.replicate 16 0) 3).toNat % 16384 ∧
    16 + (bufWord (List.replicate 16 0) 3).toNat % 16384 ≤ (List.replicate 16 (0 : Byte)).length ∧
    ((host 5 dma).hq 3 (queueIdx (.rx 5))).descs = [] ∧ queueIdx (.tx 2) = 18 := by decide
/-- A PCIe write to a far device that waits for a tag, with no push held. -/
theorem witness_tagHold :
    let q : StayReq := ⟨0, none, .pcie 0, 4, 0x600E0, 0xF, .write 9, 2, 0, none, false⟩
    let d := { run with sty := { run.sty with reqs := [q] } }
    (d.sty.reqs.find? fun q => q.tagless) = some q ∧ firstHold d.hbr.held = none := by decide
theorem witness_completion :
    let d := { host 5 dma with swc := { run.swc with sens := [(1, sen [])], copies := [copyAt (rxSet 3 5) .medium] } }
    (d.hq 3 5).mode = 1 ∧ d.dmaOk 3 = true ∧ d.rxMoving 3 5 = [(copyAt (rxSet 3 5) .medium, sen [])] := by decide
theorem witness_handOn :
    let d := { run with hbr := { run.hbr with ready := [posted] } }
    d.shut = false ∧ d.pwr.silent = false ∧ d.nextHost ((queueHeads d.hbr.ready).filter d.mayHand) = some posted := by decide
theorem witness_stopped :
    let d := (host 5 .reset).wr (dbPage 3) Reg.HBR_Q_STAT.ON 1 5
    (d.hq 3 (queueIdx (.rx 5))).mode = 0 ∧ d.on (dbPage 3) Reg.HBR_Q_STAT.ON (queueIdx (.rx 5)) = true ∧
    d.queueBusy 3 (queueIdx (.rx 5)) = false ∧ ((host 5 dma).functionDefault 3).exists_ 3 = true := by decide

/-! ### Virtual instances -/

def cmd (op : Nat) : InstCmd := ⟨op, 6, 0, 0, 0, 0⟩
/-- Instance 6 as `x`, with command `c`. -/
def inst (x : InstSt) (c : Option InstCmd := none) (d : Dev := run) : Dev :=
  let d := d.setInst 6 x
  { d with insts := { d.insts with cmd := c } }

theorem witness_instStart : run.locked 0x100 = false ∧ run.on 0x100 Reg.INST_CMD.GO = false := by decide
theorem witness_instEnd :
    ((inst { InstSt.reset with resetAt := some 0 }).inst 6).resetAt = some 0 ∧
    (inst .reset none (run.wr (instPage 6) Reg.INST_STAT.FREEZING 1)).on (instPage 6) Reg.INST_STAT.FREEZING = true ∧
    (inst .reset none (run.wr (instPage 6) Reg.INST_STAT.FREEZING 1)).quiet 6 = true ∧
    (inst .reset (some (cmd 7)) xm).insts.cmd = some (cmd 7) ∧ (cmd 7).target = 6 ∧ (cmd 7).op = 7 ∧
    (inst .reset (some (cmd 7)) xm).xmOn = true ∧ (inst .reset (some (cmd 9))).insts.cmd = some (cmd 9) ∧ (cmd 9).op = 9 := by
  decide
theorem witness_resetDone :
    let s := inst { InstSt.reset with resetAt := some 0 }
    let d := ((s.cancelRuns 6).areaDefault 6).talkersDefault 6
    let d := ((d.wr (instPage 6) Reg.INST_STAT.RESETTING 0).raise (instPage 6) 16).sendReport 6
    let d := d.setInst 6 { d.inst 6 with resetAt := none, list := [] }
    d.cmdIs [2] 6 = false ∧ d.cmdIs [4] 6 = false := by decide +kernel
theorem witness_freezeTimeout :
    let d := inst { InstSt.reset with freezeAt := some 0 } (some (cmd 5))
      { run with eng := { run.eng with pending := [{ entry with inst := 6 }] } }
    (d.inst 6).freezeAt = some 0 ∧ (d.reach (0 + 10 * Config.perMs)).quiet 6 = false ∧
    ((d.reach (0 + 10 * Config.perMs)).thaw 6).cmdIs [5] 6 = true := by decide

/-- An image of the smallest size, of zeros, in slot 0, with the CRC `c`. -/
def imageCells (c : BitVec 32) : List Host.Cell :=
  [(0, 0x4B), (1, 0x42), (2, 0x52), (3, 0x49), (4, 1), (6, 1), (9, 0xC4), (32, c.extractLsb' 0 8),
    (33, c.extractLsb' 8 8), (34, c.extractLsb' 16 8), (35, c.extractLsb' 24 8)]
def imaged (c : BitVec 32) : Dev := { run with insts := { run.insts with images := imageCells c } }

theorem imaged_zero (c : BitVec 32) (a : Nat) (h : 1024 ≤ a) : (imaged c).imgByte a = 0 := by
  simp only [Dev.imgByte, imaged, imageCells, SMap.get]
  repeat rw [if_neg (by omega)]

theorem drop_zeros (f : Nat → Byte) (n : Nat) (h : ∀ k, 1024 ≤ k → f k = 0) :
    (((List.range n).map f).drop 1024) = List.replicate (n - 1024) 0 := by
  rw [List.eq_replicate_iff]
  refine ⟨by simp, fun b hb => ?_⟩
  rw [← List.map_drop, List.mem_map] at hb
  obtain ⟨k, hk, rfl⟩ := hb
  rw [List.mem_iff_getElem] at hk
  obtain ⟨i, hi, rfl⟩ := hk
  exact h _ (by simp)

theorem imaged_crc (c : BitVec 32) : (imaged c).imgDword (slotBase 0 + 32) = c.toNat := by
  have e : ∀ x : BitVec 32, (x.extractLsb' 0 8).toNat + 256 * ((x.extractLsb' 8 8).toNat + 256 * ((x.extractLsb' 16 8).toNat +
      256 * (x.extractLsb' 24 8).toNat)) = x.toNat := by
    intro x
    simp only [BitVec.extractLsb'_toNat, Nat.shiftRight_eq_div_pow]
    have := x.isLt
    omega
  exact e c

/-- The CRC-32 of its body. -/
def imageCrc : BitVec 32 := crc32 (List.replicate (50176 - 1024) 0)

theorem imaged_words : (imaged imageCrc).imgDword (slotBase 0 + 4 * 0) = 0x4952424B ∧
    (imaged imageCrc).imgDword (slotBase 0 + 4 * 1) = bitsOf (imaged imageCrc).mst.levels 0 8 + 65536 ∧
    (imaged imageCrc).imgDword (slotBase 0 + 8) = 50176 := ⟨rfl, rfl, rfl⟩

theorem imaged_body : ((imaged imageCrc).slotBytes 0).drop 1024 = List.replicate (50176 - 1024) 0 := by
  rw [Dev.slotBytes, imaged_words.2.2, Nat.min_eq_left (by omega)]
  exact drop_zeros _ _ fun k h => imaged_zero _ _ (Nat.le_trans h (Nat.le_add_left _ _))

theorem witness_restore : (imaged imageCrc).imageOk 0 = true ∧
    (imaged imageCrc).imgDword (slotBase 0 + 20) ≤ (imaged imageCrc).rd (instPage 6) Reg.INST_LIMITS.WIN_MAX := by
  have h : (imaged imageCrc).slotCrc 0 = true := by
    rw [Dev.slotCrc, imaged_body, imaged_crc, imaged_words.2.2, imageCrc, beq_self_eq_true]
    rfl
  refine ⟨?_, Nat.zero_le _⟩
  have e := imaged_words
  rw [Dev.imageOk, h]
  show ((imaged imageCrc).imgDword (slotBase 0 + 4 * 0) == 0x4952424B && (imaged imageCrc).imgDword (slotBase 0 + 4 * 1) ==
    bitsOf (imaged imageCrc).mst.levels 0 8 + 65536 && decide (50176 ≤ (imaged imageCrc).imgDword (slotBase 0 + 4 * 2)) && true) = true
  rw [e.1, e.2.1, show slotBase 0 + 4 * 2 = slotBase 0 + 8 from rfl, e.2.2, beq_self_eq_true, beq_self_eq_true]
  rfl

/-! ### Stay links -/

/-- Link 2 enabled, as `x`. -/
def link (x : StayLink) (d : Dev := run) : Dev := (d.wr (linkPage 2) Reg.PG_CTRL.EN_link 1).setLink 2 x
/-- A link that is up. -/
def linkUp : StayLink := { StayLink.reset with state := .up, step := 6, lanes := 3 }
/-- Link 2 up, and the upstream link. -/
def upstream (x : StayLink := linkUp) : Dev :=
  let d := link x
  { d with sty := { d.sty with path := SMap.put (fun _ => none) d.sty.path 0 (some (2, 1)) } }

theorem witness_stayLink :
    (link .reset).trains 2 = true ∧ ((link { StayLink.reset with step := 3 }).link 2).step = 3 ∧
    run.refusal 4 false 1 = 0 ∧ ((link { StayLink.reset with refuse := 1 }).link 2).refuse ≠ 0 ∧
    (link { StayLink.reset with refuse := 1 }).trains 2 = true ∧
    (link { StayLink.reset with step := 3 }).trains 2 = true ∧ (link { StayLink.reset with step := 4 }).trains 2 = true ∧
    (link { StayLink.reset with step := 5 }).trains 2 = true ∧ (link linkUp).linkOn 2 = true ∧
    ((link linkUp).link 2).live = true ∧ ((link linkUp).link 2).nak = false ∧ ((link linkUp).link 2).isUp = true ∧
    ((link { linkUp with replays := 8 }).link 2).state = .up ∧ linkUp.lanes = 3 ∧ linkUp.replays < 8 ∧
    ((link { linkUp with state := .degraded }).link 2).state = .degraded ∧
    ((link { linkUp with state := .degraded }).link 2).retrain = false ∧
    ((link { linkUp with state := .degraded }).maintTake (linkPage 2) 5 0).1 = true ∧ run.locked (linkPage 2) = false ∧
    ((link { linkUp with retrain := true }).link 2).retrain = true := by decide
theorem witness_upstream :
    (upstream { linkUp with timeReq := some (1, 5) }).linkOn 2 = true ∧
    ((upstream { linkUp with timeReq := some (1, 5) }).link 2).timeReq = some (1, 5) ∧
    ((upstream { linkUp with timeReq := some (1, 5) }).setLink 2
      { (upstream { linkUp with timeReq := some (1, 5) }).link 2 with timeReq := none }).upstream = some 2 ∧
    (upstream).upstream = some 2 ∧ (upstream).relaySeen 7 = false := by decide

/-- A Stay message from device 4 toward device `dest`, in hop class `hc`. -/
def message (dest hc : Nat) : List (BitVec 16) := [BitVec.ofNat 16 (hc * 256 + 4 * 16 + dest), 0, 1, 0, 0, 0, 0, 0, 0, 0, 0]
def req (op : ReqOp) : RemReq := ⟨4, 1, 9, 0xF, 0x600E0, op⟩
def asked : StayReq := ⟨0, some 9, .mh, 4, 0x600E0, 0xF, .read, 2, 0, none, false⟩

theorem witness_messages :
    ((link { linkUp with inbox := [(7, message 0 1)] }).link 2).inbox = [(7, message 0 1)] ∧
    hdrDest (listGet 0 (message 0 1) 0) = run.pwr.devId ∧
    (link { linkUp with inbox := [(7, message 0 1)] }).msnNew (hdrSrc (listGet 0 (message 0 1) 0)) (listGet 0 (message 0 1) 2) = true ∧
    (link { linkUp with inbox := [(7, message 0 1)] }).stayTickets (message 0 1) = true ∧
    (link { linkUp with inbox := [(7, message 0 1)] }).lowerCopy 2 7 (message 0 1) = false ∧
    run.pwr.silent = false ∧ hdrHc (listGet 0 (message 5 1) 0) ≠ 3 ∧
    run.ticketRoom (shbOfWords ((message 5 1).drop 3)).talker false
      [.fresh 0 (.stay (hdrDest (listGet 0 (message 5 1) 0)) false 0)] = true ∧
    hdrDest (listGet 0 (message 5 3) 0) ≠ run.pwr.devId ∧ hdrHc (listGet 0 (message 5 3) 0) = 3 ∧
    run.sty.busBy = none ∧ run.sty.busQ = [] ∧ { run with sty := { run.sty with busBy := some 0 } }.sty.busBy = some 0 ∧
    ReqOp.locks (req (.atom (.swap 0) false)).op = true ∧ run.pwr.devId < (req .read).src.val ∧
    { run with sty := { run.sty with reqs := [asked] } }.reqOf 9 = some asked := by decide
theorem witness_elsewhere : (3 : Nat) ≠ 0 ∧ (0x60040 : Nat) < 0x1000000 ∧ 0x1FFFFFF < (0x2000000 : Nat) := by decide
theorem witness_scratch : run.locked 0x060 = false ∧ run.rd 0x060 Reg.STY_SCRATCH.DATA 3 = (0 : BitVec 64).toNat % 2 ^ 32 ∧
    run.rd 0x060 Reg.STY_SCRATCH.DATA 3 ≠ (1 : BitVec 64).toNat % 2 ^ 32 := by decide

/-! ### Power, reset and wake -/

/-- A device in a power state, at a point of its start. -/
def power (p : Power) (b : Boot := .running) (d : Dev := run) : Dev := { d with pwr := { d.pwr with power := p, boot := b } }
def wakeEv : WakeEv := ⟨4, 1, noWakeData, 0⟩

theorem witness_power :
    run.locked 0x000 = false ∧ (power .enterStruck).pwr.drained = false ∧ State.Runs ⟨power .enterStruck, []⟩ ∧
    State.Alive ⟨power .furled, []⟩ ∧ (power .furled).asleep = true ∧
    ((power .furled .running (run.wr 0x000 Reg.PCH_WAKE_EN.SRC 8)).wakeDetects 3 1 false noWakeData) = true ∧
    ({ power .furled with pwr := { (power .furled).pwr with run := some ⟨wakeEv, { uregs with cycles := 512 }⟩ } }).pwr.run =
      some ⟨wakeEv, { uregs with cycles := 512 }⟩ ∧ (512 : Nat) ≤ ({ uregs with cycles := 512 } : Core).cycles ∧
    (power .waking).pwr.power = .waking ∧ (power .waking).pwr.boot = .running := by decide
theorem witness_entries :
    (power .enterFurled).quiesced = true ∧ State.Runs ⟨power .enterFurled, []⟩ ∧ (power .enterStruck).quiesced = true ∧
    (power .enterStruck).sentences = 0 ∧ (power .enterFurled).entering = true := by decide
theorem witness_wakeTimer :
    let d := power .furled .running ((run.wr 0x000 Reg.PCH_WAKE_CFG.PERIOD_MS 7).wr 0x000 Reg.PCH_WAKE_EN.SRC 128)
    let d := d.setPwr { d.pwr with timerAt := some 5 }
    d.pwr.timerAt = some 5 ∧ d.asleep = true ∧ d.rd 0x000 Reg.PCH_WAKE_CFG.PERIOD_MS ≠ 0 ∧
    bitAt (d.rd 0x000 Reg.PCH_WAKE_EN.SRC) 7 = true := by decide
theorem witness_wakeRun :
    let d := power .furled .running (run.wr 0x000 Reg.PCH_WAKE_CFG.WW_EN 1)
    let d := d.setPwr { d.pwr with wakeq := [wakeEv] }
    d.pwr.run = none ∧ d.pwr.wakeq = [wakeEv] ∧ d.asleep = true ∧ d.on 0x000 Reg.PCH_WAKE_CFG.WW_EN = true := by decide
theorem witness_start :
    let d := run.wr 0x000 Reg.PCH_BOOT_STAT.CAUSE 1
    State.Alive ⟨Dev.reset, []⟩ ∧ (power .full .waitRails d).pwr.boot = .waitRails ∧ (power .full .waitRails d).bootCause = 1 ∧
    (power .full .waitRails).bootCause ≠ 1 ∧ (power .full .waitPll).pwr.boot = .waitPll ∧
    State.Runs ⟨power .full .waitReload, []⟩ ∧ State.Runs ⟨power .full .waitFast, []⟩ ∧ run.mst.cache = none ∧
    State.Runs ⟨power .full .waitFwd, []⟩ ∧ run.pwr.rst = none ∧ run.on 0x001 Reg.PCH_SAFE.ACTIVE = false ∧
    run.stillUnsafe = none ∧ run.hlt.running = false ∧ run.hlt.halted = false ∧ run.on 0x008 Reg.MST_FW_STAT.LOADER = false ∧
    run.mst.runVersion 4 ≠ 0 ∧ run.mst.applyAt = none := by decide
theorem witness_fastStart :
    let c : RigCache := ⟨[], Config.sha256 [], true⟩
    ({ power .full .waitFast with mst := { run.mst with cache := some c } } : Dev).mst.cache = some c ∧ c.good = true ∧
    Config.sha256 c.bytes = c.digest := ⟨rfl, rfl, rfl⟩
theorem witness_watchdog :
    let d := run.wr 0x000 Reg.PCH_WDOG.TIMEOUT_MS 9
    let d := d.setPwr { d.pwr with wdogAt := some 4, stayAt := some 5, rst := some (.soft, 6) }
    State.Runs ⟨d, []⟩ ∧ d.pwr.wdogAt = some 4 ∧ d.rd 0x000 Reg.PCH_WDOG.TIMEOUT_MS ≠ 0 ∧ d.entering = false ∧
    d.on 0x000 Reg.PCH_WDOG.TIMEOUT_MS = true ∧ d.pwr.stayAt = some 5 ∧ d.pwr.rst = some (.soft, 6) := by decide
theorem witness_key : (0xA5 : Byte) ≠ 0x5A := by decide

/-! ### Persistence, update and health -/

/-- A session as `x` on a worker or the manager. -/
def session (x : Session) (manager : Bool := false) : Dev :=
  { run with mst := { run.mst with sess := x }, pwr := { run.pwr with manager := manager }, hlt := { run.hlt with running := true } }
def jrec : JRec := ⟨1, 1, true, 32, [], []⟩

theorem witness_update :
    run.locked 0x008 = false ∧ run.pwr.manager = false ∧ run.hlt.running = false ∧ (session .reset).hlt.running = true ∧
    run.mst.sess.bytes.length = (0 : BitVec 32).toNat ∧
    (session { Session.reset with st := .opened }).served = true ∧ (session { Session.reset with st := .opened }).mst.sess.st ≠ .idle ∧
    (session .reset).mst.sess.rigTry = none ∧
    { session .reset with mst := { run.mst with applyAt := some 5 } }.mst.applyAt = some 5 ∧
    (session { Session.reset with rigTry := some 6 }).mst.sess.rigTry = some 6 ∧
    (session { Session.reset with st := .opened, target := 3 } true).passes = true ∧
    { run with mst := { run.mst with commit := some jrec }, hlt := { run.hlt with running := true } }.mst.commit = some jrec := by
  decide
theorem witness_verify :
    let d := session { Session.reset with st := .verifying, bytes := List.replicate 12 0 }
    d.mst.sess.st = .verifying ∧ d.served = true ∧ d.passes = false ∧ 12 ≤ d.mst.sess.bytes.length ∧
    bundleLen d.mst.sess.bytes ≤ d.mst.sess.bytes.length ∧ d.verifyResult d.mst.sess.bytes ≠ 1 := by decide
theorem witness_health :
    let d := { run with hlt := { run.hlt with running := true } }
    d.hlt.running = true ∧ d.hlt.restarts = [] ∧ blockPages.contains (0x060 : BitVec 9).toNat = true ∧ run.asleep = false ∧
    (run.wr 0x001 Reg.PCH_SCRUB.EN 1).on 0x001 Reg.PCH_SCRUB.EN = true ∧
    (run.wr 0x001 Reg.PCH_SCRUB.EN 1).holds 0x001 1 = false ∧ ((run.wr 0x001 Reg.PCH_SCRUB.EN 1).maintTake 0x001 1 0).1 = true ∧
    (run.maintTake 0x001 1 0).2.holds 0x001 1 = true ∧ (run.maintTake 0x001 1 0).2.hlt.chunk < 191 ∧ run.monitored = true ∧
    run.railWatched 0 = true ∧ blockPages.contains (0x060 : Fin 256).val = true ∧
    { d with hlt := { d.hlt with frzWait := [[1]] } }.hlt.frzWait = [[1]] ∧
    ((run.reach run.mst.scrubAt).maintTake 0x008 2 0).1 = true ∧ (run.maintTake 0x008 2 0).2.holds 0x008 2 = true := by decide

/-! ### The spec's worked examples -/

/-- R325: `LD w4, [a0+0x0003]`, `EXT w5, w4, 8, 4` and `BR NEM, 0x010`. -/
theorem test_encode_ld : encode 0x04 4 0 (encodeA 0 false) 0 3 = 0x110000003 := by decide
theorem test_encode_ext : encode 0x1F 5 4 0 0 0x38 = 0x7D5000038 := by decide
theorem test_encode_br : encode 0x21 0xF 0 0 0 0x010 = 0x87C000010 := by decide

/-- The value that the last read returned. -/
def readBack (o : Host.Outcome State Fault Refusal) : Option (BitVec 18) :=
  match o with
  | .next t => (match t.dev.wires.getLast? with | some (.read _ tag v) => some (tag ++ v.extractLsb' 0 16) | _ => none)
  | _ => none

/-- R103: the paged window at BAR0 0x009_0000, and the accesses to C1 through it. -/
noncomputable def c1 : List Instr :=
  [.registerWrite ⟨.lhp, 0x0F040, 0xF, 9, 0⟩, .registerRead ⟨.lhp, 0x11000, 0xF, 0, 0⟩, .registerRead ⟨.lhp, 0x11002, 0xF, 0, 0⟩,
   .registerWrite ⟨.lhp, 0x11028, 0xF, 3, 0⟩, .registerRead ⟨.lhp, 0x1100C, 0xF, 0, 0⟩, .registerWrite ⟨.lhp, 0x11028, 0xF, 0xA500, 0⟩,
   .registerRead ⟨.lhp, 0x11014, 0xF, 0, 0⟩]

theorem test_r103_id_low : readBack (runs 2 ⟨run, c1⟩) = some 0x910C := by decide +kernel
theorem test_r103_id_high : readBack (runs 3 ⟨run, c1⟩) = some 0x0010 := by decide +kernel
theorem test_r103_stat : (readBack (runs 5 ⟨run, c1⟩)).map (fun v => Nat.land v.toNat 6) = some 6 := by decide +kernel
theorem test_r103_lock_wr : readBack (runs 7 ⟨run, c1⟩) = some 0x0001 := by decide +kernel

/-- The check value of CRC-32 as IEEE 802.3 computes it, of the bytes of "123456789" (R456). -/
theorem test_crc32 : crc32 [0x31, 0x32, 0x33, 0x34, 0x35, 0x36, 0x37, 0x38, 0x39] = 0xCBF43926 := by decide +kernel

/-! ### Results worked out by hand from R320 and R326 -/

/-- What `i`, whose slot has OP `op`, makes in w2 of w3 = `x` and w7 = `y` with the flags clear. -/
def computes (op : Nat) (i : Instr) (x y : BitVec 16) (imm : Nat := 0) : Option (BitVec 18 × Flags × Nat) :=
  after i (slotted (encode op 2 3 7 0 imm) ((uregs.setW 3 (dataWord x)).setW 7 (dataWord y)) 2) 2

/-- A result of tag 0b01 with flags Z N C V, at the next slot. -/
def gives (x : BitVec 16) (z n c v : Bool) : Option (BitVec 18 × Flags × Nat) := some (dataWord x, ⟨z, n, c, v, false, false⟩, 1)

theorem test_add_wraps : computes 0x0C (.add (.spe 3) 2 3 7) 0xFFFF 2 = gives 1 false false true false := by decide +kernel
theorem test_add_overflows : computes 0x0C (.add (.spe 3) 2 3 7) 0x7FFF 1 = gives 0x8000 false true false true := by decide +kernel
theorem test_sub_borrows : computes 0x0E (.sub (.spe 3) 2 3 7) 1 2 = gives 0xFFFF false true false false := by decide +kernel
theorem test_sub_overflows : computes 0x0E (.sub (.spe 3) 2 3 7) 0x8000 1 = gives 0x7FFF false false true true := by decide +kernel
theorem test_sbc_borrows : computes 0x0F (.sbc (.spe 3) 2 3 7) 5 5 = gives 0xFFFF false true false false := by decide +kernel
theorem test_mul_wide : computes 0x1E (.mul (.spe 3) 2 3 7) 0xFFFF 0xFFFF = gives 1 false true true false := by decide +kernel
theorem test_and_clears : computes 0x10 (.and (.spe 3) 2 3 7) 0xF0F0 0x0F0F = gives 0 true false false false := by decide +kernel

/-- The same of an instruction with an immediate. -/
def computesI (op : Nat) (i : Instr) (x : BitVec 16) (imm : Nat) : Option (BitVec 18 × Flags × Nat) :=
  after i (slotted (encode op 2 3 0 0 imm) (uregs.setW 3 (dataWord x)) 2) 2

theorem test_shl_carry : computesI 0x1B (.shl (.spe 3) 2 3 1) 0xC000 1 = gives 0x8000 false true true false := by decide +kernel
theorem test_sar_fill : computesI 0x1D (.sar (.spe 3) 2 3 1) 0x8003 1 = gives 0xC001 false true true false := by decide +kernel
theorem test_ext_field : computesI 0x1F (.ext (.spe 3) 2 3 4 7) 0xABCD 0x74 = gives 0x00BC false false false false := by decide +kernel
theorem test_ins_drops : computesI 0x20 (.ins (.spe 3) 2 3 12 7) 0xABCD 0x7C = gives 0xD000 false true false false := by decide +kernel

/-! ### Slots, pop windows and the safe state -/

/-- Slot 5 in use in the active bank. -/
def slot5 : Dev := run.tabWrite run.nrm.active [(0x200002B, 0x80)]

theorem witness_freshWrites : slot5.slotInUse slot5.nrm.active 5 = true ∧ slot5.slotInUse slot5.nrm.active 6 = false := by decide

/-- A window with an item of class 2 behind one of class 1. -/
def window : PopWin := ⟨[(1, [Word.mk 3 9]), (2, [Word.mk 2 7, Word.mk 3 8])], [], 0x3FFF, [], 0⟩

theorem witness_popWindows :
    window.cut = 0 ∧ window.cur = [] ∧ bestWin window.items = some (2, [Word.mk 2 7, Word.mk 3 8]) ∧
    ({ window with items := [] } : PopWin).items = [] ∧ window.pop.2.cur ≠ [] := by decide
/-- R419: the counter rolls over. -/
theorem test_pops : (PopWin.pops 2 window).1 = [(0x3FFF : BitVec 14) ++ Word.mk 2 7, (0 : BitVec 14) ++ Word.mk 3 8] := by decide

theorem witness_safeState : causeClass 0x1C = 5 ∧ run.on 0x001 Reg.PCH_SAFE.ACTIVE = false := by decide

end Sys2Proof.Machine.Tests
end

/-! SUPPORT. The statements of spec/02_architecture.md: the register bus and its clocks (R49, R51, R97, R482), the accesses, the
header commands (R78 to R86) and the clock commands. -/

namespace Sys2Proof.Machine

open Sys2Proof

/-! ### Commands of the fast domains -/

/-- A command of the fast domains completes with what its effect makes of the block. -/
theorem Completes.ofEffect {i : Instr} {s : State} {f : Dev → Dev} {e : Dev} (hi : exec i s = onDevL f s) (hr : s.Runs)
    (he : f s.dev = e) : Completes i s e :=
  he ▸ Completes.ofFast hi hr

/-- Commands that do the same in a state complete alike. -/
theorem Completes.congr {i j : Instr} {s : State} {e : Dev} (h : exec i s = exec j s) (hj : Completes j s e) : Completes i s e :=
  Eq.trans h hj

/-- The outcome of a command of the fast domains depends on its effect on the present block alone. -/
theorem onDevL_congr {f g : Dev → Dev} {s : State} (h : f s.dev = g s.dev) : onDevL f s = onDevL g s := by
  simp only [onDevL, h]

/-! ### Accesses of the register bus (R51, R429, R430, R482) -/

/-- Nothing goes on where nothing waits. -/
theorem Dev.drainBus_of_empty {d : Dev} (h : d.sty.busQ = []) : d.drainBus = d := by
  rw [Dev.drainBus, h, List.length_nil, Dev.drainN]

/-- R49, R51: an access finds no clock stopped while the clocks of both domains run. -/
theorem Dev.stopsFor_of_clocks {d : Dev} (hc : d.pwr.coreStopped = false) (he : d.pwr.engineStopped = false) (a : Access) :
    d.stopsFor a = false := by
  unfold Dev.stopsFor
  split
  · simp [Dev.pageStopped, hc, he]
  · exact hc

/-- R51, R482: with the bus free, an access that reaches it is the read or the write. -/
theorem State.BusFree.access_eq {s : State} (h : s.BusFree) {a : Access} {write : Bool} (hr : s.dev.reaches a.via write = true) :
    s.dev.access a write = if write then s.dev.writeNow a else s.dev.readNow a := by
  obtain ⟨hby, hq, hc, he⟩ := h
  simp [Dev.access, Dev.drainBus_of_empty hq, hr, hby, Dev.stopsFor_of_clocks hc he a]

/-- R51, R482: an access waits while the bus is held or its clock is stopped. -/
theorem Dev.access_waits {d : Dev} {a : Access} {write : Bool} (hq : d.sty.busQ = []) (hr : d.reaches a.via write = true)
    (hw : (d.sty.busBy.isSome || d.stopsFor a) = true) : d.access a write = d.awaitBus a.via (.own a write) := by
  simp [Dev.access, Dev.drainBus_of_empty hq, hr, hw]

/-- R88, R51: REGISTER_READ with the bus free. -/
theorem Completes.registerRead {s : State} {a : Access} (hs : s.Runs) (h : s.BusFree) (hr : s.dev.reaches a.via false = true) :
    Completes (.registerRead a) s (s.dev.readNow a) :=
  .ofEffect (exec_registerRead a s) hs (h.access_eq hr)

/-- R88, R51: REGISTER_WRITE with the bus free. -/
theorem Completes.registerWrite {s : State} {a : Access} (hs : s.Runs) (h : s.BusFree) (hr : s.dev.reaches a.via true = true) :
    Completes (.registerWrite a) s (s.dev.writeNow a) :=
  .ofEffect (exec_registerWrite a s) hs (h.access_eq hr)

/-- R51, R482: REGISTER_READ or REGISTER_WRITE that has to wait. -/
theorem Completes.registerAccess_waits {s : State} {a : Access} {write : Bool} (hs : s.Runs) (hq : s.dev.sty.busQ = [])
    (hr : s.dev.reaches a.via write = true) (hw : (s.dev.sty.busBy.isSome || s.dev.stopsFor a) = true) :
    Completes (if write then .registerWrite a else .registerRead a) s (s.dev.awaitBus a.via (.own a write)) := by
  cases write with
  | false => exact .ofEffect (exec_registerRead a s) hs (Dev.access_waits hq hr hw)
  | true => exact .ofEffect (exec_registerWrite a s) hs (Dev.access_waits hq hr hw)

/-! ### The rows that name a kind of register: each is the plain access at a register of its kind -/

section
variable {s : State} {a : Access}

/-- R70: CLEARING_READ of an RC register. -/
theorem exec_clearingRead_of_names (h : s.dev.names a (fun f => f.acc == .rc) = true) :
    exec (.clearingRead a) s = exec (.registerRead a) s := by
  rw [exec_clearingRead, exec_registerRead]
  exact onDevL_congr (if_pos h)

/-- R419: POP of a pop window. -/
theorem exec_pop_of_names (h : s.dev.names a (fun f => f.acc == .rp) = true) : exec (.pop a) s = exec (.registerRead a) s := by
  rw [exec_pop, exec_registerRead]
  exact onDevL_congr (if_pos h)

/-- R421: PUSH of a push window. -/
theorem exec_push_of_names (h : s.dev.names a (fun f => f.acc == .wp) = true) : exec (.push a) s = exec (.registerWrite a) s := by
  rw [exec_push, exec_registerWrite]
  exact onDevL_congr (if_pos h)

/-- R93: COUNTER_SNAPSHOT_READ of the lowest part of a 64-bit counter. -/
theorem exec_counterSnapshotRead_of_wide {p : PageId} {off : Nat} (hp : s.dev.spotOf a.via a.addr = .reg p off)
    (hw : wideAt p off = some off) (hl : accHigh a = false) : exec (.counterSnapshotRead a) s = exec (.registerRead a) s := by
  rw [exec_counterSnapshotRead, exec_registerRead]
  exact onDevL_congr (by simp [hp, hw, hl])

/-- R220: SHADOW_WRITE to a shadow window. -/
theorem exec_shadowWrite_of_shadow {w : WinPlace} (hp : s.dev.spotOf a.via a.addr = .table w) (hw : w.shadow = true) :
    exec (.shadowWrite a) s = exec (.registerWrite a) s := by
  rw [exec_shadowWrite, exec_registerWrite]
  exact onDevL_congr (by simp [hp, hw])

/-- R221: DUAL_WRITE to a dual-write window. -/
theorem exec_dualWrite_of_dual {w : WinPlace} (hp : s.dev.spotOf a.via a.addr = .table w) (hw : w.shadow = false) :
    exec (.dualWrite a) s = exec (.registerWrite a) s := by
  rw [exec_dualWrite, exec_registerWrite]
  exact onDevL_congr (by simp [hp, hw])

/-- R99, R478: REMOTE_ACCESS of a place of another device. -/
theorem exec_remoteAccess_of_remote {dev off : Nat} (hp : s.dev.spotOf a.via a.addr = .remote dev off) (write : Bool) :
    exec (.remoteAccess a write) s = exec (if write then .registerWrite a else .registerRead a) s := by
  have effect : execRemoteAccess a write s = onDevL (fun d => d.access a write) s := onDevL_congr (by simp [hp])
  rw [exec_remoteAccess, effect]
  cases write with
  | false => exact (exec_registerRead a s).symm
  | true => exact (exec_registerWrite a s).symm

end

/-- Settles O11: with the bus free each row is the read or the write of its place, and else the access waits. -/
theorem registerAccessesComplete : Obligations.RegisterAccessesComplete := by
  intro s a hs
  refine ⟨fun hfree => ?_, fun write hq hr hw => .registerAccess_waits hs hq hr hw⟩
  have read := fun h => Completes.registerRead (a := a) hs hfree h
  have write := fun h => Completes.registerWrite (a := a) hs hfree h
  exact ⟨read, write,
    fun hr hn => (read hr).congr (exec_clearingRead_of_names hn),
    fun _ _ hr hp hw hl => (read hr).congr (exec_counterSnapshotRead_of_wide hp hw hl),
    fun hr hn => (read hr).congr (exec_pop_of_names hn),
    fun hr hn => (write hr).congr (exec_push_of_names hn),
    fun _ hr hp hw => (write hr).congr (exec_shadowWrite_of_shadow hp hw),
    fun _ hr hp hw => (write hr).congr (exec_dualWrite_of_dual hp hw),
    fun _ _ hr hp => ⟨(write hr).congr (exec_remoteAccess_of_remote hp true),
      fun hr' => (read hr').congr (exec_remoteAccess_of_remote hp false)⟩⟩

/-! ### Commands that are the access of one named register (R97, R429, R430, R482) -/

section
variable {i : Instr} {s : State} {write : Bool} {cmd : NamedCmd} {via : Via} {p : PageId} {f : Dev → Dev}

/-- The command of a source that reaches the page takes effect on the bus. -/
theorem Completes.ofBus (hi : exec i s = onBusFor write cmd via p f s) (hs : s.Runs) (h : s.Reached via p write) :
    Completes i s (f (s.dev.entered via)) := by
  obtain ⟨hm, hr, hby, hc⟩ := h
  exact .ofEffect hi hs (by simp [hm, hr, hby, hc])

/-- A page outside the map of the source, or an earlier access that is held, leaves the command without effect. -/
theorem Completes.ofBus_unreached (hi : exec i s = onBusFor write cmd via p f s) (hs : s.Runs)
    (h : viaMaps via p = false ∨ s.dev.reaches via write = false) : Completes i s s.dev :=
  .ofEffect hi hs (if_pos (by simpa using h))

/-- The command waits while an AtomicOp has the bus, or the clock of the page is stopped. -/
theorem Completes.ofBus_waits (hi : exec i s = onBusFor write cmd via p f s) (hs : s.Runs) (hm : viaMaps via p = true)
    (hr : s.dev.reaches via write = true) (hw : (s.dev.sty.busBy.isSome || s.dev.pageStopped p) = true) :
    Completes i s (s.dev.awaitBus via (.named via cmd)) :=
  .ofEffect hi hs (by simp [hm, hr, hw])

end

/-! ### The effects of the header commands (R78 to R86) -/

/-- R66: on a page that is present, a command has its effect. -/
theorem Dev.onPage_of_present {pg : PageRef} (h : pagePresent (PageRef.id pg) = true) (d : Dev) (f : Dev → Dev) :
    d.onPage pg f = f d :=
  if_pos h

/-- R86: on a page that is not locked, a write applies. -/
theorem Dev.unlocked_of_not_locked {d : Dev} {p : PageId} (h : d.locked p = false) (f : Dev → Dev) : d.unlocked p f = f d := by
  simp [Dev.unlocked, h]

/-- R82, R83: a take of an activity that nothing stands in the way of. -/
theorem Dev.maintTake_of_free {d : Dev} {p : PageId} {act : Nat} (hlo : 1 ≤ act) (hhi : act ≤ 11)
    (hb : d.maintBlock p act = none) (src : Nat) : d.maintTake p act src = (true, d.setMaint p ⟨some (act, src), none⟩) := by
  have hact : ¬(act = 0 ∨ 11 < act) := by omega
  simp only [Dev.maintTake, if_neg hact, hb]

/-- R83: ACT of five bits reads back as it was written. -/
theorem Dev.rd_wr_act (d : Dev) (p : PageId) (act : BitVec 5) :
    (d.wr p Reg.PG_MAINT.ACT act.toNat).rd p Reg.PG_MAINT.ACT = act.toNat := by
  rw [Dev.rd_wr_same _ _ _ _ _ (by decide)]
  exact Nat.mod_eq_of_lt act.isLt

/-- R84: the holder gives its token back. -/
theorem Dev.dropToken_of_holder {d : Dev} {p : PageId} {x src : Nat} (h : (d.maintOf p).held = some (x, src)) :
    d.dropToken p src = d.setMaint p { d.maintOf p with held := none } := by
  simp [Dev.dropToken, h]

/-! Each header command is the access of a register of its page. -/

theorem exec_eventInject_eq (via pg data s) : exec (.eventInject via pg data) s =
    onBus (.eventInject pg data) via (PageRef.id pg) (fun d => d.onPage pg fun d => d.inject (PageRef.id pg) data.toNat) s := by
  rw [exec_eventInject, execEventInject]

theorem exec_pgEvtClear_eq (via pg data s) : exec (.pgEvtClear via pg data) s =
    onBus (.pgEvtClear pg data) via (PageRef.id pg) (fun d => d.onPage pg fun d => d.evtClear (PageRef.id pg) data.toNat) s := by
  rw [exec_pgEvtClear, execPgEvtClear]

theorem exec_take_eq (via pg act s) : exec (.take via pg act) s =
    onBus (.take pg act) via (PageRef.id pg) (fun d => d.onPage pg fun d =>
      (d.wr (PageRef.id pg) Reg.PG_MAINT.ACT act.toNat).takeToken (PageRef.id pg) (viaCode via)) s := by
  rw [exec_take, execTake]

theorem exec_drop_eq (via pg s) : exec (.drop via pg) s =
    onBus (.drop pg) via (PageRef.id pg) (fun d => d.onPage pg fun d => d.dropToken (PageRef.id pg) (viaCode via)) s := by
  rw [exec_drop, execDrop]

theorem exec_pgLockWrite_eq (via pg data s) : exec (.pgLockWrite via pg data) s =
    onBus (.pgLockWrite pg data) via (PageRef.id pg)
      (fun d => d.onPage pg fun d => d.lockWrite (PageRef.id pg) data.toNat (2 ^ 32 - 1)) s := by
  rw [exec_pgLockWrite, execPgLockWrite]

/-- A write of a header register of a present page that its source reaches has the effect of the register. -/
theorem Completes.ofPageWrite {i : Instr} {s : State} {cmd : NamedCmd} {via : Via} {pg : PageRef} {f : Dev → Dev} {e : Dev}
    (hi : exec i s = onBus cmd via (PageRef.id pg) (fun d => d.onPage pg f) s) (hs : s.Runs)
    (hpg : pagePresent (PageRef.id pg) = true) (h : s.Reached via (PageRef.id pg)) (he : f (s.dev.entered via) = e) :
    Completes i s e := by
  have effect := Completes.ofBus hi hs h
  rwa [Dev.onPage_of_present hpg, he] at effect

/-- Settles O13: a header command that reaches a present page has the effect of its register; else it waits or has none. -/
theorem headerCommandsComplete : Obligations.HeaderCommandsComplete := by
  intro s via pg data act hs hpg
  refine ⟨.ofBus_unreached (exec_eventInject_eq ..) hs,
    fun hm hr hc => .ofBus_waits (exec_eventInject_eq ..) hs hm hr (by simp [hc]),
    fun h => ⟨fun hl => ?inject, ?clear, fun hlo hhi hb => ?take, fun x hx => ?drop, ?lock⟩⟩
  case inject => exact .ofPageWrite (exec_eventInject_eq ..) hs hpg h (Dev.unlocked_of_not_locked hl _)
  case clear => exact .ofPageWrite (exec_pgEvtClear_eq ..) hs hpg h rfl
  case take =>
    refine .ofPageWrite (exec_take_eq ..) hs hpg h ?_
    rw [Dev.takeToken, Dev.rd_wr_act, Dev.maintTake_of_free hlo hhi hb]
  case drop => exact .ofPageWrite (exec_drop_eq ..) hs hpg h (Dev.dropToken_of_holder hx)
  case lock => exact .ofPageWrite (exec_pgLockWrite_eq ..) hs hpg h rfl

/-! ### Clock stops and restarts (R49, R51) -/

/-- R49: the clock of a domain stops. -/
def Dev.domStop (d : Dev) : ClockDom → Dev
  | .core => d.setPwr { d.pwr with coreStopped := true }
  | .engine => d.setPwr { d.pwr with engineStopped := true }

/-- R49: a domain that is idle in Reefed, and for which nothing arrives, stops its clock. -/
theorem Completes.clockStop {s : State} {dom : ClockDom} (hs : s.Runs) (hp : s.dev.pwr.power = .reefed)
    (hi : s.dev.domIdle dom = true) : Completes (.clockStop dom false) s (s.dev.domStop dom) := by
  refine .ofEffect (exec_clockStop ..) hs ?_
  cases dom with
  | core => simp [hp, hi, Dev.domStop]
  | engine => simp [hp, hi, Dev.domStop]

/-- R49, R51: a domain whose clock restarts lets the accesses that waited for it go on. -/
theorem Completes.domainRestart {s : State} (dom : ClockDom) (hs : s.Runs) :
    Completes (.domainRestart dom) s (s.dev.domRestart dom).drainBus :=
  .ofEffect (exec_domainRestart ..) hs rfl

/-- Settles O14: an idle domain stops in Reefed, and a restart lets the accesses that waited go on. -/
theorem clockCommandsComplete : Obligations.ClockCommandsComplete :=
  fun _ hs => ⟨.clockStop (dom := .core) hs, .clockStop (dom := .engine) hs, .domainRestart .core hs, .domainRestart .engine hs⟩

end Sys2Proof.Machine

/-! SUPPORT. The statements of spec/03_register_pages.md: where an access lands (R66, R94, R100), the fields at an offset, writes of
RW fields under and without the lock (R11, R86, R88), events (R78, R79), the window of tagged pushes (R103), and AtomicOps outside the
remote windows (R98). -/

namespace Sys2Proof.Machine

open Sys2Proof

/-! ### Events (R78, R79) -/

/-- PG_EVT is no bit of HBR_LHP_IRQ. -/
theorem evtKey_ne_pending (p : PageId) : Reg.PG_EVT.EVT.key p 0 ≠ Reg.HBR_LHP_IRQ.PENDING.key 0x01F 0 :=
  fieldKey_ne (by decide) (by decide) (by decide) (by decide) (.inr (.inl (by decide)))

/-- R78: PG_EVT holds the events latched before, and the new ones. -/
theorem Dev.latch_evt (d : Dev) (p : PageId) {mask : Nat} (h : mask < 2 ^ 32) :
    (d.latch p mask).rd p Reg.PG_EVT.EVT = Nat.lor (d.rd p Reg.PG_EVT.EVT) mask := by
  have stored : (d.wr p Reg.PG_EVT.EVT (Nat.lor (d.rd p Reg.PG_EVT.EVT) mask)).rd p Reg.PG_EVT.EVT =
      Nat.lor (d.rd p Reg.PG_EVT.EVT) mask :=
    (Dev.rd_wr_same _ _ _ _ _ (by decide)).trans (Nat.mod_eq_of_lt (Nat.or_lt_two_pow (BitVec.isLt _) h))
  unfold Dev.latch
  split
  case isTrue h0 => subst h0; exact (Nat.or_zero _).symm
  case isFalse =>
    simp only [Dev.watching]
    split
    · exact (Dev.requestPage_rd _ _ _ _ _ (evtKey_ne_pending p)).trans stored
    · exact stored

/-- Settles O19: PG_EVT takes the union, and the two laws of `Dev.latch` give the frame. -/
theorem eventsAreLatched : Obligations.EventsAreLatched :=
  fun d p q mask i f hmask => ⟨d.latch_evt p hmask, d.latch_rd p mask q f i, d.latch_signals p mask⟩

/-! ### Entry to the register bus changes nothing that an access reads -/

section
variable (d : Dev) (via v : Via)

@[simp] theorem Dev.entered_rd (p : PageId) (f : Fld) (i : Nat) : (d.entered v).rd p f i = d.rd p f i := rfl
@[simp] theorem Dev.entered_locked (p : PageId) : (d.entered v).locked p = d.locked p := rfl
@[simp] theorem Dev.entered_sty : (d.entered v).sty = d.sty := rfl
@[simp] theorem Dev.entered_spotOf (addr : Nat) : (d.entered v).spotOf via addr = d.spotOf via addr := rfl

end

/-! ### AtomicOps outside the remote windows (R98) -/

/-- R98: an AtomicOp of a virtual function, or outside the remote windows, is an Unsupported Request. -/
theorem Dev.atomNow_elsewhere (d : Dev) {fn : Fin 64} {addr : Nat} (h : fn.val ≠ 0 ∨ addr < 0x1000000 ∨ 0x1FFFFFF < addr)
    (op : AtomOp) (wide : Bool) : d.atomNow fn addr op wide = d.emitWire (.atomicUr fn.val) := by
  have outside : ¬(fn.val = 0 ∧ between 0x1000000 0x1FFFFFF addr = true) := by
    simp only [between, Bool.and_eq_true, Nat.ble_eq]
    omega
  simp only [Dev.atomNow, if_neg outside]

/-- R98, R482: ATOMICOP that finds the register bus free. -/
theorem Completes.atomicop {s : State} (hs : s.Runs) (hby : s.dev.sty.busBy = none) (hq : s.dev.sty.busQ = []) (fn : Fin 64)
    (addr : Nat) (op : AtomOp) (wide : Bool) :
    Completes (.atomicop fn addr op wide) s ((s.dev.entered (.pcie fn)).atomNow fn addr op wide) := by
  refine .ofEffect (exec_atomicop ..) hs ?_
  rw [Dev.drainBus_of_empty (by simp [hq])]
  simp [hby]

/-- Settles O52: with the bus free the AtomicOp applies at once, and outside the remote windows it is an Unsupported Request. -/
theorem atomicOpsElsewhereHaveNoEffect : Obligations.AtomicOpsElsewhereHaveNoEffect := by
  intro s fn addr op wide hs hby hq h
  rw [← Dev.atomNow_elsewhere _ h op wide]
  exact .atomicop hs hby hq fn addr op wide

/-! ### Where an access lands (R66, R94, R100) -/

/-- R64: an offset of a present block page. -/
theorem blockSpot_of_present {p off : Nat} (hp : blockPagePresent p = true) (hoff : off < 0x1000) (ha : off % 4 = 0) :
    blockSpot (0x1000 * p + off) = .reg p off := by
  have page : (0x1000 * p + off) / 0x1000 = p := by omega
  have low : (0x1000 * p + off) % 0x1000 / 4 * 4 = off := by omega
  rw [blockSpot, page, low, if_pos hp]

/-- R66: an absent block page. -/
theorem blockSpot_of_absent {a : Nat} (h : blockPagePresent (a / 0x1000) = false) : blockSpot a = .hole := by
  simp [blockSpot, h]

/-- R94: the Masthead controller reaches the block pages from address 0. -/
theorem Dev.spotOf_mh_block (d : Dev) {addr : Nat} (h : addr < 0x100000) : d.spotOf .mh addr = blockSpot addr := if_pos h

/-- R100: the LHP reaches page 0x01F from address 0xF000. -/
theorem Dev.spotOf_lhp_own (d : Dev) {off : Nat} (hoff : off < 0x1000) (ha : off % 4 = 0) :
    d.spotOf .lhp (0xF000 + off) = .reg 0x01F off := by
  have bar : d.barAddr .lhp (0xF000 + off) = some (0x1000 * 0x01F + off) := by
    have sub : 0x1F000 + (0xF000 + off - 0xF000) = 0x1000 * 0x01F + off := by omega
    rw [← sub]
    exact (if_neg (by omega)).trans (if_pos (by omega))
  have below : 0x1000 * 0x01F + off < 0x100000 := by omega
  rw [Dev.spotOf, bar]
  exact (if_pos below).trans (blockSpot_of_present (by decide) hoff ha)

/-- A write of a register. -/
theorem Dev.writeNow_of_reg {d : Dev} (a : Access) {p : PageId} {off : Nat} (h : d.spotOf a.via a.addr = .reg p off) :
    d.writeNow a = (d.entered a.via).regWrite a.via p off (accEnables a) (accDword a) (accTag a) := by
  simp [Dev.writeNow, Dev.spotWrite, h]

/-- R66: a write to an absent page or a reserved region. -/
theorem Dev.writeNow_of_hole {d : Dev} (a : Access) (h : d.spotOf a.via a.addr = .hole) :
    d.writeNow a = (d.entered a.via).unmapped := by
  simp [Dev.writeNow, Dev.spotWrite, h]

section
variable {d : Dev} {addr : Nat} {be : BitVec 4} {data : BitVec 32}

/-- A write of a register by the Masthead controller. -/
theorem Dev.writeNow_mh_of_reg {p : PageId} {off : Nat} (h : d.spotOf .mh addr = .reg p off) :
    d.writeNow ⟨.mh, addr, be, data, 0⟩ = (d.entered .mh).regWrite .mh p off be data (data.extractLsb' 16 2) :=
  Dev.writeNow_of_reg ⟨.mh, addr, be, data, 0⟩ h

/-- R88: REGISTER_WRITE of the Masthead controller with the bus free. -/
theorem Completes.mhWrite {s : State} {e : Dev} (hs : s.Runs) (hfree : s.BusFree)
    (he : s.dev.writeNow ⟨.mh, addr, be, data, 0⟩ = e) : Completes (.registerWrite ⟨.mh, addr, be, data, 0⟩) s e :=
  he ▸ .registerWrite hs hfree rfl

/-- R88: REGISTER_READ of the Masthead controller with the bus free. -/
theorem Completes.mhRead {s : State} {e : Dev} (hs : s.Runs) (hfree : s.BusFree)
    (he : s.dev.readNow ⟨.mh, addr, be, data, 0⟩ = e) : Completes (.registerRead ⟨.mh, addr, be, data, 0⟩) s e :=
  he ▸ .registerRead hs hfree rfl

/-- R66: a read of an absent page or a reserved region by the Masthead controller. -/
theorem Dev.readNow_of_hole (h : d.spotOf .mh addr = .hole) :
    d.readNow ⟨.mh, addr, be, data, 0⟩ = (d.entered .mh).unmapped.emitWire (.read .mh 0 0) := by
  have here : (d.entered .mh).spotOf .mh addr = .hole := h
  simp [Dev.readNow, accHigh, Dev.readMore, Dev.readDword, here, Dev.tsHolds, Dev.readWith, brokenRead, Dev.spotRead, Dev.readBack]

/-- A read of one whole dword of a register by the Masthead controller returns the dword, with the side effect of the read. -/
theorem Dev.readNow_of_reg {p : PageId} {off : Nat} (h : d.spotOf .mh addr = .reg p off) :
    d.readNow ⟨.mh, addr, 0xF, data, 0⟩ = ((d.entered .mh).regRead .mh p off).2.emitWire
      (.read .mh 0 ((d.entered .mh).regRead .mh p off).1) := by
  have here : (d.entered .mh).spotOf .mh addr = .reg p off := h
  simp [Dev.readNow, accHigh, Dev.readMore, Dev.readDword, here, Dev.tsHolds, viaCode, Dev.readWith, brokenRead, Dev.spotRead,
    Dev.readBack]

end

/-! ### Undefined offsets (R66) -/

/-- R66: neither the offset nor, in the zone of mirrors, the one that it mirrors is defined. -/
abbrev Undefined (p : PageId) (off : Nat) : Prop :=
  if inMirrors off then offDefined p (off + 0x800) = false else offDefined p off = false

/-- A number below a range. -/
theorem between_of_lt {lo hi p : Nat} (h : p < lo) : between lo hi p = false := by
  rw [between, Bool.and_eq_false_iff, ← Bool.not_eq_true, Nat.ble_eq]
  exact .inl (Nat.not_le.mpr h)

/-- A number above a range. -/
theorem between_of_gt {lo hi p : Nat} (h : hi < p) : between lo hi p = false := by
  rw [between, Bool.and_eq_false_iff, ← Bool.not_eq_true, ← Bool.not_eq_true, Nat.ble_eq, Nat.ble_eq]
  exact .inr (Nat.not_le.mpr h)

/-- R444: a block page is no Sentence Window and no doorbell page. -/
theorem Dev.noInst_of_block (d : Dev) {p : PageId} (hp : p < 0x100) (off : Nat) : d.noInst p off = false := by
  have win : between 0x500 0x53F p = false := between_of_lt (Nat.lt_of_lt_of_le hp (by decide))
  have db : between 0x900 0x93F p = false := between_of_lt (Nat.lt_of_lt_of_le hp (by decide))
  simp [Dev.noInst, win, db]

/-- R66: a whole dword written at an undefined offset of a block page. -/
theorem Dev.regWrite_of_undefined (d : Dev) (via : Via) {p : PageId} {off : Nat} (hp : p < 0x100) (h : Undefined p off)
    (data : BitVec 32) (tag : Tag) : d.regWrite via p off 0xF data tag = d.raise p 3 := by
  unfold Undefined at h
  split at h
  case isTrue hm => simp [Dev.regWrite, Dev.noInst_of_block d hp, hm, h]
  case isFalse hm => simp [Dev.regWrite, Dev.noInst_of_block d hp, hm, h]

/-- R66: a read at an undefined offset. -/
theorem Dev.regRead_of_undefined (d : Dev) (via : Via) {p : PageId} {off : Nat} (h : Undefined p off) :
    d.regRead via p off = (0, d.raise p 3) := by
  unfold Undefined at h
  split at h
  case isTrue hm => simp [Dev.regRead, hm, h]
  case isFalse hm => simp [Dev.regRead, hm, h]

/-- Settles O15: a hole raises UNMAPPED on page 0x010, an absent block page is a hole, and an undefined offset raises it on its
own page. -/
theorem anAbsentPageDiscardsWrites : Obligations.AnAbsentPageDiscardsWrites := by
  intro s addr be data hs hfree d
  refine ⟨fun h => ⟨.mhWrite hs hfree (Dev.writeNow_of_hole _ h), .mhRead hs hfree (Dev.readNow_of_hole h)⟩,
    fun hlt habs => (s.dev.spotOf_mh_block hlt).trans (blockSpot_of_absent habs), ?_⟩
  intro p off h hp hbe hundef
  subst hbe
  refine ⟨.mhWrite hs hfree ?_, .mhRead hs hfree ?_⟩
  · rw [Dev.writeNow_mh_of_reg h, Dev.regWrite_of_undefined _ _ hp hundef]
  · rw [Dev.readNow_of_reg h, Dev.regRead_of_undefined _ _ hundef]

/-! ### The fields at an offset -/

/-- The fields of the register at `off` of page `p`, each with the number of its element there. -/
def fieldsAt (p : PageId) (off : Nat) : List (Fld × Nat) := (fieldsOf p).filterMap fun f => (f.elemAt off).map fun i => (f, i)

section
variable {p : PageId} {off i : Nat} {f : Fld} (h : fieldsAt p off = [(f, i)])
include h

/-- The one field of a register has its element there. -/
theorem elemAt_of_single : f.elemAt off = some i := by
  have mem : (f, i) ∈ fieldsAt p off := by simp [h]
  obtain ⟨g, -, hg⟩ := List.mem_filterMap.mp mem
  obtain ⟨j, hj, heq⟩ := Option.map_eq_some_iff.mp hg
  cases heq
  exact hj

/-- A pass over the fields of a page that acts on those at an offset alone, at a register of one field. -/
theorem foldl_fieldsOf_of_single {α : Type} (act : α → Fld → α) (hact : ∀ a g, g.elemAt off = none → act a g = a) (a : α) :
    (fieldsOf p).foldl act a = act a f := by
  have pass : (fieldsOf p).foldl act a = (fieldsAt p off).foldl (fun a x => act a x.1) a := by
    rw [fieldsAt, List.foldl_filterMap]
    refine congrArg (fun g => (fieldsOf p).foldl g a) (funext fun a => funext fun g => ?_)
    cases hg : g.elemAt off with
    | none => exact hact a g hg
    | some j => rfl
  rw [pass, h]
  rfl

/-- A register of one field has what the field has. -/
theorem regHas_of_single (ok : Fld → Bool) : regHas p off ok = ok f := by
  have any : regHas p off ok = (fieldsAt p off).any fun x => ok x.1 := by
    rw [regHas, fieldsAt, List.any_filterMap]
    refine congrArg (fieldsOf p).any (funext fun g => ?_)
    cases g.elemAt off with
    | none => rfl
    | some j => simp
  rw [any, h]
  simp

/-- A write of the W1C fields leaves a register whose one field is of another kind. -/
theorem Dev.clearOnes_of_single (hf : f.acc ≠ .w1c) (d : Dev) (v : Nat) : d.clearOnes p off v = d := by
  rw [Dev.clearOnes, foldl_fieldsOf_of_single h _ fun a g hg => by simp only [hg]]
  simp [elemAt_of_single h, hf]

/-- R11, R88: a write of a register of one RW field stores it, on a page that is no scheduler's. -/
theorem Dev.rwWrite_of_single (hp : between 0x038 0x03F p = false) (hf : f.acc = .rw) (hl : f ≠ Reg.PG_LOCK.LOCK) {mask : Nat}
    (hm : f.inMask mask = true) (d : Dev) (via : Via) (v : Nat) :
    d.rwWrite via (fun _ => true) p off v mask =
      d.watching p fun d => d.writeActs (d.putRw via p f i (f.merged (d.oldOf via p f i) v mask)) p off := by
  refine congrArg (d.watching p) (funext fun d => ?_)
  have noShape : d.shapePage p = d := by simp [Dev.shapePage, hp]
  have noGate : ∀ e : Dev, e.gatePage p = e := fun e => by simp [Dev.gatePage, hp]
  dsimp only
  rw [noShape, noGate, foldl_fieldsOf_of_single h _ fun a g hg => by simp only [hg]]
  simp [elemAt_of_single h, hf, hl, hm]

end

/-! ### Writes of RW registers (R11, R86, R88) -/

/-- A write that leaves what page `p` wants raises no request. -/
theorem Dev.watching_of_wants {d : Dev} {p : PageId} {f : Dev → Dev} (h : (f d).wants p = d.wants p) : d.watching p f = f d := by
  simp [Dev.watching, h]

/-- R79: what a page wants stands in header fields. -/
theorem Dev.wants_wr_body (d : Dev) (p q : PageId) {f : Fld} {i : Nat} (hlo : 0x040 ≤ f.off + f.step * i)
    (hhi : f.off + f.step * i < 4096) (hbit : f.lo < 32) (v : Nat) : (d.wr p f v i).wants q = d.wants q := by
  have kept : ∀ g : Fld, g.off + g.step * 0 < 0x040 → g.lo < 32 → (d.wr p f v i).rd q g = d.rd q g := fun g hg hl =>
    Dev.rd_wr_other _ _ _ _ _ _ _ _ (fieldKey_ne (by omega) hhi hl hbit (.inr (.inl (by omega))))
  simp only [Dev.wants, Dev.on]
  rw [kept _ (by decide) (by decide), kept _ (by decide) (by decide), kept _ (by decide) (by decide)]

/-- A write stores its value modulo the width of the field. -/
theorem Dev.wr_congr (d : Dev) (p : PageId) {f : Fld} {v w : Nat} (h : v % 2 ^ f.wid = w % 2 ^ f.wid) (i : Nat) :
    d.wr p f v i = d.wr p f w i := by
  simp only [Dev.wr, h]

/-- R86: where the lock discards a write, and no W1C or WO field lies beside the RW ones, LOCK_WR is all that it does. INST_CMD has
a rule of its own (R445). -/
theorem Dev.bodyWrite_of_lockDiscards {d : Dev} {p : PageId} {off mask : Nat} (hcmd : ¬(p = 0x100 ∧ off = 0x200))
    (hacts : (regHas p off fun f => f.acc == .w1c || f.acc == .wo) = false) (h : d.lockDiscards p off mask = true) (via : Via)
    (v : Nat) : d.bodyWrite via p off v mask = d.raise p 0 := by
  rw [Dev.bodyWrite, if_neg fun x => hcmd ⟨x.1, x.2.1⟩]
  simp [h, hacts]

/-- R88: a write that the lock does not discard stores the RW fields, and does what the register's writes do. -/
theorem Dev.bodyWrite_of_not_locked {d : Dev} {p : PageId} {off mask : Nat} (hcmd : ¬(p = 0x100 ∧ off = 0x200))
    (hrw : (regHas p off fun f => f.acc == .rw && f.inMask mask) = true) (h : d.locked p = false) (via : Via) (v : Nat) :
    d.bodyWrite via p off v mask = (d.rwWrite via (fun _ => true) p off v mask).regActs via p off v mask := by
  have free : d.lockDiscards p off mask = false := by simp [Dev.lockDiscards, h]
  rw [Dev.bodyWrite, if_neg fun x => hcmd ⟨x.1, x.2.1⟩]
  simp [free, Dev.rwLocked, hrw, Dev.unlocked_of_not_locked h]

/-- A write of a register of a block page between the header and the mirrors that is no push. -/
theorem Dev.regWrite_of_body (d : Dev) (via : Via) {p : PageId} {off : Nat} (hp : p < 0x100)
    (hoff : 0x040 ≤ off ∧ off < 0x400) (hdef : offDefined p off = true) (hpush : (regHas p off fun f => f.acc == .wp) = false)
    (be : BitVec 4) (data : BitVec 32) (tag : Tag) :
    d.regWrite via p off be data tag = d.bodyWrite via p off (Nat.land data.toNat (byteMask be)) (byteMask be) := by
  have below : inMirrors off = false ∧ inSideZone off = false := by
    refine ⟨between_of_lt hoff.2, ?_⟩
    rw [inSideZone, ← Bool.not_eq_true, Nat.ble_eq]
    omega
  simp [Dev.regWrite, Dev.noInst_of_block _ hp, below, hdef, hpush, Nat.not_lt.mpr hoff.1]

/-! ### STY_SCRATCH (R490) -/

/-- Dword `k` of STY_SCRATCH is one field. -/
theorem fieldsAt_scratch (k : Fin 4) : fieldsAt 0x060 (0x0E0 + 4 * k.val) = [(Reg.STY_SCRATCH.DATA, k.val)] := by
  revert k
  decide

/-- Any enabled byte lies in the field. -/
theorem scratch_inMask : ∀ be : BitVec 4, be ≠ 0 → Reg.STY_SCRATCH.DATA.inMask (byteMask be) = true := by decide

/-- The Masthead controller's address of dword `k` of STY_SCRATCH. -/
theorem Dev.spotOf_scratch (d : Dev) (k : Fin 4) : d.spotOf .mh (0x600E0 + 4 * k.val) = .reg 0x060 (0x0E0 + 4 * k.val) := by
  have split : 0x600E0 + 4 * k.val = 0x1000 * 0x060 + (0x0E0 + 4 * k.val) := by omega
  rw [Dev.spotOf_mh_block _ (by omega), split]
  exact blockSpot_of_present (by decide) (by omega) (by omega)

section
variable (d : Dev) (via : Via) (k : Fin 4) (be : BitVec 4) (data : BitVec 32) (tag : Tag)

/-- A write of STY_SCRATCH is one of a register between the header and the mirrors. -/
theorem Dev.regWrite_scratch : d.regWrite via 0x060 (0x0E0 + 4 * k.val) be data tag =
    d.bodyWrite via 0x060 (0x0E0 + 4 * k.val) (Nat.land data.toNat (byteMask be)) (byteMask be) :=
  Dev.regWrite_of_body _ _ (by decide) (by omega) (regHas_of_single (fieldsAt_scratch k) _)
    (regHas_of_single (fieldsAt_scratch k) _) ..

/-- R86: the lock of the page discards a write of STY_SCRATCH. -/
theorem Dev.regWrite_scratch_locked (hl : d.locked 0x060 = true) (hbe : be ≠ 0) :
    d.regWrite via 0x060 (0x0E0 + 4 * k.val) be data tag = d.raise 0x060 0 := by
  have covered : lockCovers (0x0E0 + 4 * k.val) = true := by
    revert k
    decide
  rw [Dev.regWrite_scratch]
  refine Dev.bodyWrite_of_lockDiscards (by simp) (regHas_of_single (fieldsAt_scratch k) _) ?_ ..
  simp [Dev.lockDiscards, hl, covered, regHas_of_single (fieldsAt_scratch k), scratch_inMask be hbe]

/-- STY_SCRATCH lives in the register map, and its table limits nothing. -/
theorem Dev.putRw_scratch (i x : Nat) : d.putRw via 0x060 Reg.STY_SCRATCH.DATA i x = d.wr 0x060 Reg.STY_SCRATCH.DATA x i := rfl

/-- A write of STY_SCRATCH sets nothing going. -/
theorem Dev.writeActs_scratch (e : Dev) : d.writeActs e 0x060 (0x0E0 + 4 * k.val) = e := by
  have header : 0x0E0 + 4 * k.val ≠ 0x008 := by omega
  have paths : ¬0x0E0 + 4 * k.val ≤ 0x0BF := by omega
  simp [Dev.writeActs, between, header, paths]

/-- R88: the RW write of STY_SCRATCH stores the enabled bytes. -/
theorem Dev.rwWrite_scratch {mask : Nat} (hm : Reg.STY_SCRATCH.DATA.inMask mask = true) (v : Nat) :
    d.rwWrite via (fun _ => true) 0x060 (0x0E0 + 4 * k.val) v mask =
      d.wr 0x060 Reg.STY_SCRATCH.DATA (Reg.STY_SCRATCH.DATA.merged (d.rd 0x060 Reg.STY_SCRATCH.DATA k.val) v mask) k.val := by
  rw [Dev.rwWrite_of_single (fieldsAt_scratch k) (by decide) rfl (by decide) hm]
  refine (Dev.watching_of_wants ?_).trans (d.writeActs_scratch k _)
  rw [Dev.writeActs_scratch, Dev.putRw_scratch]
  exact d.wants_wr_body 0x060 0x060 (by dsimp only; omega) (by dsimp only; omega) (by decide) _

/-- R11, R88: a write of STY_SCRATCH of a page that is not locked stores the enabled bytes. -/
theorem Dev.regWrite_scratch_unlocked (hl : d.locked 0x060 = false) (hbe : be ≠ 0) :
    d.regWrite via 0x060 (0x0E0 + 4 * k.val) be data tag =
      d.wr 0x060 Reg.STY_SCRATCH.DATA (Reg.STY_SCRATCH.DATA.merged (d.rd 0x060 Reg.STY_SCRATCH.DATA k.val)
        (Nat.land data.toNat (byteMask be)) (byteMask be)) k.val := by
  have hm := scratch_inMask be hbe
  have hrw : (regHas 0x060 (0x0E0 + 4 * k.val) fun f => f.acc == .rw && f.inMask (byteMask be)) = true := by
    rw [regHas_of_single (fieldsAt_scratch k), hm]
    rfl
  have acts : ∀ (d : Dev) (v mask : Nat), d.regActs via 0x060 (0x0E0 + 4 * k.val) v mask = d := by
    intro d v mask
    refine Eq.trans ?_ (Dev.clearOnes_of_single (fieldsAt_scratch k) (by decide) d v)
    simp [Dev.regActs, Dev.portActs, between, show (0x0E0 + 4 * k.val ≠ 0x04C) by omega]
  rw [Dev.regWrite_scratch, Dev.bodyWrite_of_not_locked (by simp) hrw hl, Dev.rwWrite_scratch _ _ _ hm, acts]

end

/-- Settles O16: the lock of page 0x060 discards the write of dword 0 of STY_SCRATCH. -/
theorem aLockedPageDiscardsWrites : Obligations.ALockedPageDiscardsWrites := by
  intro s be data hs hfree hl hbe
  exact .mhWrite hs hfree ((Dev.writeNow_mh_of_reg (s.dev.spotOf_scratch 0)).trans
    (Dev.regWrite_scratch_locked _ .mh 0 be data (data.extractLsb' 16 2) hl hbe))

/-! ### What a write of enabled bytes makes of a field (R88) -/

/-- R88: a write whose enabled bytes are the low ones keeps the other bits of a field of the whole register. -/
theorem merged_low {f : Fld} (hlo : f.lo = 0) (hwid : f.wid = 32) {n : Nat} (hn : n ≤ 32) (old v : Nat) :
    f.merged old (Nat.land v (2 ^ n - 1)) (2 ^ n - 1) = (2 ^ n * (old / 2 ^ n) + v % 2 ^ n) % 2 ^ 32 := by
  have small : 2 ^ n - 1 < 2 ^ 32 :=
    Nat.lt_of_lt_of_le (Nat.sub_lt (Nat.two_pow_pos n) (by decide)) (Nat.pow_le_pow_right (by decide) hn)
  have keep : ∀ i, (2 ^ 32 - 1 - (2 ^ n - 1)).testBit i = (decide (i < 32) && !(2 ^ n - 1).testBit i) := by
    intro i
    rw [Nat.sub_sub, Nat.add_comm 1]
    exact Nat.testBit_two_pow_sub_succ small i
  refine Nat.eq_of_testBit_eq fun i => ?_
  simp only [Fld.merged, hlo, hwid, Nat.pow_zero, Nat.mul_one, Nat.div_one, Nat.testBit_mod_two_pow]
  rw [Nat.testBit_two_pow_mul_add _ (Nat.mod_lt _ (Nat.two_pow_pos n))]
  show (decide (i < 32) && (old &&& _ ||| (v &&& _) &&& _).testBit i) = _
  simp only [Nat.testBit_or, Nat.testBit_and, keep, Nat.testBit_two_pow_sub_one, Nat.testBit_div_two_pow, Nat.testBit_mod_two_pow]
  by_cases hi : i < n
  · simp [hi]
  · have whole : i - n + n = i := by omega
    simp only [hi, whole, decide_false, Bool.not_false, Bool.and_true, Bool.and_false, Bool.or_false, if_false]
    rw [Bool.and_comm (old.testBit i), ← Bool.and_assoc, Bool.and_self]

/-- Settles O17: the write stores the bytes that are enabled, here all and the least significant. -/
theorem anRwWriteStoresEnabledBytes : Obligations.AnRwWriteStoresEnabledBytes := by
  intro s k data hs hfree hl
  have stores := fun be hbe => (Dev.writeNow_mh_of_reg (be := be) (data := data) (s.dev.spotOf_scratch k)).trans
    (Dev.regWrite_scratch_unlocked _ .mh k be data (data.extractLsb' 16 2) hl hbe)
  refine ⟨.mhWrite hs hfree ((stores _ (by decide)).trans ?_), .mhWrite hs hfree ((stores _ (by decide)).trans ?_)⟩
  · refine Dev.wr_congr _ _ ?_ _
    rw [show byteMask 0xF = 2 ^ 32 - 1 by decide, merged_low rfl rfl (Nat.le_refl 32)]
    show _ % 2 ^ 32 = _ % 2 ^ 32
    omega
  · refine Dev.wr_congr _ _ ?_ _
    rw [show byteMask 0x1 = 2 ^ 8 - 1 by decide, merged_low rfl rfl (by decide), Dev.entered_rd]
    show _ % 2 ^ 32 = _ % 2 ^ 32
    omega

/-! ### The window of tagged pushes (R103) -/

/-- The window is one field of thirty-two elements: four for each of eight queues. -/
theorem fieldsAt_tagAlias (k : Fin 32) : fieldsAt 0x01F (0xC00 + 4 * k.val) = [(Reg.HBR_TAG_ALIAS.PUSH, k.val)] := by
  revert k
  decide

/-- A write of a push register outside the Sentence Windows by the LHP pushes its low half. -/
theorem Dev.regWrite_lhp_of_push (d : Dev) {p : PageId} {off : Nat} (hp : p < 0x100) (hm : inMirrors off = false)
    (hdef : offDefined p off = true) (hpush : (regHas p off fun f => f.acc == .wp) = true) (data : BitVec 32) (tag : Tag) :
    d.regWrite .lhp p off 0x3 data tag = d.pushAt .lhp p off (Nat.land data.toNat 0xFFFF) tag := by
  have mask : byteMask 3#4 = 0xFFFF := by decide
  have win : between 0x500 0x53F p = false := between_of_lt (Nat.lt_of_lt_of_le hp (by decide))
  simp [Dev.regWrite, Dev.noInst_of_block _ hp, hm, hdef, hpush, win, mask]

/-- R103: the address of the window names the queue and the tag. -/
theorem Dev.pushAt_tagAlias (d : Dev) (q : Fin 8) (t tag : Tag) (v : Nat) :
    d.pushAt .lhp 0x01F (0xC00 + 4 * (4 * q.val + t.toNat)) v tag =
      d.push (d.rd 0x01F Reg.HBR_LHP_CFG.INST) q.val (Word.mk t (BitVec.ofNat 16 v)) true := by
  have queue : 4 * (4 * q.val + t.toNat) / 16 % 8 = q.val := by omega
  have tagBits : BitVec.ofNat 2 ((0xC00 + 4 * (4 * q.val + t.toNat)) / 4) = t := by bv_omega
  simp [Dev.pushAt, queue, tagBits]

/-- R103: the place of tag `t` and queue `q` in the LHP's map. -/
theorem Dev.spotOf_tagAlias (d : Dev) (q : Fin 8) (t : Tag) :
    d.spotOf .lhp (0xFC00 + 16 * q.val + 4 * t.toNat) = .reg 0x01F (0xC00 + 4 * (4 * q.val + t.toNat)) := by
  have split : 0xFC00 + 16 * q.val + 4 * t.toNat = 0xF000 + (0xC00 + 4 * (4 * q.val + t.toNat)) := by omega
  rw [split]
  exact d.spotOf_lhp_own (by omega) (by omega)

/-- R90: a low-half access of the LHP carries its own 16 bits. -/
theorem accEnables_of_low {a : Access} (hv : a.via = .lhp) (hlow : a.addr % 4 < 2) :
    accEnables a = 0x3 ∧ accDword a = a.data &&& 0xFFFF := by
  have low : accHigh a = false := by simp [accHigh, hlow]
  simp [accEnables, accDword, hv, low]

/-- R90: the low half of the dword that 16 bits of an LHP write travel as. -/
theorem ofNat_lowHalf (x : BitVec 16) : BitVec.ofNat 16 (Nat.land (x.setWidth 32 &&& 0xFFFF).toNat 0xFFFF) = x := by
  have mask : (0xFFFF : Nat) = 2 ^ 16 - 1 := by decide
  have mask' : (0xFFFF : BitVec 32).toNat = 2 ^ 16 - 1 := by decide
  refine BitVec.eq_of_toNat_eq ?_
  change (BitVec.ofNat 16 ((x.setWidth 32 &&& 0xFFFF).toNat &&& 0xFFFF)).toNat = x.toNat
  rw [BitVec.toNat_ofNat, BitVec.toNat_and, BitVec.toNat_setWidth, mask', mask, Nat.and_two_pow_sub_one_eq_mod,
    Nat.and_two_pow_sub_one_eq_mod]
  omega

/-- R90, R103: a low-half write in the window of tagged pushes. -/
theorem Dev.writeNow_tagAlias (d : Dev) (q : Fin 8) (t : Tag) (data : BitVec 16) :
    d.writeNow ⟨.lhp, 0xFC00 + 16 * q.val + 4 * t.toNat, 0xF, data.setWidth 32, 0⟩ =
      (d.entered .lhp).push (d.rd 0x01F Reg.HBR_LHP_CFG.INST) q.val (Word.mk t data) true := by
  have window := fieldsAt_tagAlias ⟨4 * q.val + t.toNat, by omega⟩
  have mirrors : inMirrors (0xC00 + 4 * (4 * q.val + t.toNat)) = false := between_of_gt (by omega)
  obtain ⟨enables, dword⟩ := accEnables_of_low
    (a := ⟨.lhp, 0xFC00 + 16 * q.val + 4 * t.toNat, 0xF, data.setWidth 32, 0⟩) rfl (by dsimp only; omega)
  rw [Dev.writeNow_of_reg _ (d.spotOf_tagAlias q t), enables, dword]
  rw [Dev.regWrite_lhp_of_push _ (by decide) mirrors (regHas_of_single window _) (regHas_of_single window _),
    Dev.pushAt_tagAlias, ofNat_lowHalf, Dev.entered_rd]

/-- Settles O12: with the bus free the command is the low-half write of the place of its queue and tag. -/
theorem tagAliasPushCompletes : Obligations.TagAliasPushCompletes := by
  intro s q t data hs hfree hr
  refine .ofEffect (exec_tagAliasPush ..) hs ((hfree.access_eq hr).trans ?_)
  exact s.dev.writeNow_tagAlias q t data

end Sys2Proof.Machine

/-! SUPPORT. The statements of spec/04_frame_ports.md: reception (R107 to R119), flow control, elimination and transmission (R120 to
R128), half duplex and PLCA (R129 to R131), links (R133 to R136), TC10 and cable diagnostics (R137, R138). -/

namespace Sys2Proof.Machine

open Sys2Proof

/-! ### What counters, events and control words leave as it was -/

theorem OnlySignals.now_eq {d e : Dev} (h : OnlySignals d e) : e.now = d.now := by
  obtain ⟨_, _, _, rfl⟩ := h
  rfl

theorem OnlySignals.eport_eq {d e : Dev} (h : OnlySignals d e) (p : Nat) : e.eport p = d.eport p := by
  obtain ⟨_, _, _, rfl⟩ := h
  rfl

/-- R139: counting changes the counter, its half-range flag and the event of that alone. -/
theorem Dev.ethAdd_signals (d : Dev) (p n k : Nat) : OnlySignals d (d.ethAdd p n k) := by
  simp only [Dev.ethAdd]
  split
  · exact ((d.wr_signals ..).chain (Dev.wr_signals ..)).chain (Dev.raise_signals ..)
  · exact d.wr_signals ..

/-- R106: the control word goes out, and nothing else changes. -/
theorem Dev.sendInBand_signals (d : Dev) (p : Nat) : OnlySignals d (d.sendInBand p) := by
  unfold Dev.sendInBand
  split
  · exact ⟨d.regs, d.hbr.msix, _, rfl⟩
  · exact .same d

theorem Dev.sendInBand_regs (d : Dev) (p : Nat) : (d.sendInBand p).regs = d.regs := by
  unfold Dev.sendInBand
  split <;> rfl

/-! ### Reception (R107, R110, R119, R132, R133) -/

/-- R132, R133: what a frame comes to that may begin on port `p`: it is ignored, jammed, or received as `taken`. -/
def Dev.begun (d : Dev) (p age : Nat) (ignored taken : Dev) : Dev :=
  if d.deaf p age then ignored else if d.jams p then d.jam p else taken

section
variable {d ignored taken : Dev} {p age : Nat}

theorem Dev.begun_of_deaf (h : d.deaf p age = true) : d.begun p age ignored taken = ignored := if_pos h

theorem Dev.begun_of_jams (hd : d.deaf p age = false) (hj : d.jams p = true) : d.begun p age ignored taken = d.jam p := by
  simp [Dev.begun, hd, hj]

theorem Dev.begun_of_taken (hd : d.deaf p age = false) (hj : d.jams p = false) : d.begun p age ignored taken = taken := by
  simp [Dev.begun, hd, hj]

end

section
variable {s : State} {p : Fin 22} {age : Nat} {how : RxEnd}

/-- R110: the first 64 bytes of a frame that may begin go through the receive stages. -/
theorem Completes.frameHeadReceived {head : List Byte} {e : Dev} (hs : s.Runs) (hlen : head.length = 64)
    (hopen : s.dev.rxOpen p.val = true)
    (he : s.dev.begun p.val age (s.dev.pushRx p.val ⟨head, 0, none, none, false, false, none, true⟩)
      (s.dev.stages p.val head
        (corrected (s.dev.wall (s.dev.now - age)) (-(signed 16 (s.dev.rd 0x022 Reg.TBU_PORT_DLY.RX_DLY p.val))))) = e) :
    Completes (.frameHeadReceived p age head) s e :=
  .ofEffect (exec_frameHeadReceived ..) hs ((if_neg (by simp [hlen, hopen])).trans he)

/-- R110: the end of the innermost frame being received: one that was ignored leaves the list of them, any other is settled. -/
theorem Completes.frameEndReceived_long {r : RxFrame} {rs : List RxFrame} {tail : List Byte} {e : Dev} (hs : s.Runs)
    (hrx : (s.dev.eport p.val).rx = r :: rs)
    (he : (if r.skip then s.dev.popRx p.val else (s.dev.popRx p.val).rxEnds p.val r (r.head ++ tail) how) = e) :
    Completes (.frameEndReceived p ⟨tail, none⟩ how) s e :=
  .ofEffect (exec_frameEndReceived ..) hs (by simpa only [hrx] using he)

/-- R110: a frame that may begin and ends before 64 bytes of it are in is settled as a short one. -/
theorem Completes.frameEndReceived_short {tail : List Byte} {e : Dev} (hs : s.Runs) (hlen : tail.length < 64)
    (hopen : s.dev.rxOpen p.val = true)
    (he : s.dev.begun p.val age s.dev (s.dev.rxEnds p.val (shortFrame tail) tail how) = e) :
    Completes (.frameEndReceived p ⟨tail, some age⟩ how) s e := by
  refine .ofEffect (exec_frameEndReceived ..) hs (Eq.trans ?_ he)
  simp [Dev.begun, Nat.not_le.mpr hlen, hopen]

end

/-- Settles O21: a frame that may begin is taken, jammed or ignored, at its head and, when it is short, at its end. -/
theorem ethernetReceptionCompletes : Obligations.EthernetReceptionCompletes := by
  intro s p age head tail how hs
  refine ⟨fun hlen hopen => ?heads, fun r rs hrx hskip => ?settled, fun r rs hrx hskip => ?ignored, fun hlen hopen => ?short⟩
  case heads =>
    have effect := fun e => Completes.frameHeadReceived (age := age) (e := e) hs hlen hopen
    exact ⟨fun hd hj => effect _ (Dev.begun_of_taken hd hj), fun hd hj => effect _ (Dev.begun_of_jams hd hj),
      fun hd => effect _ (Dev.begun_of_deaf hd)⟩
  case settled => exact .frameEndReceived_long hs hrx (by simp [hskip])
  case ignored => exact .frameEndReceived_long hs hrx (by simp [hskip])
  case short =>
    have effect := fun e => Completes.frameEndReceived_short (age := age) (how := how) (e := e) hs hlen hopen
    exact ⟨fun hd hj => effect _ (Dev.begun_of_taken hd hj), fun hd hj => effect _ (Dev.begun_of_jams hd hj),
      fun hd => effect _ (Dev.begun_of_deaf hd)⟩

/-! ### Flow control, elimination and transmission (R120 to R128) -/

section
variable {s : State}

/-- R120, R121: a timer that runs brings the clock to its end, and stands at zero. -/
theorem Completes.pauseTimerExpiry {p : Fin 22} {c : Fin 8} (hs : s.Runs) (ht : (s.dev.eport p.val).pauseEnd c.val ≠ 0) :
    Completes (.pauseTimerExpiry p c) s
      ((s.dev.reach ((s.dev.eport p.val).pauseEnd c.val)).setEport p.val
        ((s.dev.eport p.val).pauseOver c.val ((s.dev.eport p.val).pauseEnd c.val))) :=
  .ofEffect (exec_pauseTimerExpiry ..) hs (if_neg ht)

/-- R123: an UP port with no control frame waiting sends its PAUSE or PFC frame again, as TX_MODE has it. -/
theorem Completes.pauseRefresh {p : Fin 22} (hs : s.Runs) (hup : (s.dev.eport p.val).link = .up)
    (hctl : (s.dev.eport p.val).ctl = []) :
    let x := s.dev.eport p.val
    let quanta := s.dev.rd (ethPage p.val) Reg.ETH_FC_CFG.QUANTA
    let mask := pfcMask (s.dev.rd (ethPage p.val) Reg.ETH_FC_CFG.PFC_EN) x.xoffAll x.xoffQ
    Completes (.pauseRefresh p) s
      (if s.dev.txMode p.val = 1 ∧ x.xoffAll = true then (s.dev.reach x.refreshAt).sendPause p.val none quanta
      else if s.dev.txMode p.val = 2 ∧ mask ≠ 0 then (s.dev.reach x.refreshAt).sendPause p.val (some mask) quanta
      else s.dev) :=
  .ofEffect (exec_pauseRefresh ..) hs (if_neg (by simp [hup, hctl]))

/-- R126: RESET_MS without an accepted frame clears a history that holds one. -/
theorem Completes.cbRecoveryReset {pair : Fin 2} {k : Fin 64} {x : BitVec 16} (hs : s.Runs)
    (hx : (s.dev.cbRec (64 * pair.val + k.val)).newest = some x) :
    Completes (.cbRecoveryReset pair k) s
      ((s.dev.reach ((s.dev.cbRec (64 * pair.val + k.val)).at_ + s.dev.cbReset (64 * pair.val + k.val))).setCbRec
        (64 * pair.val + k.val) .reset) :=
  .ofEffect (exec_cbRecoveryReset ..) hs (by simp only [hx])

/-- R153: the answer of the link partner ends the handshake. -/
theorem Completes.preemptVerifyDone {p : Fin 4} (ok : Bool) (hs : s.Runs) (hv : s.dev.verifying p.val = true) :
    Completes (.preemptVerifyDone p ok) s (s.dev.verifyEnds p.val (if ok then 1 else 2)) :=
  .ofEffect (exec_preemptVerifyDone ..) hs (if_pos hv)

/-- R153: a try without an answer in VERIFY_MS: the third ends the handshake, and before it the next one is sent. -/
theorem Completes.verifyRetry {p : Fin 4} (hs : s.Runs) (hv : s.dev.verifying p.val = true) :
    let x := s.dev.eport p.val
    let d := s.dev.reach (x.verifyAt + s.dev.rd (ethPage p.val) Reg.ETH_PREEMPT.VERIFY_MS * Config.perMs)
    Completes (.verifyRetry p) s (if 2 ≤ x.tries then d.verifyEnds p.val 2 else d.verifyTry p.val (x.tries + 1)) :=
  .ofEffect (exec_verifyRetry ..) hs (if_pos hv)

end

/-- Settles O22: each command has the effect of its operation; a refresh sends what TX_MODE names, and a retry counts the tries. -/
theorem ethernetTransmissionCompletes : Obligations.EthernetTransmissionCompletes := by
  intro s hs
  refine ⟨fun p c => .pauseTimerExpiry hs, fun p hup hctl => ?refresh, fun pair k x => .cbRecoveryReset hs,
    fun p => .ofEffect (exec_egressFrameStart ..) hs rfl, fun p => .ofEffect (exec_frameTxEnd ..) hs rfl,
    fun p ok => .preemptVerifyDone ok hs, fun p hv => ?retry⟩
  case refresh =>
    have effect := Completes.pauseRefresh hs hup hctl
    exact ⟨fun hmode hx => by simpa [hmode, hx] using effect, fun hmode hmask => by simpa [hmode, hmask] using effect⟩
  case retry =>
    have effect := Completes.verifyRetry hs hv
    simp only [← Nat.not_lt, ite_not] at effect
    exact effect

/-! ### Half duplex and PLCA (R129 to R131) -/

/-- R130: a collision of port `q` counts, and the port jams. -/
def Dev.collides (d : Dev) (q : Nat) : Dev := (d.ethAdd q 42).emitWire (.jam q)

theorem Dev.collides_eport (d : Dev) (q : Nat) : (d.collides q).eport q = d.eport q := (d.ethAdd_signals q 42 1).eport_eq q

/-- R129: an UP port holds the frame that collided for its back-off. -/
theorem Dev.collided_of_up {d : Dev} {q : Nat} (h : (d.eport q).link = .up) (f : TxFrame) :
    d.collided q f = d.setEport q { d.eport q with tx := none, held := some f, backoff := true } := by
  simp [Dev.collided, h]

/-- R133: a port in HOLD puts the frame that collided back into its queue. -/
theorem Dev.collided_of_hold {d : Dev} {q : Nat} (h : (d.eport q).link = .hold) (f : TxFrame) :
    d.collided q f = (d.setEport q { d.eport q with tx := none }).requeue q f := by
  simp [Dev.collided, h]

section
variable {s : State} {p : Fin 6}

/-- R129, R130: a late collision, and one of the sixteenth attempt, give the frame up; any other is tried again. -/
theorem Completes.collision {f : TxFrame} {e : Dev} (late : Bool) (hs : s.Runs) (hf : (s.dev.eport (16 + p.val)).tx = some f)
    (he : (let q := 16 + p.val
      let d := s.dev.collides q
      if late then (d.setEport q { d.eport q with tx := none }).txGivenUp q 43 f
      else if 16 ≤ (s.dev.eport q).attempts then (d.setEport q { d.eport q with tx := none }).txGivenUp q 44 f
      else d.collided q f) = e) : Completes (.collision p late) s e :=
  .ofEffect (exec_collision ..) hs (by simp only [hf]; exact he)

/-- R129, R131: at the end of back-off the frame is sent again, when the medium is idle and the port has its turn. -/
theorem Completes.backoffExpiry {f : TxFrame} (hs : s.Runs) (hf : (s.dev.eport (16 + p.val)).held = some f)
    (hb : (s.dev.eport (16 + p.val)).backoff = true) :
    let q := 16 + p.val
    let x := s.dev.eport q
    let d := s.dev.setEport q { x with backoff := false }
    Completes (.backoffExpiry p) s (if x.link = .up ∧ x.rx = [] ∧ d.opOpen q = true then d.retry q f else d) := by
  refine .ofEffect (exec_backoffExpiry ..) hs ?_
  simp [hf, hb, and_assoc]

/-- R131: a follower falls back to CSMA/CD. -/
theorem Completes.plcaLoss (hs : s.Runs) (hfol : s.dev.follower (16 + p.val) = true) :
    Completes (.plcaLoss p) s (s.dev.beaconLost (16 + p.val)) :=
  .ofEffect (exec_plcaLoss ..) hs (if_pos hfol)

/-- R131: a follower follows its beacons again. -/
theorem Completes.plcaBeaconReturn (hs : s.Runs) (hfol : s.dev.follower (16 + p.val) = true) :
    Completes (.plcaBeaconReturn p) s (s.dev.beaconBack (16 + p.val)) :=
  .ofEffect (exec_plcaBeaconReturn ..) hs (if_pos hfol)

end

/-- Settles O23: a collision changes nothing of the port that its outcome depends on, and the rest is the commands' effects. -/
theorem halfDuplexCompletes : Obligations.HalfDuplexCompletes := by
  intro s p hs
  dsimp only
  refine ⟨fun f hf => ⟨.collision true hs hf rfl, fun hlt => ?again, fun hge => .collision false hs hf (if_pos hge)⟩,
    fun f => .backoffExpiry hs, fun hfol => ⟨.plcaLoss hs hfol, .plcaBeaconReturn hs hfol⟩⟩
  case again =>
    have port := s.dev.collides_eport (16 + p.val)
    have effect := fun e he => Completes.collision (e := e) false hs hf ((if_neg (Nat.not_le.mpr hlt)).trans he)
    exact ⟨fun hup => effect _ (Dev.collided_of_up (port ▸ hup) f), fun hhold => effect _ (Dev.collided_of_hold (port ▸ hhold) f)⟩

/-! ### Links (R106, R133 to R136, R141) -/

/-- R106: whether a port takes an in-band control word is a setting. -/
theorem Dev.inBand_of_regs {d e : Dev} (h : e.regs = d.regs) (p : Nat) : e.inBand p = d.inBand p := by
  simp only [Dev.inBand, Dev.rd_eq_of_regs h]

/-- R104: whether LANE and SPEED are a listed combination rests on the settings alone. -/
theorem Dev.modeBad_of_regs {d e : Dev} (h : e.regs = d.regs) (p : Nat) : e.modeBad p = d.modeBad p := by
  simp only [Dev.modeBad, Dev.rd_eq_of_regs h]

/-- R106: port `p` sends its control word, and notes a good link with the speed of the control word received. -/
def Dev.linkNoted (d : Dev) (p : Nat) (rxSpeed : BitVec 2) : Dev :=
  (d.sendInBand p).setEport p { d.eport p with lock := true, peerSpeed := if d.inBand p then some rxSpeed.toNat else none }

section
variable (d : Dev) (p : Nat) (rxSpeed : BitVec 2)

theorem Dev.linkNoted_regs : (d.linkNoted p rxSpeed).regs = d.regs := d.sendInBand_regs p

theorem Dev.linkNoted_lock : ((d.linkNoted p rxSpeed).eport p).lock = true := by simp [Dev.linkNoted]

theorem Dev.linkNoted_peerSpeed :
    ((d.linkNoted p rxSpeed).eport p).peerSpeed = if d.inBand p then some rxSpeed.toNat else none := by
  simp [Dev.linkNoted]

/-- R106: the speeds differ where the control word received names another than ETH_MODE.SPEED. -/
theorem Dev.linkNoted_speedDiffers : (d.linkNoted p rxSpeed).speedDiffers p =
    (d.inBand p && rxSpeed.toNat != d.rd (ethPage p) Reg.ETH_MODE.SPEED) := by
  have regs := d.linkNoted_regs p rxSpeed
  rw [Dev.speedDiffers, Dev.inBand_of_regs regs, Dev.rd_eq_of_regs regs, Dev.linkNoted_lock, Dev.linkNoted_peerSpeed]
  cases d.inBand p with
  | false => rfl
  | true => simp

/-- R106, R141: a good link is noted, and brings the port UP unless the speeds differ or the settings are no valid combination. -/
theorem Dev.linkRises_eq (f : Dev → Dev) : d.linkRises p rxSpeed f =
    if d.inBand p && rxSpeed.toNat != d.rd (ethPage p) Reg.ETH_MODE.SPEED || d.modeBad p then d.linkNoted p rxSpeed
    else f ((d.linkNoted p rxSpeed).becomeUp p) := by
  have noted : (d.sendInBand p).setEport p { (d.sendInBand p).eport p with
      lock := true, peerSpeed := if (d.sendInBand p).inBand p then some rxSpeed.toNat else none } = d.linkNoted p rxSpeed := by
    rw [(d.sendInBand_signals p).eport_eq, Dev.inBand_of_regs (d.sendInBand_regs p), Dev.linkNoted]
  rw [Dev.linkRises, noted, Dev.linkNoted_speedDiffers, Dev.modeBad_of_regs (d.linkNoted_regs p rxSpeed)]

end

section
variable {s : State} {p : Fin 22} {sp : BitVec 2} {e : Dev}

/-- R133: a good link of an enabled port that is DOWN. -/
theorem Completes.linkGood (hs : s.Runs) (hbar : s.dev.linkBarred p.val = false)
    (hen : s.dev.on (ethPage p.val) Reg.PG_CTRL.EN = true) (hdown : (s.dev.eport p.val).link = .down)
    (he : s.dev.linkRises p.val sp id = e) : Completes (.linkGood p sp) s e :=
  .ofEffect (exec_linkGood ..) hs ((if_neg (by simp [hbar, hen, hdown])).trans he)

/-- R135: a good link of an enabled port in HOLD. -/
theorem Completes.linkReturn (hs : s.Runs) (hbar : s.dev.linkBarred p.val = false)
    (hen : s.dev.on (ethPage p.val) Reg.PG_CTRL.EN = true) (hhold : (s.dev.eport p.val).link = .hold)
    (he : (s.dev.linkRises p.val sp fun d => d.testHeld p.val) = e) : Completes (.linkReturn ⟨p, sp⟩) s e :=
  .ofEffect (exec_linkReturn ..) hs ((if_neg (by simp [hbar, hen, hhold])).trans he)

end

/-- R86: on a page that is locked, a write is discarded. -/
theorem Dev.unlocked_of_locked {d : Dev} {p : PageId} (h : d.locked p = true) (f : Dev → Dev) : d.unlocked p f = d.raise p 0 :=
  if_pos h

section
variable {i : Instr} {s : State} {cmd : NamedCmd} {via : Via} {p : PageId} {f : Dev → Dev}
variable (hi : exec i s = onBus cmd via p (fun d => d.unlocked p f) s) (hs : s.Runs) (h : s.Reached via p)
include hi hs h

/-- R86: the write of a register of a page that is not locked takes effect. -/
theorem Completes.ofUnlocked {e : Dev} (hl : (s.dev.entered via).locked p = false) (he : f (s.dev.entered via) = e) :
    Completes i s e := by
  have effect := Completes.ofBus hi hs h
  rwa [Dev.unlocked_of_not_locked hl, he] at effect

/-- R86: the write of a register of a locked page is discarded. -/
theorem Completes.ofLocked (hl : (s.dev.entered via).locked p = true) : Completes i s ((s.dev.entered via).raise p 0) := by
  have effect := Completes.ofBus hi hs h
  rwa [Dev.unlocked_of_locked hl] at effect

end

theorem exec_portEnable_eq (via : Via) (p : Fin 22) (s : State) : exec (.portEnable via p) s =
    onBus (.portEnable p) via (ethPage p.val) (fun d => d.unlocked (ethPage p.val) fun d =>
      if d.on (ethPage p.val) Reg.PG_CTRL.EN then d else d.portOn p.val) s := by
  rw [exec_portEnable, execPortEnable]

theorem exec_portDisable_eq (via : Via) (p : Fin 22) (s : State) : exec (.portDisable via p) s =
    onBus (.portDisable p) via (ethPage p.val) (fun d => d.unlocked (ethPage p.val) fun d =>
      if d.on (ethPage p.val) Reg.PG_CTRL.EN then d.portOff p.val else d) s := by
  rw [exec_portDisable, execPortDisable]

/-- Settles O24: a good link rises as `Dev.linkRises_eq` has it, and the enables are writes that the lock of the page discards. -/
theorem ethernetLinksComplete : Obligations.EthernetLinksComplete := by
  intro s p via sp hs
  refine ⟨fun hbar hen => ?rises, fun part age ins => .ofEffect (exec_linkLoss ..) hs rfl, .ofEffect (exec_holdExpiry ..) hs rfl,
    fun c => .ofEffect (exec_holdExpiry ..) hs rfl, fun l => .ofEffect (exec_holdExpiry ..) hs rfl,
    fun h hl => ?enables, fun h hl => ?discards⟩
  case rises =>
    have rises := s.dev.linkRises_eq p.val sp
    exact ⟨fun hdown => .linkGood hs hbar hen hdown (rises _), fun hhold => .linkReturn hs hbar hen hhold (rises _)⟩
  case enables =>
    exact ⟨fun hoff => .ofUnlocked (exec_portEnable_eq ..) hs h hl (if_neg (by simp [hoff])),
      fun hon => .ofUnlocked (exec_portDisable_eq ..) hs h hl (if_pos hon)⟩
  case discards => exact ⟨.ofLocked (exec_portEnable_eq ..) hs h hl, .ofLocked (exec_portDisable_eq ..) hs h hl⟩

/-! ### TC10 and cable diagnostics (R137, R138, R499) -/

theorem exec_sleepReq_eq (via : Via) (z : Fin 8) (s : State) : exec (.sleepReq via z) s =
    onBus (.sleepReq z) via (ethPage (4 + z.val)) (fun d => d.unlocked (ethPage (4 + z.val)) fun d => d.sleepReq (4 + z.val)) s := by
  rw [exec_sleepReq, execSleepReq]

theorem exec_wakeReq_eq (via : Via) (z : Fin 8) (s : State) : exec (.wakeReq via z) s =
    onBus (.wakeReq z) via (ethPage (4 + z.val)) (fun d => d.unlocked (ethPage (4 + z.val)) fun d => d.wakeReq (4 + z.val)) s := by
  rw [exec_wakeReq, execWakeReq]

theorem exec_diagStart_eq (via : Via) (z : Fin 8) (s : State) : exec (.diagStart via z) s =
    onBus (.diagStart z) via (ethPage (4 + z.val)) (fun d => d.unlocked (ethPage (4 + z.val)) fun d =>
      d.diagStart (4 + z.val) (viaCode via)) s := by
  rw [exec_diagStart, execDiagStart]

/-- R137: with TC10 enabled a wake-up pulse goes out, and a port that is asleep wakes. -/
theorem Dev.wakeReq_of_enabled {d : Dev} {p : Nat} (h : d.tc10En p = true) :
    d.wakeReq p = if d.tc10 p = 2 then (d.emitWire (.tc10 p true)).setTc10 p 3 else d.emitWire (.tc10 p true) := by
  have stat : (d.emitWire (.tc10 p true)).tc10 p = d.tc10 p := rfl
  simp only [Dev.wakeReq, h, if_true, stat, beq_iff_eq]

/-- R137: waking a port takes no time. -/
theorem Dev.tc10Wakes_now (d : Dev) (z : Nat) : (d.tc10Wakes z).now = d.now := by
  unfold Dev.tc10Wakes
  split
  · exact (Dev.raise_signals ..).now_eq
  · rfl

section
variable {s : State} {z : Fin 8}

/-- R137: the partner asks a port that is awake, or already falls asleep, to sleep. -/
theorem Completes.tc10SleepReceived (hs : s.Runs) (hen : s.dev.tc10En (4 + z.val) = true) (hst : s.dev.tc10 (4 + z.val) ≤ 1) :
    Completes (.tc10SleepReceived z) s
      ((s.dev.setTc10 (4 + z.val) 1).setEport (4 + z.val) { s.dev.eport (4 + z.val) with sleepRx := true }) :=
  .ofEffect (exec_tc10SleepReceived ..) hs (if_pos (by simp [hen, hst]))

/-- R137: the port acknowledges the request of its partner once its egress queues are empty. -/
theorem Completes.tc10SleepAck (hs : s.Runs) (hen : s.dev.tc10En (4 + z.val) = true)
    (hrx : (s.dev.eport (4 + z.val)).sleepRx = true) (hempty : s.dev.egressEmpty (4 + z.val) = true) :
    Completes (.tc10SleepAck z) s
      ((s.dev.setEport (4 + z.val) { s.dev.eport (4 + z.val) with sleepRx := false }).emitWire (.tc10 (4 + z.val) false)) :=
  .ofEffect (exec_tc10SleepAck ..) hs (if_pos (by simp [hen, hrx, hempty]))

/-- R137: the handshake of a port that falls asleep completes, when no acknowledgement of its own is due. -/
theorem Completes.tc10Asleep (hs : s.Runs) (hen : s.dev.tc10En (4 + z.val) = true) (hst : s.dev.tc10 (4 + z.val) = 1)
    (hrx : (s.dev.eport (4 + z.val)).sleepRx = false) :
    Completes (.tc10Asleep z) s
      ((s.dev.setTc10 (4 + z.val) 2).wr (ethPage (4 + z.val)) Reg.ETH_T1_CFG.SLEEP_REQ 0) :=
  .ofEffect (exec_tc10Asleep ..) hs (if_pos (by simp [hen, hst, hrx]))

/-- R137, R499: a wake-up pulse wakes the port, and the device where it is an enabled wake event. -/
theorem Completes.tc10Wake (z : Fin 8) (ha : s.Alive) :
    Completes (.tc10Wake z) s
      (if s.dev.wakeDetects 2 z.val false noWakeData then
        (s.dev.tc10Wakes z.val).wakeArrives ⟨2, z.val, noWakeData, s.dev.now⟩
      else s.dev.tc10Wakes z.val) := by
  have effect := Completes.ofAlwaysOn (exec_tc10Wake z s) ha
  simp only [Dev.tc10Wakes_now] at effect
  exact effect

/-- R138: a diagnosis that runs ends with its result, and gives the token back. -/
theorem Completes.diagDone (res : BitVec 2) (dist : BitVec 8) (hs : s.Runs)
    (hrun : s.dev.on (ethPage (4 + z.val)) Reg.ETH_T1_CFG.DIAG_START = true) :
    let pg := ethPage (4 + z.val)
    Completes (.diagDone z res dist) s
      ((((s.dev.wr pg Reg.ETH_T1_CFG.DIAG_RES res.toNat).wr pg Reg.ETH_T1_CFG.DIAG_DIST dist.toNat).wr pg
        Reg.ETH_T1_CFG.DIAG_START 0).maintEnd pg 9) :=
  .ofEffect (exec_diagDone ..) hs (if_pos hrun)

end

/-- Settles O25: the requests of the host are writes of the port's page, and the rest has its effect where its condition holds. -/
theorem tc10CommandsComplete : Obligations.Tc10CommandsComplete := by
  intro s z via
  dsimp only
  refine ⟨fun hs h hl => ⟨?sleep, fun hen => ?wake, ?diag⟩, .tc10SleepReceived, .tc10SleepAck, .tc10Asleep,
    fun ha => ?pulse, fun res dist hs => .diagDone res dist hs⟩
  case sleep => exact .ofUnlocked (exec_sleepReq_eq ..) hs h hl (by simp [Dev.sleepReq])
  case wake => exact .ofUnlocked (exec_wakeReq_eq ..) hs h hl (Dev.wakeReq_of_enabled hen)
  case diag => exact .ofUnlocked (exec_diagStart_eq ..) hs h hl rfl
  case pulse =>
    have effect := Completes.tc10Wake z ha
    exact ⟨fun hno => by simpa [hno] using effect, fun hyes => by simpa [hyes] using effect⟩

end Sys2Proof.Machine

/-! SUPPORT. The statements of spec/05_fieldbus_talkers.md: CAN (R163 to R172, R198), LIN (R173 to R179), UART (R180 to R186), SPI and
I²C polls and writes (R187 to R192), the general inputs (R193 to R195); and that the end of a copy takes no time (R242 to R252). -/

namespace Sys2Proof.Machine

open Sys2Proof

/-! ### The end of a copy takes no time (R242 to R252)

A copy that fails settles its member, reports or records it, retries held pushes and releases what its ticket held back; none
of these moves the clock, so a command may test lifetimes before it looks at what was offered at a moment. -/

/-- What takes no time step by step takes none. -/
theorem Dev.foldl_now {α : Type} {f : Dev → α → Dev} (h : ∀ d x, (f d x).now = d.now) (l : List α) (d : Dev) :
    (l.foldl f d).now = d.now := by
  induction l generalizing d with
  | nil => rfl
  | cons x l ih => exact (ih (f d x)).trans (h d x)

section
variable (d : Dev)

@[simp] theorem Dev.raise_now (p : PageId) (bit : Nat) : (d.raise p bit).now = d.now := (d.raise_signals p bit).now_eq

@[simp] theorem Dev.requestInst_now (n v : Nat) : (d.requestInst n v).now = d.now := (d.requestInst_signals n v).now_eq

/-! Reports on host-posted sentences (R414, R422) -/

@[simp] theorem Dev.queueRequest_now (n q : Nat) : (d.queueRequest n q).now = d.now := by
  simp only [Dev.queueRequest]
  split
  · rfl
  · split
    · exact d.requestInst_now ..
    · split <;> rfl

@[simp] theorem Dev.writeRecord_now (n q ph : Nat) (bytes : List Byte) : (d.writeRecord n q ph bytes).now = d.now := by
  simp [Dev.writeRecord]

@[simp] theorem Dev.postRecord_now (n q ph : Nat) (bytes : List Byte) : (d.postRecord n q ph bytes).now = d.now := by
  unfold Dev.postRecord
  split
  · exact d.writeRecord_now ..
  · rfl

@[simp] theorem Dev.report_now (org : Origin) (t : BitVec 14) (seq : BitVec 16) (status : Nat) (ms : List Member) :
    (d.report org t seq status ms).now = d.now := by
  cases org with
  | host n q win cookie ts era => cases win <;> simp [Dev.report]
  | _ => rfl

/-! Held pushes (R421, R429) -/

@[simp] theorem Dev.badItem_now (n t : Nat) (ws : List Word) : (d.badItem n t ws).now = d.now := by
  simp only [Dev.badItem, Dev.report_now, Dev.setHq_now]
  split <;> rfl

@[simp] theorem Dev.itemDone_now (n t : Nat) (ws : List Word) : (d.itemDone n t ws).now = d.now := by
  unfold Dev.itemDone
  split
  · rfl
  · exact d.badItem_now ..

/-- R421: a push that lands takes no time. -/
theorem Dev.pushOne_now {d e : Dev} {n t : Nat} {w : Word} (h : d.pushOne n t w = some e) : e.now = d.now := by
  simp only [Dev.pushOne] at h
  split at h
  · obtain rfl := Option.some.inj h
    rw [Dev.raise_now]
    split <;> rfl
  · split at h
    · exact congrArg Dev.now (Option.some.inj h).symm
    · split at h <;> split at h
      · cases h
      · obtain rfl := Option.some.inj h
        split <;> simp
      · cases h
      · split at h <;> obtain rfl := Option.some.inj h <;> simp

theorem Dev.heldLands_now {d e : Dev} {x : HeldPush} (h : d.heldLands x = some e) : e.now = d.now := by
  unfold Dev.heldLands at h
  split at h
  · exact Dev.pushOne_now h
  · split at h
    · cases h
      rfl
    · cases h

theorem Dev.retryOne_now (acc : Dev × List HeldPush) (x : HeldPush) : (Dev.retryOne acc x).1.now = acc.1.now := by
  unfold Dev.retryOne
  split
  · rfl
  · split
    · exact Dev.heldLands_now ‹_›
    · rfl

/-- R429: trying the held pushes again takes no time. -/
@[simp] theorem Dev.retryHeld_now : d.retryHeld.now = d.now := by
  have fold (l : List HeldPush) (acc : Dev × List HeldPush) : (l.foldl Dev.retryOne acc).1.now = acc.1.now := by
    induction l generalizing acc with
    | nil => rfl
    | cons x l ih => exact (ih _).trans (Dev.retryOne_now acc x)
  unfold Dev.retryHeld
  split
  · rfl
  · exact fold d.hbr.held (d, [])

@[simp] theorem Dev.complete_now (org : Origin) (t : BitVec 14) (seq : BitVec 16) (status : Nat) (ms : List Member) :
    (d.complete org t seq status ms).now = d.now := by
  simp [Dev.complete]

@[simp] theorem Dev.noRecord_now (org : Origin) : (d.noRecord org).now = d.now := by
  unfold Dev.noRecord
  split
  · split
    · simp
    · rfl
  · rfl

@[simp] theorem Dev.resetSettles_now (org : Origin) : (d.resetSettles org).now = d.now := by
  unfold Dev.resetSettles
  split <;> simp

@[simp] theorem Dev.lossRecord_now (h : Shb) (reason port delivered failed : Nat) (each : List (Nat × Nat)) :
    (d.lossRecord h reason port delivered failed each).now = d.now := by
  simp [Dev.lossRecord]

/-! Members settle (R245, R246, R450) -/

@[simp] theorem Dev.listAcct_now (a : Nat) : (d.listAcct a).now = d.now := by
  unfold Dev.listAcct
  split
  · rfl
  · split <;> rfl

@[simp] theorem Dev.listHit_now (a : Nat) (fail : Option (Nat × Nat)) : (d.listHit a fail).now = d.now := by
  unfold Dev.listHit
  split
  · rfl
  · split
    · exact d.listAcct_now a
    · rfl

@[simp] theorem Dev.acctRecord_now (x : Acct) : (d.acctRecord x).now = d.now := by
  simp only [Dev.acctRecord]
  split
  · split <;> simp
  · split <;> simp

@[simp] theorem Dev.settle_now (a : Nat) : (d.settle a).now = d.now := by
  unfold Dev.settle
  split
  · rfl
  · split
    · rfl
    · dsimp only
      split <;> simp

@[simp] theorem Dev.memberSettles_now (a m : Nat) (fail : Option (Nat × Nat)) : (d.memberSettles a m fail).now = d.now := by
  unfold Dev.memberSettles
  split
  · rfl
  · simp

/-! Copies end (R243, R127) -/

@[simp] theorem Dev.shape_now (p : Nat) : (d.shape p).now = d.now := by
  simp only [Dev.shape]
  split
  · rfl
  · split <;> rfl

@[simp] theorem Dev.unlink_now (c : Copy) : (d.unlink c).now = d.now := by simp [Dev.unlink]

@[simp] theorem Dev.reap_now (sid : Nat) : (d.reap sid).now = d.now := by
  unfold Dev.reap
  split
  · rfl
  · split <;> rfl

@[simp] theorem Dev.tellMate_now (c : Copy) (m : Mate) : (d.tellMate c m).now = d.now := rfl

@[simp] theorem Dev.copyEnds_now (c : Copy) (fail : Option (Nat × Nat)) : (d.copyEnds c fail).now = d.now := by
  unfold Dev.copyEnds
  split
  · simp only [Dev.reap_now]
    split <;> simp
  · rfl

@[simp] theorem Dev.countLifetime_now (s : Sen) : (d.countLifetime s).now = d.now := by simp [Dev.countLifetime]

@[simp] theorem Dev.lifetimeFail_now (c : Copy) (port : Nat) : (d.lifetimeFail c port).now = d.now := by
  unfold Dev.lifetimeFail
  split <;> simp

/-! Order restoration (R247 to R252, R274) -/

@[simp] theorem Dev.release_now (out sid : Nat) (gap : Bool) : (d.release out sid gap).now = d.now := by
  simp only [Dev.release]
  have shaped (l : List Copy) : (l.foldl (fun d c => d.shape c.set) d).now = d.now :=
    Dev.foldl_now (fun d c => d.shape_now c.set) l d
  split
  · exact shaped _
  · split
    · exact (Dev.foldl_now (fun d c => d.lifetimeFail_now c 0x7C) ..).trans (shaped _)
    · exact shaped _

@[simp] theorem Dev.setCtx_now (x : Ctx) : (d.setCtx x).now = d.now := rfl

@[simp] theorem Dev.reseqRun_now (x : Ctx) (n : Nat) : (d.reseqRun x n).now = d.now := by
  induction n generalizing d x with
  | zero => rfl
  | succ n ih =>
    unfold Dev.reseqRun
    split
    · rfl
    · split
      · rfl
      · exact ih ..
      · exact (ih ..).trans (Dev.foldl_now (fun d sid => d.release_now ..) ..)

@[simp] theorem Dev.reseq_now (x : Ctx) : (d.reseq x).now = d.now := d.reseqRun_now ..

@[simp] theorem Dev.cancelTicket_now (out : Nat) (t : BitVec 14) (seq : BitVec 16) :
    (d.cancelTicket out t seq).now = d.now := by
  unfold Dev.cancelTicket
  split
  · rfl
  · split <;> simp

@[simp] theorem Dev.ticketLess_now (out sid : Nat) (s : Sen) : (d.ticketLess out sid s).now = d.now := by
  unfold Dev.ticketLess
  split
  · rfl
  · split
    · rfl
    · split <;> simp

@[simp] theorem Dev.ticketGone_now (c : Copy) (s : Sen) : (d.ticketGone c s).now = d.now := by
  unfold Dev.ticketGone
  split <;> simp

@[simp] theorem Dev.copyFails_now (c : Copy) (code port : Nat) : (d.copyFails c code port).now = d.now := by
  unfold Dev.copyFails
  split
  · rfl
  · simp only [Dev.ticketGone_now, Dev.copyEnds_now]
    split <;> simp

@[simp] theorem Dev.failsAt_now (e sid m code : Nat) : (d.failsAt e sid m code).now = d.now := by
  unfold Dev.failsAt
  split <;> simp

end

/-! ### CAN (R163 to R172, R198) -/

/-- R242: testing the retries of channel `c` takes no time: a frame whose lifetime has expired just fails. -/
@[simp] theorem Dev.canAgainAt_now (d : Dev) (c at_ n : Nat) : (d.canAgainAt c at_ n).now = d.now := by
  induction n generalizing d with
  | zero => rfl
  | succ n ih =>
    unfold Dev.canAgainAt
    split
    · rfl
    · split
      · split
        · exact (ih _).trans (Dev.failsAt_now ..)
        · rfl
      · exact ih _

@[simp] theorem Dev.canTested_now (d : Dev) (c at_ : Nat) : (d.canTested c at_).now = d.now := d.canAgainAt_now ..

/-- Entry to the register bus leaves the channels as they were. -/
@[simp] theorem Dev.entered_can (d : Dev) (via : Via) (c : Nat) : (d.entered via).can c = d.can c := rfl

theorem exec_recover_eq (via : Via) (c : Fin 32) (s : State) : exec (.recover via c) s =
    onBus (.recover c) via (canPage c.val) (fun d => d.unlocked (canPage c.val) fun d => d.canRecover c.val) s := by
  rw [exec_recover, execRecover]

/-- R164: the receive error counter after a frame is one less, and one above 127 comes into the range from 119 to 127
(notes/assumptions/23.md). -/
def recFallen (rec_ free : Nat) : Nat := if 127 < rec_ then 119 + free % 9 else rec_ - 1

theorem recFallen_range (rec_ free : Nat) :
    if rec_ ≤ 127 then recFallen rec_ free = rec_ - 1 else 119 ≤ recFallen rec_ free ∧ recFallen rec_ free ≤ 127 := by
  unfold recFallen
  split <;> split <;> omega

/-- R163, R164: the effect of a frame on the counter and the pin of channel `c`, where it is not the channel's own. -/
def Dev.canHeard (d : Dev) (c fmt : Nat) (own : Bool) (n : Nat) : Dev :=
  if own then d
  else ((if 127 < (d.can c).rec_ then d.drawn else d).setCan c ({ d.can c with rec_ := n } : CanCh).judge).driveXlm c fmt

/-- R164, R165, R166: a frame that was heard is filtered, and stored or counted as filtered. -/
def Dev.canPassed (d : Dev) (c age : Nat) (f : CanFrame) : Dev :=
  let d := d.bump (canPage c) Reg.CAN.RX_OK
  let r := d.canFilter c f.fmt.toNat (f.id.toNat % 2 ^ 29) (d.now - age)
  if r.2.2 then d.bump (canPage c) Reg.CAN.RX_FILTERED else d.canStore c r.1 r.2.1 (canPayload f) (d.ago age)

section
variable {s : State} {c : Fin 32} {age : Nat}

/-- R164: a channel on the bus hears a frame: one that its mode does not take is an error frame. -/
theorem Completes.canFrameReceived {own : Bool} {f : CanFrame} (hs : s.Runs) (hbus : (s.dev.can c.val).onBus = true)
    (hown : own = true → s.dev.on (canPage c.val) Reg.CAN_CTRL.SELF_RX = true) (hshut : s.dev.shut = false)
    (hsil : s.dev.pwr.silent = false) :
    Completes (.canFrameReceived c age own f) s
      (if s.dev.canTakes c.val f.fmt.toNat then
        (s.dev.canHeard c.val f.fmt.toNat own (recFallen (s.dev.can c.val).rec_ s.dev.freeBits.toNat)).canPassed c.val age f
      else s.dev.bump (canPage c.val) Reg.CAN.ERR_FRAMES) := by
  have hself : (own && !s.dev.on (canPage c.val) Reg.CAN_CTRL.SELF_RX) = false := by
    cases own with
    | false => rfl
    | true => simp [hown rfl]
  refine .ofEffect (exec_canFrameReceived ..) hs ((if_neg (by simp [hbus, hself, hshut, hsil])).trans ?_)
  cases s.dev.canTakes c.val f.fmt.toNat with
  | false => rfl
  | true => cases own <;> rfl

/-- R164, R171, R198: an error of a channel on the bus. -/
theorem Completes.canError (inc : ErrInc) (hs : s.Runs) (hbus : (s.dev.can c.val).onBus = true) :
    let x := s.dev.can c.val
    let d := (s.dev.bump (canPage c.val) Reg.CAN.ERR_FRAMES).setCan c.val
      ({ x with tec := x.tec + inc.tec, rec_ := min 255 (x.rec_ + inc.rec_) } : CanCh).judge
    Completes (.canError c inc age) s
      (if inc.tec = 0 ∧ inc.rec_ ≠ 0 then d else (d.canTested c.val (s.dev.now - age)).canRetry c.val (s.dev.now - age)) :=
  .ofEffect (exec_canError ..) hs (if_neg (by simp [hbus]))

end

/-- Settles O26: a frame that is heard lowers the counter into its range, and the retry tests take no time, so the frame that
completes is the one offered at its own moment; the rest is the commands' effects. -/
theorem canCommandsComplete : Obligations.CanCommandsComplete := by
  intro s c via age hs
  dsimp only
  refine ⟨fun own f hbus hown hshut hsil => ?received, fun tecInc recInc hbus => .canError ⟨tecInc, recInc⟩ hs hbus,
    fun t hbus ht => ?sent, fun hbus htx => ?lost, fun hbus => ?off, fun hoff hrec hok => ?recovers,
    fun h hl hoff => ?asked, fun hdis hen hok hsil => ?joins⟩
  case received =>
    have effect := Completes.canFrameReceived (age := age) (f := f) hs hbus hown hshut hsil
    refine ⟨fun hno => ?_, fun hyes => ⟨_, recFallen_range _ s.dev.freeBits.toNat, ?_⟩⟩
    · simpa [hno] using effect
    · simp only [hyes, if_true] at effect
      exact effect
  case sent =>
    refine .ofEffect (exec_canTxDone ..) hs ((if_neg (by simp [hbus])).trans ?_)
    simp only [Dev.canTested_now, ht]
  case lost => exact .ofEffect (exec_arbLost ..) hs (if_pos (by simp [hbus, htx]))
  case off => exact .ofEffect (exec_busoff ..) hs (if_neg (by simp [hbus]))
  case recovers => exact .ofEffect (exec_busoffRecovered ..) hs (if_pos (by simp [hoff, hrec, hok]))
  case asked => exact .ofUnlocked (exec_recover_eq ..) hs h hl (if_pos (by simp [hoff]))
  case joins => exact .ofEffect (exec_canBusJoin ..) hs (if_pos (by simp [hdis, hen, hok, hsil]))

/-! ### LIN (R173 to R179) -/

theorem exec_schedSwitch_eq (via : Via) (l : Fin 16) (start stop : BitVec 6) (s : State) :
    exec (.schedSwitch via l start stop) s =
      onBus (.schedSwitch l start stop) via (linPage l.val) (fun d => d.unlocked (linPage l.val) fun d =>
        d.linSwitch l.val start.toNat stop.toNat) s := by
  rw [exec_schedSwitch, execSchedSwitch]

/-- R179: what entry `k`, which holds `e`, makes of the response `bytes` behind the header `pid`, whose framing was right. -/
def Dev.linJudged (d : Dev) (l k : Nat) (e : LinEntry) (pid : Byte) (bytes : List Byte) (time : BitVec 64) : Dev :=
  if bytes.length ≠ e.dlen + 1 ∨ listGet 0 bytes e.dlen ≠ linCheck e pid (bytes.take e.dlen) then d.linBad l (some (k, e))
  else d.capturedItem (0x40 + l) (BitVec.ofNat 14 (d.rd (linPage l) Reg.LIN_FRM_D1.TALKER k))
    (BitVec.ofNat 3 (d.rd (linPage l) Reg.LIN_FRM_D1.CLASS k)) (pid :: bytes) time

section
variable (d : Dev) (l k : Nat) {e : LinEntry} {pid : Byte} {data : List Byte} (time : BitVec 64)

/-- R174: the checksum byte stands behind the data. -/
theorem listGet_behind (data : List Byte) (sum : Byte) : listGet 0 (data ++ [sum]) data.length = sum := by
  induction data with
  | nil => rfl
  | cons _ _ ih => exact ih

/-- R174, R179: a response is right exactly where the byte behind its data is their checksum. -/
theorem Dev.linJudged_eq (hlen : data.length = e.dlen) (sum : Byte) : d.linJudged l k e pid (data ++ [sum]) time =
    if sum = linCheck e pid data then
      d.capturedItem (0x40 + l) (BitVec.ofNat 14 (d.rd (linPage l) Reg.LIN_FRM_D1.TALKER k))
        (BitVec.ofNat 3 (d.rd (linPage l) Reg.LIN_FRM_D1.CLASS k)) (pid :: (data ++ [sum])) time
    else d.linBad l (some (k, e)) := by
  have last := listGet_behind data sum
  rw [hlen] at last
  have front : (data ++ [sum]).take e.dlen = data := List.take_left' hlen
  simp only [Dev.linJudged, last, front, List.length_append, hlen, List.length_singleton, ne_eq, not_true_eq_false, false_or,
    ite_not]

end

section
variable {s : State} {l : Fin 16} {age : Nat} {pid : Byte}

/-- R173, R177: a responder sees the header of a frame that it publishes or receives. -/
theorem Completes.linHeaderReceived {e : LinEntry} (hs : s.Runs) (hon : s.dev.linOn l.val = true)
    (hcom : s.dev.linCommander l.val = false) (hshut : s.dev.shut = false) (hpid : pid = linPid (pid.toNat % 64))
    (he : (s.dev.linFind l.val fun e =>
      e.fid == pid.toNat % 64 && (s.dev.linPublishes l.val e || s.dev.linReceives l.val e)) = some e) :
    Completes (.linHeaderReceived l ⟨pid, true⟩ age) s
      (if e.type = 0 then
        if (s.dev.linBuf l.val (pid.toNat % 64)).ever then s.dev.linSend l.val e (s.dev.now - age)
        else s.dev.bump (linPage l.val) Reg.LIN.LIN_SKIPPED
      else s.dev.setLin l.val { s.dev.lin l.val with wait := some pid }) := by
  refine .ofEffect (exec_linHeaderReceived ..) hs ((if_neg (by simp [hon, hcom, hshut])).trans ?_)
  refine (if_neg (not_not_intro hpid)).trans ?_
  simp only [he]

/-- R179: a response that was awaited and whose framing and identifier were right is judged by its entry. -/
theorem Completes.linResponseReceived_framed {k : Nat} {e : LinEntry} (bytes : List Byte) (hs : s.Runs)
    (hw : (s.dev.lin l.val).wait = some pid) (hpid : pid = linPid (pid.toNat % 64))
    (ha : s.dev.linAwaited l.val pid = some (k, e)) :
    let d := s.dev.setLin l.val { s.dev.lin l.val with wait := none }
    Completes (.linResponseReceived l age bytes true) s (d.linJudged l.val k e pid bytes (d.ago age)) := by
  refine .ofEffect (exec_linResponseReceived ..) hs ?_
  have right : (!true || pid != linPid (pid.toNat % 64)) = false := by rw [← hpid]; simp
  simp only [hw, right, ha]
  rfl

/-- R179: a response that was awaited and whose framing was wrong. -/
theorem Completes.linResponseReceived_misframed (bytes : List Byte) (hs : s.Runs) (hw : (s.dev.lin l.val).wait = some pid) :
    Completes (.linResponseReceived l age bytes false) s
      ((s.dev.setLin l.val { s.dev.lin l.val with wait := none }).linBad l.val (s.dev.linAwaited l.val pid)) :=
  .ofEffect (exec_linResponseReceived ..) hs (by simp only [hw]; rfl)

/-- R179: no response came to a header that awaited one. -/
theorem Completes.noResp (hs : s.Runs) (hw : (s.dev.lin l.val).wait = some pid) :
    Completes (.noResp l) s
      (((s.dev.setLin l.val { s.dev.lin l.val with wait := none }).bump (linPage l.val) Reg.LIN.NO_RESP).raise
        (linPage l.val) 17) :=
  .ofEffect (exec_noResp ..) hs (by simp only [hw])

end

/-- Settles O27: a slot and a header have their entry's effect, and the checksum byte behind the data judges a response. -/
theorem linCommandsComplete : Obligations.LinCommandsComplete := by
  intro s l via hs
  dsimp only
  refine ⟨fun hon hcom hrun hshut => .ofEffect (exec_linSlotStart ..) hs (if_neg (by simp [hon, hcom, hrun, hshut])),
    fun start stop h hl => .ofUnlocked (exec_schedSwitch_eq ..) hs h hl rfl,
    fun pid age e hon hcom hshut hpid he => ?header, fun age data pid k e hw hpid ha hlen => ?response,
    fun age bytes pid hw => .linResponseReceived_misframed bytes hs hw, fun pid hw => .noResp hs hw⟩
  case header =>
    have effect := Completes.linHeaderReceived (age := age) hs hon hcom hshut hpid he
    simpa only [ne_eq, ite_not] using effect
  case response =>
    have effect := fun sum => Completes.linResponseReceived_framed (age := age) (data ++ [sum]) hs hw hpid ha
    simp only [Dev.linJudged_eq _ _ _ _ hlen] at effect
    exact ⟨by simpa using effect (linCheck e pid data), fun sum hsum => by simpa [hsum] using effect sum⟩

/-! ### UART (R180 to R186) -/

/-- R158, R185: a character that belongs to an item, or begins one, is lost to a full receive FIFO. -/
theorem Dev.uarOverrun_of_item {d : Dev} {u : Nat} {ch : Byte} (h : (d.uart u).open_ = true ∨ d.uarBegins u ch = true) :
    d.uarOverrun u ch = (d.uarDrop u Reg.UAR.RX_OVERRUN).raise (uarPage u) 17 :=
  if_pos (by simpa using h)

/-- R180: a good character goes to the framer of the mode. -/
def Dev.uarFramed (d : Dev) (u : Nat) (ch : Byte) (time : BitVec 64) : Dev :=
  match d.rd (uarPage u) Reg.UAR_CFG.MODE with
  | 0 => d.nmeaChar u ch time
  | 1 => d.genericChar u ch time
  | _ => d

section
variable {d : Dev} {u : Nat} {ch : Byte} {time : BitVec 64}

theorem Dev.uarFramed_nmea (h : d.rd (uarPage u) Reg.UAR_CFG.MODE = 0) : d.uarFramed u ch time = d.nmeaChar u ch time := by
  simp [Dev.uarFramed, h]

theorem Dev.uarFramed_generic (h : d.rd (uarPage u) Reg.UAR_CFG.MODE = 1) :
    d.uarFramed u ch time = d.genericChar u ch time := by
  simp [Dev.uarFramed, h]

end

section
variable {s : State} {u : Fin 8} {age : Nat} {ch : Byte}

/-- R180, R181, R184: a good character goes to the framer of the mode, while the receive FIFO has room. -/
theorem Completes.uartCharReceived_good (hs : s.Runs) (hon : s.dev.uarOn u.val = true) (hshut : s.dev.shut = false)
    (hfill : s.dev.uarFill u.val < 2048) :
    Completes (.uartCharReceived u age ch true) s
      (s.dev.uarFramed u.val (s.dev.uarData u.val ch) (s.dev.ago age)) := by
  refine .ofEffect (exec_uartCharReceived ..) hs ((if_neg (by simp [hon, hshut])).trans ?_)
  exact (if_neg (by simp)).trans (if_neg (Nat.not_le.mpr hfill))

/-- R181: a bad character drops the item in progress. -/
theorem Completes.uartCharReceived_bad (hs : s.Runs) (hon : s.dev.uarOn u.val = true) (hopen : (s.dev.uart u.val).open_ = true) :
    Completes (.uartCharReceived u age ch false) s (s.dev.uarDrop u.val Reg.UAR.RX_BADCHAR) :=
  .ofEffect (exec_uartCharReceived ..) hs ((if_neg (by simp [hon, hopen])).trans (if_pos hopen))

/-- R158, R185: a good character finds the receive FIFO full. It is taken up while input is shut only in an item in progress. -/
theorem Completes.uartCharReceived_full (hs : s.Runs) (hon : s.dev.uarOn u.val = true)
    (hshut : s.dev.shut = false ∨ (s.dev.uart u.val).open_ = true) (hfill : 2048 ≤ s.dev.uarFill u.val)
    (hitem : (s.dev.uart u.val).open_ = true ∨ s.dev.uarBegins u.val (s.dev.uarData u.val ch) = true) :
    Completes (.uartCharReceived u age ch true) s ((s.dev.uarDrop u.val Reg.UAR.RX_OVERRUN).raise (uarPage u.val) 17) := by
  have taken : (!s.dev.uarOn u.val || (s.dev.shut && !(s.dev.uart u.val).open_)) = false := by
    obtain h | h := hshut <;> simp [hon, h]
  refine .ofEffect (exec_uartCharReceived ..) hs ((if_neg (by simp [taken])).trans ?_)
  exact (if_neg (by simp)).trans ((if_pos hfill).trans (Dev.uarOverrun_of_item hitem))

/-- R186: the last stop bit of a sentence is sent. -/
theorem Completes.uartTxDone {sid m stop : Nat} {t : BitVec 64} (hs : s.Runs)
    (htx : (s.dev.uart u.val).tx = some (sid, m, t, stop)) :
    Completes (.uartTxDone u) s
      ((((s.dev.reach stop).setUart u.val { s.dev.uart u.val with tx := none }).bump (uarPage u.val) Reg.UAR.TX_SENT).sentAt
        (0x50 + u.val) sid m t) :=
  .ofEffect (exec_uartTxDone ..) hs (by simp only [htx])

end

/-- Settles O28: a character is good, bad, or finds the FIFO full; silence and the last stop bit have their operation's effect. -/
theorem uartCommandsComplete : Obligations.UartCommandsComplete := by
  intro s u hs
  refine ⟨fun age ch hon hshut hfill => ?good, fun age ch hon hopen => ⟨.uartCharReceived_bad hs hon hopen, fun hfill => ?item⟩,
    fun age ch hon hshut hfill hbeg => .uartCharReceived_full hs hon (.inl hshut) hfill (.inr hbeg),
    fun hon hmode hidle hopen => .ofEffect (exec_uartIdle ..) hs (if_pos (by simp [hon, hmode, hidle, hopen])),
    fun sid m t stop htx => .uartTxDone hs htx⟩
  case good =>
    have effect := Completes.uartCharReceived_good (age := age) (ch := ch) hs hon hshut hfill
    exact ⟨fun hnmea => Dev.uarFramed_nmea hnmea ▸ effect, fun hgen => Dev.uarFramed_generic hgen ▸ effect⟩
  case item => exact .uartCharReceived_full hs hon (.inr hopen) hfill (.inl hopen)

/-! ### Polls, writes and the general inputs (R187 to R195) -/

section
variable {s : State} {b : Fin 8}

/-- R188: an entry in use comes due while its schedule runs. -/
theorem Completes.pollDue {k : Fin 32} (hs : s.Runs) (hon : s.dev.pollOn b.val = true) (hshut : s.dev.shut = false)
    (hrun : s.dev.pollRun b.val = true) (hat : (s.dev.bus b.val).runAt ≠ none) (hval : s.dev.pollValid b.val k.val = true) :
    let x := s.dev.poll b.val k.val
    let d := s.dev.reach (s.dev.dueAt b.val k.val x.count)
    Completes (.pollDue b k) s
      (if x.item ≠ 0 ∧ d.heldItem x.item = true then
        ((d.setPoll b.val k.val { x with count := x.count + 1 }).pollSkipped b.val).pollKick b.val
      else ((if x.due then d.pollSkipped b.val else d).setPoll b.val k.val
        { x with count := x.count + 1, due := true }).pollKick b.val) := by
  refine .ofEffect (exec_pollDue ..) hs ((if_neg (by simp [hon, hshut, hrun, hat, hval])).trans ?_)
  simp only [Bool.and_eq_true, bne_iff_ne]

/-- R190, R191: the poll under way has read its data. -/
theorem Completes.pollCaptured (bytes : List Byte) {k : Nat} (hs : s.Runs) (hjob : (s.dev.bus b.val).job = some (.poll k)) :
    let p := pollPage b.val
    let data := bytes.take (s.dev.rd p Reg.POLL_D1.RD_LEN k)
    let x := s.dev.poll b.val k
    let d := (s.dev.bump p Reg.POLL.POLLS_OK).emitWire (.bus b.val (s.dev.pollTail b.val k))
    Completes (.pollCaptured b bytes) s
      ((if d.pollEmits b.val k data then
        (d.setPoll b.val k { x with last := some data, since := 0, item := d.nrm.nextFid }).capturedItem (0x58 + b.val)
          (BitVec.ofNat 14 (d.rd p Reg.POLL_D0.TALKER k)) (BitVec.ofNat 3 (d.rd p Reg.POLL_D0.CLASS k)) data (stampOf d.wclk)
      else d.setPoll b.val k { x with since := x.since + 1 }).busFree b.val) :=
  .ofEffect (exec_pollCaptured ..) hs (by simp only [hjob])

/-- R192: the write under way is done. -/
theorem Completes.busWriteDone {sid m tries : Nat} (hs : s.Runs) (hjob : (s.dev.bus b.val).job = some (.write sid m tries)) :
    Completes (.busWriteDone b) s
      ((s.dev.sentAt (0x58 + b.val) sid m (stampOf s.dev.wclk)).busEnds b.val (writeTail b.val)) :=
  .ofEffect (exec_busWriteDone ..) hs (by simp only [hjob])

section
variable (hs : s.Runs) (hi2c : isSpi b.val = false)
include hs hi2c

/-- R190: a poll that meets a missing acknowledgement ends without an item. -/
theorem Completes.nack_of_poll {k : Nat} (hjob : (s.dev.bus b.val).job = some (.poll k)) :
    Completes (.nack b) s (((s.dev.bump (pollPage b.val) Reg.POLL.NACK).raise (pollPage b.val) 17).busEnds b.val [.stop]) :=
  .ofEffect (exec_nack ..) hs ((if_neg (by simp [hi2c])).trans (by simp only [hjob]))

/-- R190: a poll whose clock is stretched too long ends without an item. -/
theorem Completes.i2cTimeout_of_poll {k : Nat} (hjob : (s.dev.bus b.val).job = some (.poll k)) :
    Completes (.i2cTimeout b) s ((s.dev.bump (pollPage b.val) Reg.POLL.TIMEOUT).busEnds b.val [.clocks 9, .stop]) :=
  .ofEffect (exec_i2cTimeout ..) hs ((if_neg (by simp [hi2c])).trans (by simp only [hjob]))

/-- R192: a write that meets a missing acknowledgement is tried again, and at the third one fails. -/
theorem Completes.nack_of_write {sid m tries : Nat} (hjob : (s.dev.bus b.val).job = some (.write sid m tries)) :
    Completes (.nack b) s
      (if 2 ≤ tries then (s.dev.failsAt (0x58 + b.val) sid m 0x08).busEnds b.val [.stop]
      else (s.dev.setBus b.val { s.dev.bus b.val with again := some (.write sid m (tries + 1)) }).busEnds b.val [.stop]) :=
  .ofEffect (exec_nack ..) hs ((if_neg (by simp [hi2c])).trans (by simp only [hjob]))

/-- R192: a write whose clock is stretched too long fails (notes/assumptions/45.md). -/
theorem Completes.i2cTimeout_of_write {sid m tries : Nat} (hjob : (s.dev.bus b.val).job = some (.write sid m tries)) :
    Completes (.i2cTimeout b) s ((s.dev.failsAt (0x58 + b.val) sid m 0x08).busEnds b.val [.clocks 9, .stop]) :=
  .ofEffect (exec_i2cTimeout ..) hs ((if_neg (by simp [hi2c])).trans (by simp only [hjob]))

end

end

/-- R193, R194: the lines are sampled in ascending order. -/
theorem Completes.gpiSample {s : State} (levels : BitVec 32) (ha : s.Alive) :
    Completes (.gpiSample levels) s
      ((List.range 32).foldl (fun (d : Dev) i => d.gpiSampled i (bitAt levels.toNat i)) s.dev) := by
  have effect := Completes.ofAlwaysOn (exec_gpiSample levels s) ha
  exact effect

/-- Settles O29: a command of a controller has the effect of the job under way, which a poll and a write end each in its way. -/
theorem pollCommandsComplete : Obligations.PollCommandsComplete := by
  intro s b
  refine ⟨fun hs k => .pollDue hs, fun hs bytes k => .pollCaptured bytes hs, fun hs hi2c => ⟨fun k hjob => ?poll,
    fun sid m tries hjob => ⟨?refused, .i2cTimeout_of_write hs hi2c hjob⟩⟩, fun hs => .ofEffect (exec_busWriteStart ..) hs rfl,
    fun hs sid m tries => .busWriteDone hs, fun ha levels => .gpiSample levels ha⟩
  case poll => exact ⟨.nack_of_poll hs hi2c hjob, .i2cTimeout_of_poll hs hi2c hjob⟩
  case refused =>
    have effect := Completes.nack_of_write hs hi2c hjob
    simpa only [← Nat.not_lt, ite_not] using effect

end Sys2Proof.Machine

/-! SUPPORT. The statements of spec/06_ingress_and_tables.md: the bytes of the table memory (R5, R88, R219), COMMIT and its refusals
(R222), lookups, policing clears and resynchronisation (R201 to R225); and that what follows a command leaves the tables alone. -/

namespace Sys2Proof.Machine

open Sys2Proof

/-! ### The bytes of the table memory (R5, R88, R219) -/

/-- The keys of the bytes of all banks differ: an image address has 26 bits. -/
theorem tabKey_inj {b c : BitVec 2} {a x : Nat} (ha : a < 0x4000000) (hx : x < 0x4000000) :
    tabKey c x = tabKey b a ↔ c = b ∧ x = a := by
  constructor
  · intro h
    simp only [tabKey] at h
    exact ⟨BitVec.eq_of_toNat_eq (by omega), by omega⟩
  · rintro ⟨rfl, rfl⟩
    rfl

/-- A byte of the table memory after one byte is written. -/
theorem Dev.tabByte_tabWrite_one (d : Dev) {b c : BitVec 2} {a x : Nat} (v : Byte) (ha : a < 0x4000000) (hx : x < 0x4000000) :
    (d.tabWrite b [(a, v)]).tabByte c x = if c = b ∧ x = a then v else d.tabByte c x := by
  simp only [Dev.tabByte, Dev.tabWrite, List.foldl_cons, List.foldl_nil]
  split
  case isTrue h =>
    obtain ⟨rfl, rfl⟩ := h
    exact SMap.get_put_same _ _ _ _
  case isFalse h => exact SMap.get_put_other _ _ _ _ _ _ (mt (tabKey_inj ha hx).mp h)

/-- A byte of the table memory after bytes are written that `g` gives by their addresses. -/
theorem Dev.tabByte_tabWrite {b c : BitVec 2} {x : Nat} {g : Nat → Byte} (hx : x < 0x4000000) {bytes : List (Nat × Byte)}
    (hb : ∀ e ∈ bytes, e.1 < 0x4000000 ∧ e.2 = g e.1) (d : Dev) :
    (d.tabWrite b bytes).tabByte c x = if c = b ∧ x ∈ bytes.map Prod.fst then g x else d.tabByte c x := by
  induction bytes generalizing d with
  | nil => simp [Dev.tabWrite, Dev.tabByte]
  | cons e bytes ih =>
    obtain ⟨⟨he, hv⟩, hrest⟩ := List.forall_mem_cons.mp hb
    have first := d.tabByte_tabWrite_one (b := b) (c := c) e.2 he hx
    have rest : (d.tabWrite b (e :: bytes)).tabByte c x = ((d.tabWrite b [e]).tabWrite b bytes).tabByte c x := by
      simp only [Dev.tabByte, Dev.tabWrite, List.foldl_cons, List.foldl_nil]
    rw [rest, ih hrest, first]
    by_cases hxe : x = e.1
    · by_cases hc : c = b <;> simp [hc, hxe, hv]
    · simp [hxe]

/-- R5, R88: byte `i` of a dword, least significant first. -/
theorem ofNat_bitsOf_byte (v : BitVec 32) (lo : Nat) : BitVec.ofNat 8 (bitsOf v lo 8) = v.extractLsb' lo 8 := by
  apply BitVec.eq_of_toNat_eq
  simp [bitsOf, Nat.shiftRight_eq_div_pow]

/-- A bit of a word, by its number. -/
theorem bitAt_toNat {w : Nat} (x : BitVec w) (k : Nat) : bitAt x.toNat k = x.getLsbD k := by
  rw [BitVec.getLsbD, Nat.testBit_eq_decide_div_mod_eq]
  rfl

/-- R88: a write changes the bytes of its dword that are enabled. -/
theorem mem_enabledBytes {a : Nat} {be : BitVec 4} {v : BitVec 32} {e : Nat × Byte} :
    e ∈ enabledBytes a be v ↔
      (a ≤ e.1 ∧ e.1 < a + 4 ∧ be.getLsbD (e.1 - a) = true) ∧ e.2 = v.extractLsb' (8 * (e.1 - a)) 8 := by
  simp only [enabledBytes, List.mem_filterMap, List.mem_range, bitAt_toNat, ofNat_bitsOf_byte, Option.ite_none_right_eq_some,
    Option.some.injEq]
  constructor
  · rintro ⟨i, hi, hbe, rfl⟩
    simp [hi, hbe]
  · rintro ⟨⟨hle, hlt, hbe⟩, hv⟩
    exact ⟨e.1 - a, by omega, hbe, Prod.ext (by omega) hv.symm⟩

/-- Settles O20: the enabled bytes are those of the dword, and a byte whose address is not among theirs reads as before. -/
theorem tableBytesAfterAWrite : Obligations.TableBytesAfterAWrite := by
  intro d b c a x be v ha hx
  have bytes : ∀ e ∈ enabledBytes a be v, e.1 < 0x4000000 ∧ e.2 = v.extractLsb' (8 * (e.1 - a)) 8 := by
    intro e he
    obtain ⟨⟨_, hlt, _⟩, hv⟩ := mem_enabledBytes.mp he
    exact ⟨by omega, hv⟩
  have written : x ∈ (enabledBytes a be v).map Prod.fst ↔ a ≤ x ∧ x < a + 4 ∧ be.getLsbD (x - a) = true := by
    simp [mem_enabledBytes]
  rw [Dev.tabByte_tabWrite (g := fun y => v.extractLsb' (8 * (y - a)) 8) hx bytes]
  simp only [written]

/-! ### What signals and the end of a command leave as it was -/

theorem OnlySignals.nrm_eq {d e : Dev} (h : OnlySignals d e) : e.nrm = d.nrm := by
  obtain ⟨_, _, _, rfl⟩ := h
  rfl

/-- R78: events that occur on pages one after the other. -/
theorem Dev.raises_signals (bit : Nat) (l : List PageId) (d : Dev) : OnlySignals d (l.foldl (fun d p => d.raise p bit) d) := by
  induction l generalizing d with
  | nil => exact .same d
  | cons p l ih => exact (d.raise_signals p bit).chain (ih _)

theorem Dev.svcFollow_nrm (d : Dev) : d.svcFollow.nrm = d.nrm := by
  simp only [Dev.svcFollow]
  split
  · exact (Dev.raise_signals ..).nrm_eq
  · rfl

/-- What follows the effect of a command changes nothing of the normaliser and the tables. -/
theorem Dev.closing_nrm (d e : Dev) : (d.closing e).nrm = e.nrm :=
  (d.followLevels_signals _).nrm_eq.trans (Dev.svcFollow_nrm _)

/-- R82, R83: a take of a token changes nothing of the normaliser and the tables. -/
theorem Dev.maintTake_nrm (d : Dev) (p : PageId) (act src : Nat) : (d.maintTake p act src).2.nrm = d.nrm := by
  have refused : ∀ h, (d.maintRefuse p h).nrm = d.nrm := fun h => (Dev.raise_signals ..).nrm_eq
  simp only [Dev.maintTake]
  split
  · exact refused _
  · split
    · exact refused _
    · rfl

/-! ### COMMIT (R222) -/

/-- R222: a refusal names its reason and raises COMMIT_REFUSED. -/
theorem Dev.commitRefused_signals (d : Dev) (result : Nat) : OnlySignals d (d.commitRefused result) :=
  (d.wr_signals ..).chain (Dev.raise_signals ..)

/-- R222: an accepted COMMIT reads GO as 1, and waits for the second cell-time boundary. -/
def Dev.commitTaken (d : Dev) : Dev :=
  let e := (d.wr 0x028 Reg.NRM_COMMIT_STAT.RESULT 0).wr 0x028 Reg.NRM_COMMIT.GO 1
  { e with nrm := { e.nrm with swapAt := some ((e.now / Config.cellTime + 2) * Config.cellTime) } }

section
variable (d : Dev) (src : Nat)

/-- R222: a COMMIT is refused while a resynchronisation runs, and while a swap is to come (notes/assumptions/50.md). -/
theorem Dev.commit_of_busy (h : d.nrm.resync.isSome = true ∨ d.nrm.swapAt.isSome = true) :
    d.commit src = (false, d.commitRefused 1) :=
  if_pos (by simpa using h)

variable (hr : d.nrm.resync = none) (hsw : d.nrm.swapAt = none)
include hr hsw

/-- R222: a COMMIT is refused while a page of the table set is locked, and the write to each such page is an event. -/
theorem Dev.commit_of_locked (h : commitPages.any d.locked = true) :
    d.commit src = (false, ((commitPages.filter d.locked).foldl (fun d p => d.raise p 0) d).commitRefused 3) := by
  simp [Dev.commit, hr, hsw, h]

/-- R222: with no page locked, a COMMIT is accepted where the token of activity 0x06 is free, and else refused. -/
theorem Dev.commit_of_unlocked (h : commitPages.any d.locked = false) :
    d.commit src = if (d.maintTake 0x028 6 src).1 then (true, (d.maintTake 0x028 6 src).2.commitTaken)
      else (false, (d.maintTake 0x028 6 src).2.commitRefused 2) := by
  simp [Dev.commit, hr, hsw, h, Dev.commitTaken]

end

/-- R222: neither a refusal nor an acceptance of a COMMIT changes the tables or the active bank. -/
theorem Dev.commit_tables (d : Dev) (src : Nat) :
    (d.commit src).2.nrm.tab = d.nrm.tab ∧ (d.commit src).2.nrm.active = d.nrm.active := by
  have same : ∀ {e : Dev}, e.nrm = d.nrm → e.nrm.tab = d.nrm.tab ∧ e.nrm.active = d.nrm.active := fun h => by simp [h]
  by_cases hbusy : d.nrm.resync.isSome = true ∨ d.nrm.swapAt.isSome = true
  · rw [d.commit_of_busy src hbusy]
    exact same (d.commitRefused_signals 1).nrm_eq
  · obtain ⟨hr, hsw⟩ : d.nrm.resync = none ∧ d.nrm.swapAt = none := by simpa using hbusy
    cases hlock : commitPages.any d.locked
    case true =>
      rw [d.commit_of_locked src hr hsw hlock]
      exact same ((d.raises_signals 0 _).chain (Dev.commitRefused_signals ..)).nrm_eq
    case false =>
      have take := d.maintTake_nrm 0x028 6 src
      rw [d.commit_of_unlocked src hr hsw hlock]
      split
      · exact same (e := (d.maintTake 0x028 6 src).2) take
      · exact same ((Dev.commitRefused_signals ..).nrm_eq.trans take)

/-- R222: COMMIT that reaches its page. -/
theorem Completes.commit {s : State} {via : Via} (hs : s.Runs) (h : s.Reached via 0x028) :
    Completes (.commit via) s ((s.dev.entered via).commit (viaCode via)).2 :=
  .ofBus (f := fun d => (d.commit (viaCode via)).2) (exec_commit via s) hs h

/-- Settles O31: each refusal is its branch of the judgement, and what follows a command leaves the tables alone. That a swap to
come refuses as a resynchronisation does is the model's choice (notes/assumptions/50.md). -/
theorem commitsAreRefused : Obligations.CommitsAreRefused := by
  intro s via hs h
  have effect := Completes.commit hs h
  refine ⟨fun hbusy => ?busy, fun hr hsw hlock => ?locked, fun hr hsw hopen htake => ?held, fun t ht => ?frame⟩
  case busy =>
    rw [Dev.commit_of_busy _ _ hbusy] at effect
    exact effect
  case locked =>
    rw [Dev.commit_of_locked _ _ hr hsw (List.any_eq_true.mpr hlock)] at effect
    exact effect
  case held =>
    have unlocked : commitPages.any (s.dev.entered via).locked = false :=
      List.any_eq_false.mpr fun p hp => by simp [hopen p hp]
    rw [Dev.commit_of_unlocked _ _ hr hsw unlocked, htake] at effect
    exact effect
  case frame =>
    obtain rfl := Host.Outcome.next.inj (effect.symm.trans ht)
    rw [Dev.closing_nrm]
    exact Dev.commit_tables ..

/-! ### Lookups (R201) -/

/-- R201: part B of a frame that may run it, for which there is room. -/
theorem Completes.lookupPartB {s : State} {p : Fin 22} {it : Item} {a : PartA} (hs : s.Runs)
    (hit : s.dev.nrm.items.find? (s.dev.mayPartB p.val) = some it) (ha : it.partA = some a) (hroom : s.dev.partBRoom it a = true) :
    Completes (.lookupPartB p) s
      (if namesDevice it.talker it.org it.talker a then (s.dev.dropItem it.fid).refuse3FFF it (it.bank.getD 0)
      else (s.dev.dropItem it.fid).partB it (it.bank.getD 0) a) :=
  .ofEffect (exec_lookupPartB ..) hs (by simp [hit, ha, hroom])

/-! ### Resynchronisation (R224) -/

/-- R224: a part that is still to be copied, and whose drain condition holds, is brought level with the active bank. -/
theorem Completes.resyncCopy {s : State} {part : TablePart} {r : Resync} (hs : s.Runs) (hr : s.dev.nrm.resync = some r)
    (hpart : r.parts.contains part = true) (hdrain : s.dev.drained r.old part = true) :
    Completes (.resyncCopy part) s
      { s.dev.copyPart s.dev.nrm.active part with
        nrm := { (s.dev.copyPart s.dev.nrm.active part).nrm with
          resync := some { r with parts := r.parts.filter (· != part) } } } :=
  .ofEffect (exec_resyncCopy ..) hs (by simp only [hr, hpart, hdrain, Bool.and_self, if_true])

/-- R224: with every part copied the resynchronisation ends, and gives the token of activity 0x06 back. -/
theorem Completes.resyncDone {s : State} {old : BitVec 2} (hs : s.Runs) (hr : s.dev.nrm.resync = some ⟨old, []⟩) :
    Completes .resyncDone s
      (({ s.dev with nrm := { s.dev.nrm with resync := none } }.maintEnd 0x028 6).raise 0x028 17) :=
  .ofEffect (exec_resyncDone ..) hs (by simp only [hr])

/-- Settles O30: the register commands have their effects on the bus, and the rest where their conditions hold. -/
theorem tableCommandsComplete : Obligations.TableCommandsComplete := by
  intro s via hs
  refine ⟨fun pipe => .ofEffect (exec_lookup pipe s) hs rfl, fun p it a => .lookupPartB hs,
    fun h => ⟨?unblock, ?clear, .commit hs h⟩, .ofEffect (exec_commitSwap s) hs rfl, fun part r => .resyncCopy hs,
    fun old => .resyncDone hs⟩
  case unblock => exact .ofBus (f := Dev.sfUnblock) (exec_sfUnblock via s) hs h
  case clear => exact .ofBus (f := Dev.redClear) (exec_redLatchClear via s) hs h

end Sys2Proof.Machine

/-! SUPPORT. The statements of spec/07_switch_core.md: the grant of cut-through copies (R233), gate lists (R237, R238), lifetimes
(R241, R242, R246), delivery to receive queues (R244) and the time-out of a resequencer context (R250, R251). -/

namespace Sys2Proof.Machine

open Sys2Proof

/-! ### Cut-through grants (R233) -/

/-- R233: the cut-through copy whose lookup ended first, of those whose ports carry no cell, is granted. -/
theorem Dev.expressGrant_of_next {d : Dev} {x : Cross} (h : d.expressNext = some x) : d.expressGrant = d.expressCross x := by
  rw [Dev.expressGrant, h]

/-! ### Gate lists (R237, R86) -/

theorem exec_gclChange_eq (via : Via) (p : Fin 16) (s : State) : exec (.gclChange via p) s =
    onBus (.gclChange p) via (schedPage p.val) (fun d => d.unlocked (schedPage p.val) fun d => d.gclChange p.val) s := by
  rw [exec_gclChange, execGclChange]

/-! ### Lifetimes (R241, R242, R246) -/

/-- R242: the engine-path input of sentence `sid` that stands at the head of its queue. -/
def Dev.inputAtHead (d : Dev) (sid : Nat) (x : Sen) : Option Copy :=
  d.swc.copies.find? fun c => c.sid == sid && c.role == .engine && d.atHead c x

/-- R242, R276: the copies of member `m` that stand at the head of their queue, and at whose place no loss record waits. -/
def Dev.membersAtHead (d : Dev) (sid m : Nat) (x : Sen) : List Copy :=
  d.swc.copies.filter fun c => c.sid == sid && c.role == .member m && d.atHead c x && !d.stageWaits (d.expiryPlace c)

section
variable {s : State} {sid m : Nat} {x : Sen} {c : Copy}
variable (hs : s.Runs) (hx : s.dev.sen sid = some x) (hexp : s.dev.expired x = true)
include hs hx hexp

/-- R241, R242: an engine-path input expires at the head of its VOQ where an engine has taken it, else at that of a deque or of the
pending list. -/
theorem Completes.lifetimeExpiry_of_input (hin : s.dev.inputAtHead sid x = some c)
    (hst : s.dev.stageWaits (if c.place = .medium then 0x7C else 0x78) = false) :
    Completes (.lifetimeExpiry sid m) s
      (if c.place = .medium then s.dev.takenExpires sid x else s.dev.inputExpires sid x) := by
  refine .ofEffect (exec_lifetimeExpiry ..) hs ?_
  unfold Dev.inputAtHead at hin
  by_cases hplace : c.place = .medium
  case pos =>
    rw [if_pos hplace] at hst
    simp [hx, hexp, hin, hplace, hst]
  case neg =>
    rw [if_neg hplace] at hst
    simp [hx, hexp, hin, hplace, hst]

/-- R241, R242: with no engine-path input at the head of its queue, the copies of the member there fail. -/
theorem Completes.lifetimeExpiry_of_members (hin : s.dev.inputAtHead sid x = none) :
    Completes (.lifetimeExpiry sid m) s
      ((s.dev.membersAtHead sid m x).foldl (fun d c => d.copyFails c 0x03 (d.expiryPlace c)) s.dev) := by
  refine .ofEffect (exec_lifetimeExpiry ..) hs ?_
  unfold Dev.inputAtHead at hin
  simp [hx, hexp, hin, Dev.membersAtHead]

end

/-! ### Delivery to receive queues (R244) -/

/-- R244: the copy of member `m` that a receive queue is moving. -/
def Dev.hostMoving (d : Dev) (sid m : Nat) : Option Copy :=
  d.swc.copies.find? fun c => c.sid == sid && c.role == .member m && c.place == .medium && decide (0x100 ≤ c.set)

/-- R244: the copy that a receive queue has moved is whole there. -/
theorem Completes.memberDelivered {s : State} {sid m : Nat} {x : Sen} {c : Copy} (hs : s.Runs) (hx : s.dev.sen sid = some x)
    (hc : s.dev.hostMoving sid m = some c) :
    Completes (.memberDelivered sid m) s (s.dev.hostWhole ((c.set - 0x100) / 16) ((c.set - 0x100) % 16) c x) := by
  unfold Dev.hostMoving at hc
  exact .ofEffect (exec_memberDelivered ..) hs (by simp only [hx, hc])

/-! ### Order restoration (R250, R251) -/

/-- R251: the timer of a context gives its head up. -/
theorem Completes.reseqTimeout {s : State} {out : Fin 20} {talker : BitVec 14} {x : Ctx} {t : Nat} (hs : s.Runs)
    (hx : s.dev.ctxOf out.val talker = some x) (ht : x.since = some t) :
    Completes (.reseqTimeout out talker) s
      ((((s.dev.reach (s.dev.timeoutEnd t)).bump 0x030 Reg.SWC.RESEQ_TIMEOUTS).raise 0x030 18).giveUp x) :=
  .ofEffect (exec_reseqTimeout ..) hs (by simp only [hx, ht])

/-- Settles O32: each command has its effect where its condition holds; a gate change is the write of a page that is not locked.
The rules leave some points to the model: MATCH_ROUND lets a cell time pass (notes/assumptions/6.md), an engine-path input that no
engine has taken expires with port code 0x78 (notes/assumptions/51.md), and a copy that fails gives its ticket up
(notes/assumptions/14.md). -/
theorem switchCommandsComplete : Obligations.SwitchCommandsComplete := by
  intro s via hs
  refine ⟨.ofEffect (exec_matchRound s) hs rfl,
    fun x hx => .ofEffect (exec_expressGrant s) hs (Dev.expressGrant_of_next hx),
    fun p => ⟨fun h hl => ?change, .ofEffect (exec_gclChangeTime p s) hs rfl, .ofEffect (exec_gclEntryEnd p s) hs rfl⟩,
    fun sid m x hx hexp => ?lifetime,
    fun set => .ofEffect (exec_egressHandOn set s) hs rfl,
    fun sid m x c hx hc => .memberDelivered hs hx hc,
    fun out talker x t hx ht => .reseqTimeout hs hx ht⟩
  case change => exact .ofUnlocked (exec_gclChange_eq ..) hs h hl rfl
  case lifetime =>
    exact ⟨fun c hin hst => .lifetimeExpiry_of_input hs hx hexp hin hst, fun hin => .lifetimeExpiry_of_members hs hx hexp hin⟩

end Sys2Proof.Machine

/-! SUPPORT. The statement of spec/08_buffers_and_congestion.md: a sentence that outlives its lifetime while it waits for admission
(R276, R278), and the stage whose loss record waits for the reserve (R279). -/

namespace Sys2Proof.Machine

open Sys2Proof

/-! ### What the end of a command leaves of the switch core -/

theorem OnlySignals.swc_eq {d e : Dev} (h : OnlySignals d e) : e.swc = d.swc := by
  obtain ⟨_, _, _, rfl⟩ := h
  rfl

theorem Dev.svcFollow_swc (d : Dev) : d.svcFollow.swc = d.swc := by
  simp only [Dev.svcFollow]
  split
  · exact (Dev.raise_signals ..).swc_eq
  · rfl

/-- What follows the effect of a command changes nothing of the switch core. -/
theorem Dev.closing_swc (d e : Dev) : (d.closing e).swc = e.swc :=
  (d.followLevels_signals _).swc_eq.trans (Dev.svcFollow_swc _)

/-- A command that completes has one effect on the switch core. -/
theorem Completes.swc_unique {i : Instr} {s : State} {e f : Dev} (he : Completes i s e) (hf : Completes i s f) :
    e.swc = f.swc := by
  have same : s.dev.closing e = s.dev.closing f := congrArg State.dev (Host.Outcome.next.inj (he.symm.trans hf))
  rw [← s.dev.closing_swc e, same, Dev.closing_swc]

/-! ### Lifetimes of sentences that wait for admission (R278) -/

/-- R276, R278: while a loss record of the Buffer Manager waits, no sentence that waits for admission fails there. -/
theorem Completes.admitLifetime_of_stageWaits {s : State} (sid : Nat) (hs : s.Runs) (hst : s.dev.stageWaits 0x7B = true) :
    Completes (.admitLifetime sid) s s.dev := by
  refine .ofEffect (exec_admitLifetime ..) hs ?_
  cases s.dev.sen sid with
  | none => rfl
  | some x => simp [hst]

/-! ### A device on which a loss record of the Buffer Manager waits for the reserve (R276, R279) -/

/-- R23: the header of a sentence of talker 5. -/
def stalledShb : Shb := ⟨5, 0, 0, false, 0, 0, 1, 4, 0, 0⟩

/-- R276: a sentence that came over a Stay link, and has waited since moment 0 for admission toward a receive queue. -/
def stalledSen : Sen :=
  { shb := stalledShb, acct := 1, body := [], org := .stay 0, inp := 0, life := 0, cells := [], whole := true,
    waits := some .source, waited := true, targets := [⟨.member 0, 0x12B, 18, false, .none⟩], adm := 0, tickets := [],
    reserve := false, fid := 1, bytes := 0, prog := 0, serial := false, rtag := [], fwd := [] }

/-- R246, R276: loss record `id`, of a sentence whose member 0 failed with LIFETIME at port code 0x7B, as it waits. -/
def waitingRecord (id : Nat) : Sen :=
  let record := lossOf stalledShb 0 0x03 0x7B 0 1 [(0, 0x03)]
  lossSen record.1 record.2 id id 0

/-- R279: a loss record that was admitted, in cell `k` of the reserve. -/
def reserveRecord (k : Nat) : Nat × Sen :=
  (3 + k, { waitingRecord (3 + k) with cells := [.chip k], waits := none, targets := [], reserve := true })

/-- R278, R279: sentence 1 has outlived its lifetime of 2 µs; loss record 2 waits, for 256 others fill the reserve. -/
def stalledDev : Dev :=
  let d := { Dev.reset with pwr := { Dev.reset.pwr with boot := .running, silent := false } }.wr 0x030 Reg.SWC_LIFE.LIFE_US 2
  { d with
    now := 2 * Config.perUs
    swc := { d.swc with
      sens := (1, stalledSen) :: (2, waitingRecord 2) :: (List.range Config.reserveCells).map reserveRecord
      accts := [(1, ⟨stalledShb, .stay 0, [⟨0, .host 2 11, 1, none, none⟩], true, false⟩)]
      nextSid := 259 } }

theorem stalledDev_runs : State.Runs ⟨stalledDev, []⟩ := by decide

theorem stalledDev_expired : stalledDev.expired stalledSen = true := by decide

theorem sumOf_map_of_const {α β : Type} {f : β → Nat} {g : α → β} {c : Nat} (h : ∀ x, f (g x) = c) (l : List α) :
    sumOf f (l.map g) = l.length * c := by
  induction l with
  | nil => simp [sumOf]
  | cons x l ih => rw [List.map_cons, sumOf, h, ih, List.length_cons, Nat.succ_mul, Nat.add_comm]

/-- R279: the cells of the reserve that a sentence takes. -/
def reserveCharge (e : Nat × Sen) : Nat := if e.2.admitted && e.2.reserve then e.2.cells.length else 0

theorem Dev.reserveFree_eq (d : Dev) : d.reserveFree = Config.reserveCells - sumOf reserveCharge d.swc.sens := rfl

/-- R279: each of the 256 records takes one cell, so no cell of the reserve is free. -/
theorem stalledDev_reserveFree : stalledDev.reserveFree = 0 := by
  have oneEach : ∀ k, reserveCharge (reserveRecord k) = 1 := fun _ => rfl
  rw [Dev.reserveFree_eq, stalledDev, sumOf, sumOf, sumOf_map_of_const oneEach, List.length_range]
  decide

/-- R276, R279: the Buffer Manager waits, for record 2 needs a cell. -/
theorem stalledDev_stageWaits : stalledDev.stageWaits 0x7B = true := by
  have short : stalledDev.reserveShort = true := by
    rw [Dev.reserveShort, stalledDev_reserveFree, decide_eq_true_eq]
    exact Nat.lt_add_left _ (Nat.lt_add_right _ (by decide))
  rw [Dev.stageWaits, short, Bool.and_true]
  rfl

/-- R246: with the failure of sentence 1, its account would make loss record 259. -/
theorem stalledDev_fails_nextSid :
    (((stalledDev.bump 0x040 Reg.BUF.ADMIT_LIFETIME).waitingFails 1 0x03 0x7B).flowOf stalledSen.org stalledSen.fid).swc.nextSid =
      260 := by decide

/-- Refutes O33: its clause on ADMIT_LIFETIME leaves out the wait of R276. A sentence outlives its lifetime on a device where a loss
record of the Buffer Manager waits, since the reserve is full; the clause has the sentence fail, with a further loss record, while
the command leaves it waiting. -/
theorem not_bufferCommandsComplete : ¬ Obligations.BufferCommandsComplete := by
  intro h
  obtain ⟨-, lifetime, -⟩ := h ⟨stalledDev, []⟩ .mh stalledDev_runs
  have fails := lifetime 1 stalledSen rfl rfl stalledDev_expired
  have stays := Completes.admitLifetime_of_stageWaits 1 stalledDev_runs stalledDev_stageWaits
  have same : 260 = 259 := stalledDev_fails_nextSid.symm.trans (congrArg Swc.nextSid (fails.swc_unique stays))
  exact absurd same (by decide)

end Sys2Proof.Machine

/-! SUPPORT. The statement of spec/09_engine_array.md: how an engine takes an entry and starts its run (R296, R302), faults and the
watchdog (R306, R311), self-tests, their rotation and the service commands (R308 to R310), and the credits (R301). -/

namespace Sys2Proof.Machine

open Sys2Proof

/-! ### Engine take (R296, R299, R302) -/

/-- R296, R299: entry `x` leaves its deque for engine `k`, counted if it is stolen, and a serial one locks its talker. -/
def Dev.handsTo (d : Dev) (k : Nat) (x : Entry) (stolen : Bool) : Dev :=
  (((if stolen then d.bump 0x050 Reg.ENG.STOLEN else d).leaveDeque x.sid).lockFor x).toEngine x.sid (spePort k)

/-- R302, step 1: engine `k` runs the program of entry `x`. -/
def Dev.startRun (d : Dev) (k : Nat) (x : Entry) : Dev :=
  d.setSpe k { d.spe k with state := .running, run := some (d.newRun x) }

section
variable {s : State} {k : Fin 72} (hs : s.Runs)
include hs

/-- R296, R302: an idle engine takes an entry that has not expired; where no program is loaded, the run it starts faults at once
(notes/assumptions/32.md). -/
theorem Completes.engineTake {x : Entry} {stolen : Bool} (hidle : (s.dev.spe k.val).state = .idle)
    (hwork : s.dev.workFor k.val = some (x, stolen)) (hlive : s.dev.entryExpires x = none) :
    let d := s.dev.handsTo k.val x stolen
    Completes (.engineTake k) s
      (if (d.newRun x).len = 0 then (d.startRun k.val x).programFault k.val else d.startRun k.val x) := by
  refine .ofEffect (exec_engineTake ..) hs ((if_neg (by simp [hidle])).trans ?_)
  simp only [hwork, hlive]
  rfl

/-! ### Faults and the watchdog (R306 to R308, R311) -/

/-- R306, R308: a hardware fault discards the run of an engine in service, which is tested, and executes the sentence again. -/
theorem Completes.speHwFault_of_run {r : Run} (hsvc : s.dev.inSvc k.val = true) (hrun : (s.dev.spe k.val).run = some r) :
    Completes (.speHwFault k) s (((s.dev.discardRun r).quarantine k.val).reexecute k.val r.ent) :=
  .ofEffect (exec_speHwFault ..) hs ((if_neg (by simp [hsvc])).trans (by simp only [hrun]))

/-- R306, R308: a hardware fault of an engine in service that runs nothing. -/
theorem Completes.speHwFault_of_no_run (hsvc : s.dev.inSvc k.val = true) (hrun : (s.dev.spe k.val).run = none) :
    Completes (.speHwFault k) s (s.dev.quarantine k.val) :=
  .ofEffect (exec_speHwFault ..) hs ((if_neg (by simp [hsvc])).trans (by simp only [hrun]))

/-- R311: a run that reaches its limit before its end instruction is discarded. -/
theorem Completes.wdogExpired {r : Run} (hrun : (s.dev.spe k.val).run = some r) (hopen : r.ended = false)
    (hlimit : r.limit ≤ r.core.cycles) :
    Completes (.wdogExpired k) s
      ((((s.dev.discardRun r).bump 0x050 Reg.ENG.WDOG_EXPIRED).engineFree k.val).reexecute k.val r.ent) := by
  refine .ofEffect (exec_wdogExpired ..) hs ?_
  simp only [hrun]
  exact if_neg (by simp [hopen, hlimit])

end

/-! ### Self-tests (R308 to R310) -/

/-- R309: the test of an engine that the rotation had picked gives the maintenance token back. -/
def Dev.testEnds (d : Dev) (k : Nat) : Dev := if (d.spe k).rotating then d.maintEnd 0x050 4 else d

/-- An engine after its self-test, as it takes work. -/
def Spe.tested (x : Spe) : Spe := { x with state := .idle, rotating := false, returning := false }

section
variable {s : State} {k : Fin 72} (hs : s.Runs) (htest : (s.dev.spe k.val).state = .selfTest)
include hs htest

section
variable (hret : (s.dev.spe k.val).returning = true)
include hret

/-- R310: an engine told to return that passes its test is in service again. -/
theorem Completes.selfTestDone_returns : Completes (.selfTestDone k true) s
    ((((s.dev.testEnds k.val).setSpe k.val
      { (s.dev.spe k.val).tested with retired := false, faults := 0 }).drainPending.raise 0x050 18).wr
        0x050 Reg.ENG_SVC.RESULT 1) :=
  .ofEffect (exec_selfTestDone ..) hs ((if_neg (by simp [htest])).trans (if_pos hret))

/-- R310: an engine told to return that fails its test stays RETIRED. -/
theorem Completes.selfTestDone_stays_retired : Completes (.selfTestDone k false) s
    ((((s.dev.testEnds k.val).setSpe k.val
      { (s.dev.spe k.val).tested with state := .retired }).raise 0x050 22).wr 0x050 Reg.ENG_SVC.RESULT 3) :=
  .ofEffect (exec_selfTestDone ..) hs ((if_neg (by simp [htest])).trans (if_pos hret))

end

section
variable (hret : (s.dev.spe k.val).returning = false) (hkeep : (s.dev.spe k.val).retiring = false)
include hret hkeep

/-- R308, R309: a test that is passed ends a quarantine after at most two faults, and each test of the rotation. -/
theorem Completes.selfTestDone_resumes (hmay : (s.dev.spe k.val).rotating = true ∨ (s.dev.spe k.val).faults ≤ 2) :
    Completes (.selfTestDone k true) s
      ((s.dev.testEnds k.val).setSpe k.val (s.dev.spe k.val).tested).drainPending := by
  refine .ofEffect (exec_selfTestDone ..) hs ((if_neg (by simp [htest])).trans ((if_neg (by simp [hret])).trans ?_))
  exact if_pos (by simpa [hkeep] using hmay)

/-- R308, R309: an engine that fails its test retires. -/
theorem Completes.selfTestDone_retires :
    Completes (.selfTestDone k false) s (((s.dev.testEnds k.val).raise 0x050 22).retire k.val) := by
  refine .ofEffect (exec_selfTestDone ..) hs ((if_neg (by simp [htest])).trans ((if_neg (by simp [hret])).trans ?_))
  simp only [hkeep]
  rfl

end

end

/-- R309: engine `e` is the next one that the rotation tests, once it is free. -/
def Dev.rotates (d : Dev) (e : Nat) : Dev :=
  let d := d.wr 0x050 Reg.ENG_ST_CFG.NEXT ((e + 1) % 72)
  d.setSpe e { d.spe e with rotating := true }

/-- R309: the rotation picks an engine while it is enabled, 65 engines are in service and the token is free. -/
theorem Completes.selfTestRotation {s : State} {e : Nat} (hs : s.Runs) (hen : s.dev.on 0x050 Reg.ENG_ST_CFG.EN = true)
    (hmany : 65 ≤ s.dev.inService) (htake : (s.dev.maintTake 0x050 4 0).1 = true)
    (hnext : (s.dev.maintTake 0x050 4 0).2.nextTested = some e) :
    let d := (s.dev.maintTake 0x050 4 0).2.rotates e
    Completes .selfTestRotation s (if (d.spe e).run.isSome then d else d.startTest e) := by
  refine .ofEffect (exec_selfTestRotation s) hs
    ((if_neg (by simpa [hen] using hmany)).trans ((if_neg (by simp [htake])).trans ?_))
  simp only [hnext]
  rfl

/-! ### Service commands and talker state (R310, R316): writes of page 0x050 -/

theorem exec_engReturn_eq (via : Via) (s : State) : exec (.engReturn via) s =
    onBus .engReturn via 0x050 (fun d => d.unlocked 0x050 fun d => d.toEngines.engReturn) s := by
  rw [exec_engReturn, execEngReturn]

theorem exec_engRetire_eq (via : Via) (s : State) : exec (.engRetire via) s =
    onBus .engRetire via 0x050 (fun d => d.unlocked 0x050 fun d => d.toEngines.engRetire) s := by
  rw [exec_engRetire, execEngRetire]

theorem exec_tsWrite_eq (via : Via) (data : Word) (s : State) : exec (.tsWrite via data) s =
    onBus (.tsWrite data) via 0x050 (fun d => d.unlocked 0x050 fun d => d.toEngines.tsWrite via data) s := by
  rw [exec_tsWrite, execTsWrite]

/-! ### The engine array -/

/-- R312, R449: the remaining runs of an instance whose reset began at `t` are cancelled 50 µs later. -/
theorem Completes.runCancel {s : State} {n : Fin 64} {t : Nat} (hs : s.Runs) (ht : (s.dev.inst n.val).resetAt = some t) :
    Completes (.runCancel n) s ((s.dev.reach (t + 50 * Config.perUs)).cancelRuns n.val) :=
  .ofEffect (exec_runCancel ..) hs (by simp only [ht])

/-- Settles O34: each command has its effect where its condition holds; the service commands and the write of talker state are
writes of page 0x050 while it is not locked. That the run of an entry whose program is not loaded starts and faults is the model's
choice (notes/assumptions/32.md). -/
theorem engineCommandsComplete : Obligations.EngineCommandsComplete := by
  intro s via hs
  refine ⟨fun k x stolen => .engineTake hs, fun k => .ofEffect (exec_runCommit k s) hs rfl,
    fun k hsvc => ⟨fun r => .speHwFault_of_run hs hsvc, .speHwFault_of_no_run hs hsvc⟩, fun k r => .wdogExpired hs,
    fun k htest => ⟨fun hret => ?returning, fun hret hkeep => ?tested⟩, fun e => .selfTestRotation hs,
    fun h hl => ⟨?comeBack, ?retire, fun data => ?talker⟩, fun hen => ?credits, .ofEffect (exec_tsWriteApply s) hs rfl,
    fun n t => .runCancel hs⟩
  case returning => exact ⟨.selfTestDone_returns hs htest hret, .selfTestDone_stays_retired hs htest hret⟩
  case tested => exact ⟨.selfTestDone_resumes hs htest hret hkeep, .selfTestDone_retires hs htest hret hkeep⟩
  case comeBack => exact .ofUnlocked (exec_engReturn_eq ..) hs h hl rfl
  case retire => exact .ofUnlocked (exec_engRetire_eq ..) hs h hl rfl
  case talker => exact .ofUnlocked (exec_tsWrite_eq ..) hs h hl rfl
  case credits => exact .ofEffect (exec_creditRefill s) hs (if_neg (by simp [hen]))

end Sys2Proof.Machine

/-! SUPPORT. The statements of spec/10_engine_instruction_set.md: what the slot at the program counter does (R306, R325, R328), the
flags as exact integers (R320), and the results of the instructions of registers and flags (R326). -/

namespace Sys2Proof.Machine

open Sys2Proof

/-! ### Executing a slot (R302, R306, R328) -/

/-- R302, R325: a unit about to execute `code` makes of the block and its registers what the instruction's effect gives. -/
theorem Dev.execute_of_ready {s : State} {u : Sys2Proof.PUnit} {c c' : Core} {code : BitVec 36}
    {f : Dev → Core → Option (Dev × Core)} {e : Dev} (h : s.Ready u c code) (hf : f s.dev c = some (e, c')) :
    s.dev.execute u code f = (e.setCore u c').atEnd u c' := by
  obtain ⟨-, hcore, hslot, hread, hlegal⟩ := h
  simp only [Dev.execute, hcore, hslot, hread, hlegal, hf, Bool.not_true, Bool.false_eq_true, ne_eq, not_true_eq_false, if_false]

/-- R306, R328: execution at or above the end of the program faults. -/
theorem Dev.execute_past_end {d : Dev} {u : Sys2Proof.PUnit} {c : Core} (code : BitVec 36)
    (f : Dev → Core → Option (Dev × Core)) (hcore : d.coreOf u = some c) (hslot : d.slotAt u c.pc = none) :
    d.execute u code f = d.unitFault u := by
  simp only [Dev.execute, hcore, hslot]

/-- R306, R325: a slot that holds a reserved encoding faults. -/
theorem Dev.execute_reserved {d : Dev} {u : Sys2Proof.PUnit} {c : Core} {w : BitVec 36} (code : BitVec 36)
    (f : Dev → Core → Option (Dev × Core)) (hcore : d.coreOf u = some c) (hslot : d.slotAt u c.pc = some w)
    (hread : d.badRead u c w = none) (hlegal : legal w (isWatch u) = false) : d.execute u code f = d.unitFault u := by
  simp only [Dev.execute, hcore, hslot, hread, hlegal, Bool.not_false, if_true]

/-- R302: the command of an instruction executes a slot of its unit, with the code and the effect of the instruction. -/
theorem exec_of_unit {i : Instr} {u : Sys2Proof.PUnit} (h : Instr.unit i = some u) :
    ∃ code f, ∀ s, exec i s = onAon (fun d => d.execute u code f) s := by
  unfold Instr.unit at h
  split at h <;> cases h
  · exact ⟨_, _, fun _ => exec_nop ..⟩
  · exact ⟨_, _, fun _ => exec_mov ..⟩
  · exact ⟨_, _, fun _ => exec_ldi ..⟩
  · exact ⟨_, _, fun _ => exec_tag ..⟩
  · exact ⟨_, _, fun _ => exec_ld ..⟩
  · exact ⟨_, _, fun _ => exec_st ..⟩
  · exact ⟨_, _, fun _ => exec_ldb ..⟩
  · exact ⟨_, _, fun _ => exec_stb ..⟩
  · exact ⟨_, _, fun _ => exec_lda ..⟩
  · exact ⟨_, _, fun _ => exec_adda ..⟩
  · exact ⟨_, _, fun _ => exec_mova ..⟩
  · exact ⟨_, _, fun _ => exec_movw ..⟩
  · exact ⟨_, _, fun _ => exec_add ..⟩
  · exact ⟨_, _, fun _ => exec_adc ..⟩
  · exact ⟨_, _, fun _ => exec_sub ..⟩
  · exact ⟨_, _, fun _ => exec_sbc ..⟩
  · exact ⟨_, _, fun _ => exec_and ..⟩
  · exact ⟨_, _, fun _ => exec_or ..⟩
  · exact ⟨_, _, fun _ => exec_xor ..⟩
  · exact ⟨_, _, fun _ => exec_not ..⟩
  · exact ⟨_, _, fun _ => exec_addi ..⟩
  · exact ⟨_, _, fun _ => exec_subi ..⟩
  · exact ⟨_, _, fun _ => exec_andi ..⟩
  · exact ⟨_, _, fun _ => exec_ori ..⟩
  · exact ⟨_, _, fun _ => exec_xori ..⟩
  · exact ⟨_, _, fun _ => exec_cmp ..⟩
  · exact ⟨_, _, fun _ => exec_cmpi ..⟩
  · exact ⟨_, _, fun _ => exec_shl ..⟩
  · exact ⟨_, _, fun _ => exec_shr ..⟩
  · exact ⟨_, _, fun _ => exec_sar ..⟩
  · exact ⟨_, _, fun _ => exec_mul ..⟩
  · exact ⟨_, _, fun _ => exec_ext ..⟩
  · exact ⟨_, _, fun _ => exec_ins ..⟩
  · exact ⟨_, _, fun _ => exec_br ..⟩
  · exact ⟨_, _, fun _ => exec_btag ..⟩
  · exact ⟨_, _, fun _ => exec_dbnz ..⟩
  · exact ⟨_, _, fun _ => exec_endProg ..⟩
  · exact ⟨_, _, fun _ => exec_hdr ..⟩
  · exact ⟨_, _, fun _ => exec_emit ..⟩
  · exact ⟨_, _, fun _ => exec_sld ..⟩
  · exact ⟨_, _, fun _ => exec_sst ..⟩
  · exact ⟨_, _, fun _ => exec_time ..⟩

/-- A command of the always-on domain completes with what its effect makes of the block. -/
theorem Completes.ofAlwaysOnEffect {i : Instr} {s : State} {f : Dev → Dev} {e : Dev} (hi : exec i s = onAon f s) (hr : s.Alive)
    (he : f s.dev = e) : Completes i s e :=
  he ▸ Completes.ofAlwaysOn hi hr

/-- Settles O41: whichever instruction the command names, it executes the slot at the program counter of its unit, and that slot
decides; that the named instruction does not is the model's choice (notes/assumptions/49.md). -/
theorem reservedEncodingsFault : Obligations.ReservedEncodingsFault := by
  intro i s u c hunit halive hcore
  obtain ⟨code, f, hi⟩ := exec_of_unit hunit
  exact ⟨fun hslot => .ofAlwaysOnEffect (hi s) halive (Dev.execute_past_end code f hcore hslot),
    fun _ hslot hread hlegal => .ofAlwaysOnEffect (hi s) halive (Dev.execute_reserved code f hcore hslot hread hlegal)⟩

/-! ### Encoding (R325) -/

/-- R325: the fields of an instruction lie side by side in its word. -/
theorem encode_toNat {op d x y tg imm : Nat} (hop : op < 64) (hd : d < 16) (hx : x < 16) (hy : y < 16) (htg : tg < 4)
    (himm : imm < 65536) :
    (encode op d x y tg imm).toNat = op * 2 ^ 30 + d * 2 ^ 26 + x * 2 ^ 22 + y * 2 ^ 18 + tg * 2 ^ 16 + imm := by
  rw [encode, BitVec.toNat_ofNat]
  exact Nat.mod_eq_of_lt (by omega)

/-- Settles O40: each field is read back as a quotient and a remainder of the word's number. -/
theorem encodingKeepsEveryField : Obligations.EncodingKeepsEveryField := by
  intro op d x y tg imm hop hd hx hy htg himm
  rw [encode_toNat hop hd hx hy htg himm]
  and_intros <;> omega

/-! ### Flags (R320, R321, R326) -/

/-- Settles O42: a condition is read off its number, as a test of flags. -/
theorem conditionsOfBranches : Obligations.ConditionsOfBranches := by
  intro f
  and_intros <;> simp [Flags.holds]

theorem b2n_eq_toNat (b : Bool) : b2n b = b.toNat := by cases b <;> rfl

@[simp] theorem Word.data_mk (t : Tag) (x : BitVec 16) : (Word.mk t x).data = x := by
  simp [BitVec.extractLsb'_append_eq_of_add_le]

@[simp] theorem Word.tag_mk (t : Tag) (x : BitVec 16) : (Word.mk t x).tag = t := by
  simp [BitVec.extractLsb'_append_eq_of_le]

/-- R320: the flags of a word that is moved or loaded. -/
theorem Flags.ofWord_eq (f : Flags) (w : Word) : f.ofWord w = wordFlags f w := by
  simp only [Flags.ofWord, wordFlags, Bool.beq_eq_decide_eq]

/-- R320, R326: the flags of a computed word: its tag 0b01 clears E and X (notes/assumptions/33.md). -/
theorem Flags.ofWord_dataWord (f : Flags) (x : BitVec 16) : f.ofWord (dataWord x) = { resultFlags x f.c with v := f.v } := by
  rw [Flags.ofWord_eq, wordFlags, Word.data_mk, Word.tag_mk]
  rfl

/-- R326: the flags of a logical result. -/
theorem Flags.ofLogic_eq (f : Flags) (x : BitVec 16) : f.ofLogic x = resultFlags x false := by
  rw [Flags.ofLogic, Flags.ofWord_dataWord]
  rfl

/-- R326: the flags of a shifted value. -/
theorem Flags.ofShift_eq (f : Flags) (x : BitVec 16) (c : Bool) : f.ofShift x c = resultFlags x c := by
  rw [Flags.ofShift, Flags.ofWord_dataWord]
  rfl

/-- R320: Z and N of a result as an unsigned number. -/
theorem resultFlags_toNat (x : BitVec 16) (c : Bool) : resultFlags x c =
    { z := decide (x.toNat = 0), n := decide (32768 ≤ x.toNat), c := c, v := false, e := false, x := false } := by
  simp only [resultFlags, BitVec.msb_eq_decide, BitVec.toNat_eq]
  rfl

theorem outside16_eq (x : Int) : outside16 x = decide (x < -32768 ∨ 32767 < x) := by
  simp [outside16]

/-- R320: the flags of an addition follow its exact result. -/
theorem Flags.ofSum_eq (f : Flags) (x y : BitVec 16) (b : Bool) : f.ofSum x y b = sumFlags x y b := by
  rw [Flags.ofSum, Flags.ofWord_dataWord, resultFlags_toNat, sum16, BitVec.toNat_ofNat, outside16_eq, b2n_eq_toNat]
  rfl

/-- R320: a difference modulo 2^16 is the exact one, read as an integer. -/
theorem diff16_toNat (x y : BitVec 16) (b : Bool) :
    ((diff16 x y b).toNat : Int) = ((x.toNat : Int) - y.toNat - b.toNat) % 65536 := by
  have hb := b.toNat_le
  rw [diff16, BitVec.toNat_ofNat, b2n_eq_toNat]
  omega

/-- R320: the flags of a subtraction follow its exact result. -/
theorem Flags.ofDiff_eq (f : Flags) (x y : BitVec 16) (b : Bool) : f.ofDiff x y b = diffFlags x y b := by
  have hexact := diff16_toNat x y b
  rw [Flags.ofDiff, Flags.ofWord_dataWord, resultFlags_toNat, outside16_eq, b2n_eq_toNat, diffFlags]
  simp only [Flags.mk.injEq, decide_eq_decide, ← hexact, and_self, and_true]
  refine ⟨?_, ?_, ?_⟩ <;> omega

/-- R326: s + t + C. -/
theorem sum16_eq (x y : BitVec 16) (b : Bool) : sum16 x y b = x + y + BitVec.ofNat 16 b.toNat := by
  simp only [sum16, b2n_eq_toNat, BitVec.ofNat_add, BitVec.ofNat_toNat, BitVec.setWidth_eq]

theorem sum16_false (x y : BitVec 16) : sum16 x y false = x + y :=
  (sum16_eq x y false).trans (BitVec.add_zero _)

/-- R326: s − t, less one more for a borrow. -/
theorem diff16_eq (x y : BitVec 16) (b : Bool) : diff16 x y b = x - y - BitVec.ofNat 16 b.toNat := by
  have hb := b.toNat_le
  have hexact := diff16_toNat x y b
  bv_omega

theorem diff16_false (x y : BitVec 16) : diff16 x y false = x - y :=
  (diff16_eq x y false).trans (BitVec.sub_zero _)

/-- R326: a subtraction that borrows where the carry is clear. -/
theorem diff16_not (x y : BitVec 16) (c : Bool) : diff16 x y (!c) = x - y - 1 + BitVec.ofNat 16 c.toNat := by
  rw [diff16_eq]
  cases c
  · exact (BitVec.add_zero _).symm
  · exact (BitVec.sub_zero _).trans (BitVec.sub_add_cancel _ 1).symm

/-- R320: a shift moves a bit out unless it is one by 0. -/
theorem shift_moves_iff (n : BitVec 4) : (n.toNat != 0) = decide (n ≠ 0) := by
  simp only [BitVec.toNat_eq, bne, Bool.beq_eq_decide_eq, BitVec.reduceToNat, ← decide_not, ne_eq]

/-- R320: the last bit that a left shift moves out is bit 16 of the shifted number. -/
theorem outLeft_eq (x : BitVec 16) (n : BitVec 4) :
    outLeft x n.toNat = (decide (n ≠ 0) && decide (x.toNat * 2 ^ n.toNat / 65536 % 2 = 1)) := by
  have hsplit : 65536 = 2 ^ (16 - n.toNat) * 2 ^ n.toNat := by
    rw [← Nat.pow_add, Nat.sub_add_cancel (by omega)]
  rw [outLeft, shift_moves_iff, BitVec.getLsbD, Nat.testBit_eq_decide_div_mod_eq, hsplit,
    Nat.mul_div_mul_right _ _ (Nat.two_pow_pos _)]

/-- R320: the last bit that a right shift moves out. -/
theorem outRight_eq (x : BitVec 16) (n : BitVec 4) :
    outRight x n.toNat = (decide (n ≠ 0) && decide (x.toNat / 2 ^ (n.toNat - 1) % 2 = 1)) := by
  rw [outRight, shift_moves_iff, BitVec.getLsbD, Nat.testBit_eq_decide_div_mod_eq]

/-! ### Products and bit fields (R326) -/

theorem product_toNat (x y : BitVec 16) : (product x y).toNat = x.toNat * y.toNat := by
  have hlt : x.toNat * y.toNat < 2 ^ 16 * 2 ^ 16 := Nat.mul_lt_mul'' x.isLt y.isLt
  rw [product, BitVec.toNat_mul, BitVec.toNat_setWidth_of_le (by decide), BitVec.toNat_setWidth_of_le (by decide)]
  exact Nat.mod_eq_of_lt hlt

/-- R326: bits 15:0 of the product. -/
theorem product_low (x y : BitVec 16) : (product x y).extractLsb' 0 16 = BitVec.ofNat 16 (x.toNat * y.toNat) := by
  rw [BitVec.extractLsb', product_toNat, Nat.shiftRight_zero]

/-- R326: bits 31:16 of the product. -/
theorem product_high (x y : BitVec 16) : (product x y).extractLsb' 16 16 = BitVec.ofNat 16 (x.toNat * y.toNat / 65536) := by
  rw [BitVec.extractLsb', product_toNat, Nat.shiftRight_eq_div_pow]

/-- R326: the flags of a product are those of the exact one; N is its bit 31 (notes/assumptions/33.md). -/
theorem Flags.ofProduct_eq (f : Flags) (x y : BitVec 16) : f.ofProduct (product x y) =
    { z := decide (x.toNat * y.toNat = 0), n := decide (2 ^ 31 ≤ x.toNat * y.toNat),
      c := decide (65536 ≤ x.toNat * y.toNat), v := false, e := false, x := false } := by
  have hlt : x.toNat * y.toNat < 2 ^ 32 := product_toNat x y ▸ (product x y).isLt
  simp only [Flags.ofProduct, product_high, BitVec.msb_eq_decide, Bool.beq_eq_decide_eq, bne, product_toNat,
    Flags.mk.injEq, BitVec.toNat_eq, BitVec.toNat_ofNat, BitVec.reduceToNat, ← decide_not, decide_eq_decide, and_true, true_and]
  omega

/-- R326: `w + 1` low bits are set. -/
theorem lowBits_getLsbD (w : BitVec 4) (i : Nat) : (lowBits w).getLsbD i = decide (i ≤ w.toNat) := by
  rw [lowBits, BitVec.getLsbD_ofNat, Nat.testBit_two_pow_sub_one, ← Bool.decide_and, decide_eq_decide]
  omega

theorem lowBits_toNat (w : BitVec 4) : (lowBits w).toNat = 2 ^ (w.toNat + 1) - 1 := by
  have hle : 2 ^ (w.toNat + 1) ≤ 2 ^ 16 := Nat.pow_le_pow_right (by decide) (by omega)
  rw [lowBits, BitVec.toNat_ofNat]
  exact Nat.mod_eq_of_lt (by omega)

/-- R326: a field of `w + 1` bits at `p`. -/
theorem shiftRight_and_lowBits (x : BitVec 16) (p w : BitVec 4) :
    (x >>> p.toNat) &&& lowBits w = BitVec.ofNat 16 (x.toNat / 2 ^ p.toNat % 2 ^ (w.toNat + 1)) := by
  apply BitVec.eq_of_toNat_eq
  rw [BitVec.toNat_and, lowBits_toNat, Nat.and_two_pow_sub_one_eq_mod, BitVec.toNat_ushiftRight, Nat.shiftRight_eq_div_pow,
    BitVec.toNat_ofNat]
  have hlt : x.toNat / 2 ^ p.toNat % 2 ^ (w.toNat + 1) < 2 ^ 16 :=
    Nat.lt_of_le_of_lt (Nat.mod_le _ _) (Nat.lt_of_le_of_lt (Nat.div_le_self _ _) x.isLt)
  exact (Nat.mod_eq_of_lt hlt).symm

/-- R326: the bits of `d` with the field of `w + 1` bits at `p` replaced by the low bits of `x`. -/
theorem inserted_getLsbD (d x : BitVec 16) (p w : BitVec 4) (i : Fin 16) :
    ((d &&& ~~~(lowBits w <<< p.toNat)) ||| ((x &&& lowBits w) <<< p.toNat)).getLsbD i.val =
      if p.toNat ≤ i.val ∧ i.val ≤ p.toNat + w.toNat then x.getLsbD (i.val - p.toNat) else d.getLsbD i.val := by
  have hfield : (lowBits w <<< p.toNat).getLsbD i.val = decide (p.toNat ≤ i.val ∧ i.val ≤ p.toNat + w.toNat) := by
    rw [BitVec.getLsbD_shiftLeft, lowBits_getLsbD]
    simp only [i.isLt, decide_true, Bool.true_and, ← decide_not, ← Bool.decide_and, decide_eq_decide]
    omega
  have hmoved : ((x &&& lowBits w) <<< p.toNat).getLsbD i.val =
      (x.getLsbD (i.val - p.toNat) && (lowBits w <<< p.toNat).getLsbD i.val) := by
    simp only [BitVec.getLsbD_shiftLeft, BitVec.getLsbD_and]
    exact Bool.and_left_comm ..
  rw [BitVec.getLsbD_or, BitVec.getLsbD_and, BitVec.getLsbD_not, hmoved, hfield]
  split
  case isTrue hin => simp only [hin, and_self, decide_true, Bool.not_true, Bool.and_false, Bool.false_or, Bool.and_true]
  case isFalse hout =>
    simp only [hout, i.isLt, decide_true, decide_false, Bool.not_false, Bool.and_true, Bool.and_false, Bool.or_false]

/-! ### What an instruction gives (R319, R320, R326) -/

/-- R326: a word that is moved. -/
theorem Core.putWord_next (c : Core) (d : WReg) (w : Word) (n : Nat) :
    (c.putWord d w).next n = c.gives d w (wordFlags c.fl w) n := by
  rw [Core.putWord, Flags.ofWord_eq]
  rfl

theorem Core.putSum_next (c : Core) (d : WReg) (x y : BitVec 16) (b : Bool) :
    (c.putSum d x y b).next 1 = c.gives d (Word.mk 1 (sum16 x y b)) (sumFlags x y b) 1 := by
  rw [Core.putSum, Flags.ofSum_eq]
  rfl

theorem Core.putDiff_next (c : Core) (d : WReg) (x y : BitVec 16) (b : Bool) :
    (c.putDiff d x y b).next 1 = c.gives d (Word.mk 1 (diff16 x y b)) (diffFlags x y b) 1 := by
  rw [Core.putDiff, Flags.ofDiff_eq]
  rfl

theorem Core.putLogic_next (c : Core) (d : WReg) (x : BitVec 16) :
    (c.putLogic d x).next 1 = c.gives d (Word.mk 1 x) (resultFlags x false) 1 := by
  rw [Core.putLogic, Flags.ofLogic_eq]
  rfl

theorem Core.putShift_next (c : Core) (d : WReg) (x : BitVec 16) (out : Bool) :
    (c.putShift d x out).next 1 = c.gives d (Word.mk 1 x) (resultFlags x out) 1 := by
  rw [Core.putShift, Flags.ofShift_eq]
  rfl

/-- R326: a counted branch goes on to the next slot once the register reaches 0. -/
theorem Core.setA_branch (c : Core) (a : AReg) (target : Nat) :
    (c.setA a (c.areg a - 1)).branch (c.areg a - 1 != 0) target =
      { c with
        a := listSet c.a a.val (c.areg a - 1)
        pc := if c.areg a = 1 then c.pc + 1 else target
        cycles := if c.areg a = 1 then c.cycles + 1 else c.cycles + 2 } := by
  by_cases hone : c.areg a = 1
  · rw [hone]; rfl
  · have hmore : (c.areg a - 1 != 0) = true := bne_iff_ne.mpr (by bv_omega)
    simp only [Core.branch, hmore, hone, if_true, if_false, Core.setA]

/-- R302, R326: an instruction of registers and flags completes with what it makes of the registers. -/
theorem StepsTo.ofCompute {i : Instr} {s : State} {u : Sys2Proof.PUnit} {c c' : Core} {code : BitVec 36} {f : Core → Core}
    (hi : exec i s = onAon (fun d => d.compute u code f) s) (h : s.Ready u c code) (hf : f c = c') : StepsTo i s u s.dev c' :=
  .ofAlwaysOnEffect hi h.1 (Dev.execute_of_ready h (congrArg (fun c => some (s.dev, c)) hf))

/-- Settles O37: each move writes its register, and the flags of a word that it moves to a word register. -/
theorem moveInstructions : Obligations.MoveInstructions := by
  intro s u c d x a tg imm
  exact ⟨fun h => .ofCompute (exec_nop ..) h rfl,
    fun h => .ofCompute (exec_mov ..) h (Core.putWord_next ..),
    fun h => .ofCompute (exec_ldi ..) h (Core.putWord_next ..),
    fun h => .ofCompute (exec_tag ..) h (Core.putWord_next ..),
    fun h => .ofCompute (exec_lda ..) h rfl,
    fun h => .ofCompute (exec_adda ..) h rfl,
    fun h => .ofCompute (exec_mova ..) h rfl,
    fun h => .ofCompute (exec_movw ..) h (Core.putWord_next ..)⟩

/-- Settles O38: the condition, the tag and the counted register decide whether the target or the next slot comes. -/
theorem branchInstructions : Obligations.BranchInstructions := by
  intro s u c x a tg cond target
  exact ⟨fun h => .ofCompute (exec_br ..) h rfl,
    fun h => .ofCompute (exec_btag ..) h (by simp only [Core.branch, Core.next, beq_iff_eq]),
    fun h => .ofCompute (exec_dbnz ..) h (Core.setA_branch ..)⟩

/-- Settles O35: sums and differences are the exact ones narrowed to 16 bits; that the compares clear E and X with the rest of
the flags is the model's choice (notes/assumptions/33.md). -/
theorem arithmeticInstructions : Obligations.ArithmeticInstructions := by
  intro s u c d x y imm
  exact ⟨fun h => .ofCompute (exec_add ..) h (by rw [Core.putSum_next, sum16_false]),
    fun h => .ofCompute (exec_adc ..) h (by rw [Core.putSum_next, sum16_eq]),
    fun h => .ofCompute (exec_sub ..) h (by rw [Core.putDiff_next, diff16_false]),
    fun h => .ofCompute (exec_sbc ..) h (by rw [Core.putDiff_next, diff16_not]),
    fun h => .ofCompute (exec_addi ..) h (by rw [Core.putSum_next, sum16_false]),
    fun h => .ofCompute (exec_subi ..) h (by rw [Core.putDiff_next, diff16_false]),
    fun h => .ofCompute (exec_cmp ..) h (by rw [Flags.ofDiff_eq]; rfl),
    fun h => .ofCompute (exec_cmpi ..) h (by rw [Flags.ofDiff_eq]; rfl)⟩

/-- Settles O36: logic, shifts and bit fields put a result with its flags, and the product fills two registers. That a shift by 0
clears C and that N of MUL is bit 31 are the model's choices (notes/assumptions/33.md). -/
theorem logicAndShiftInstructions : Obligations.LogicAndShiftInstructions := by
  intro s u c d x y imm n p w
  exact ⟨fun h => .ofCompute (exec_and ..) h (Core.putLogic_next ..),
    fun h => .ofCompute (exec_or ..) h (Core.putLogic_next ..),
    fun h => .ofCompute (exec_xor ..) h (Core.putLogic_next ..),
    fun h => .ofCompute (exec_not ..) h (Core.putLogic_next ..),
    fun h => .ofCompute (exec_andi ..) h (Core.putLogic_next ..),
    fun h => .ofCompute (exec_ori ..) h (Core.putLogic_next ..),
    fun h => .ofCompute (exec_xori ..) h (Core.putLogic_next ..),
    fun h => .ofCompute (exec_shl ..) h (by rw [Core.putShift_next, outLeft_eq]),
    fun h => .ofCompute (exec_shr ..) h (by rw [Core.putShift_next, outRight_eq]),
    fun h => .ofCompute (exec_sar ..) h (by rw [Core.putShift_next, outRight_eq]),
    fun h => .ofCompute (exec_mul ..) h (by simp only [product_low, product_high, Flags.ofProduct_eq]; rfl),
    fun h => .ofCompute (exec_ext ..) h (by rw [Core.putLogic_next, shiftRight_and_lowBits]),
    fun h => ⟨_, .ofCompute (exec_ins ..) h (Core.putLogic_next ..), inserted_getLsbD (c.dat d) (c.dat x) p w⟩⟩

end Sys2Proof.Machine

/-! SUPPORT. The statements of spec/11_signal_gateway.md: fresh writes of signal slots (R339, R340), and the commands of the cut
stage, the slots and the pack lists (R335 to R361). -/

namespace Sys2Proof.Machine

open Sys2Proof

/-! ### Fresh writes of slots (R339, R340) -/

section
variable (d : Dev) (b : BitVec 2) (n k : Nat) (v : BitVec 64)

theorem Dev.setSlot_get_other (x : Slot) {n k : Nat} (h : k ≠ n) : (d.setSlot n x).slot k = d.slot k :=
  SMap.get_put_other (fun _ => Slot.reset) (fun _ => Slot.reset) d.gwy.slots n k x h

/-- R350: what no change of a list touches stays when lists become dirty. -/
theorem Dev.markDirty_keeps {α : Type} {g : Dev → α} (hg : ∀ e l x, g (e.setPlist l x) = g e) : g (d.markDirty n) = g d :=
  List.foldlRecOn (motive := fun e => g e = g d) _ _ rfl fun _ same _ _ => (hg ..).trans same

@[simp] theorem Dev.markDirty_slot : (d.markDirty n).slot k = d.slot k :=
  d.markDirty_keeps n (g := fun e => e.slot k) fun _ _ _ => rfl

@[simp] theorem Dev.markDirty_now : (d.markDirty n).now = d.now := d.markDirty_keeps n fun _ _ _ => rfl

@[simp] theorem Dev.markDirty_regs : (d.markDirty n).regs = d.regs := d.markDirty_keeps n fun _ _ _ => rfl

/-- R339: the age of a slot that was written at moment `t`. -/
theorem Dev.slotAge_of_fresh {t : Nat} (h : (d.slot n).fresh = some t) :
    d.slotAge n = min 0xFFFFFF ((d.now - t) / (10 * Config.perUs)) := by
  rw [Dev.slotAge, h]

/-- R350: the write of a slot as `x` changes that slot and makes lists dirty. -/
def Dev.writeSlot (x : Slot) : Dev := ((d.wordGood (slotKey n)).setSlot n x).markDirty n

@[simp] theorem Dev.writeSlot_same (x : Slot) : (d.writeSlot n x).slot n = x :=
  (Dev.markDirty_slot ..).trans (Dev.setSlot_get ..)

theorem Dev.writeSlot_other (x : Slot) {n k : Nat} (h : k ≠ n) : (d.writeSlot n x).slot k = d.slot k :=
  (Dev.markDirty_slot ..).trans (Dev.setSlot_get_other _ x h)

@[simp] theorem Dev.writeSlot_now (x : Slot) : (d.writeSlot n x).now = d.now := Dev.markDirty_now ..

@[simp] theorem Dev.writeSlot_regs (x : Slot) : (d.writeSlot n x).regs = d.regs := Dev.markDirty_regs ..

/-- R340: a slot that is written now has age 0. -/
theorem Dev.writeSlot_age {x : Slot} (h : x.fresh = some d.now) : (d.writeSlot n x).slotAge n = 0 := by
  rw [Dev.slotAge_of_fresh _ n ((congrArg Slot.fresh (Dev.writeSlot_same ..)).trans h), Dev.writeSlot_now, Nat.sub_self,
    Nat.zero_div, Nat.min_zero]

variable {b n}

/-- R340: the fresh write of a slot in use. -/
theorem Dev.freshWrite_of_inUse (h : d.slotInUse b n = true) :
    d.freshWrite b n v = d.writeSlot n ⟨v, true, false, some d.now, d.slotSeen n⟩ :=
  if_pos h

/-- R340: the write of a slot whose entry is not VALID counts. -/
theorem Dev.freshWrite_of_not_inUse (h : d.slotInUse b n = false) : d.freshWrite b n v = d.bump 0x048 Reg.GWY.CUT_NOSLOT :=
  if_neg (by simp [h])

end

/-- Settles O44: the write of a slot in use leaves the other slots and the registers, and any other one is a count alone. -/
theorem freshWritesOfSlots : Obligations.FreshWritesOfSlots := by
  intro d b n k v
  refine ⟨fun hin => ?stored, fun hout => ?discarded⟩
  case stored =>
    rw [d.freshWrite_of_inUse v hin, Dev.writeSlot_same]
    exact ⟨rfl, rfl, rfl, d.writeSlot_age n rfl, d.writeSlot_other _, d.writeSlot_regs ..⟩
  case discarded =>
    rw [d.freshWrite_of_not_inUse v hout]
    exact ⟨rfl, rfl, d.rd_wr_same _ _ _ _ (by decide)⟩

/-! ### Slot writes of the host (R361): writes of page 0x048 -/

theorem exec_slotVloWrite_eq (via : Via) (data : BitVec 32) (s : State) : exec (.slotVloWrite via data) s =
    onBus (.slotVloWrite data) via 0x048 (fun d => d.unlocked 0x048 fun d => d.slotVlo via data) s := by
  rw [exec_slotVloWrite, execSlotVloWrite]

theorem exec_slotVhiWrite_eq (via : Via) (data : BitVec 32) (s : State) : exec (.slotVhiWrite via data) s =
    onBus (.slotVhiWrite data) via 0x048 (fun d => d.unlocked 0x048 fun d => d.slotVhi via data) s := by
  rw [exec_slotVhiWrite, execSlotVhiWrite]

/-! ### The ACF message of a sentence (R354, R540) -/

/-- R354: a list takes the sentence at its head where no header word is bad, the sentence makes a message, and there is room. -/
theorem Dev.gwyTake_of_message {d : Dev} {c : Copy} {y : Sen} {l : Nat} {m : List Byte}
    (hdest : d.copyDest c y = some (.list l)) (hacf : d.listAcf (d.tableBank y.shb.bank) l = true)
    (horg : ∀ k a, y.org ≠ .gateway k a) (hm : d.acfMessage (d.tableBank y.shb.bank) l y = some m)
    (hroom : d.acfRoom (d.tableBank y.shb.bank) l m = true)
    (hgood : ∀ k ∈ [0, 6, 7], d.badAt (d.tableBank y.shb.bank) (0x20A0000 + 64 * l + 4 * k) = false) :
    d.gwyTake c y = some ((d.acfGather (d.tableBank y.shb.bank) l m).deliver c) := by
  have hwords : (([0, 6, 7].map fun k => 0x20A0000 + 64 * l + 4 * k).find? fun a =>
      d.badAt (d.tableBank y.shb.bank) a) = none := by
    rw [List.find?_eq_none]
    intro a ha
    obtain ⟨k, hk, rfl⟩ := List.mem_map.mp ha
    simp [hgood k hk]
  simp only [Dev.gwyTake, hdest, hwords]
  -- With `horg` in the context, the test of R337 on the origin takes its default arm.
  simp [hacf, hm, hroom]

/-- R240: the gateway takes a copy that need not wait. -/
theorem Dev.gwyNext_of_take {d e : Dev} {c : Copy} {y : Sen} (h : d.gwyTake c y = some e) :
    d.gwyNext (c, y) = d.chosen c y fun d => (d.gwyTake c y).getD d := by
  simp only [Dev.gwyNext, h]

/-! ### The change check (R350, R360) -/

/-- R350, R360: the block when list `l` checks itself: in a cycle after this one, and after the least gap from its last firing. -/
def Dev.atChangeCheck (d : Dev) (l : Nat) : Dev :=
  let c := d.reach ((d.now / 16 + 1) * 16)
  match (d.plist l).lastFire with
  | some t => c.reach (t + bitsOf (d.listHead d.nrm.active l 3) 0 20 * Config.perUs)
  | none => c

section
variable {s : State} {l : BitVec 12} (hs : s.Runs)
include hs

/-- R350: a dirty list whose payload is not the one it sent last fires. -/
theorem Completes.changeCheck (hdirty : (s.dev.plist l.toNat).dirty = true)
    (hsig : s.dev.listSignal s.dev.nrm.active l.toNat = true) (hchg : s.dev.listOnChange s.dev.nrm.active l.toNat = true) :
    let e := s.dev.atChangeCheck l.toNat
    let f := e.setPlist l.toNat { e.plist l.toNat with dirty := false }
    (e.plist l.toNat).sent ≠ some (e.listPayload l.toNat) → Completes (.changeCheck l) s (f.fallsDue l.toNat f.now true) := by
  intro e f hsent
  have hdiff : (f.plist l.toNat).sent ≠ some (e.listPayload l.toNat) := by rwa [Dev.setPlist_get]
  exact .ofEffect (exec_changeCheck ..) hs ((if_neg (by simp [hdirty, hsig, hchg])).trans (if_neg hdiff))

/-! ### Cuts and firings (R344, R349, R353, R355) -/

/-- R344: the cut stage cuts the sentence that it accepted first. -/
theorem Completes.cut {h : Shb} {body : List Byte} {rest : List (Shb × List Byte)} (hc : s.dev.gwy.cuts = (h, body) :: rest) :
    Completes .cut s ({ s.dev with gwy := { s.dev.gwy with cuts := rest } }.cutSentence h body) :=
  .ofEffect (exec_cut s) hs (by simp only [hc])

/-- R349: a periodic list's firing falls due, and the next one a period after it. -/
theorem Completes.firingDue {t : Nat} (ht : (s.dev.plist l.toNat).nextDue = some t) :
    let d := s.dev.reach t
    Completes (.firingDue l) s
      ((d.setPlist l.toNat { d.plist l.toNat with
        nextDue := some (t + bitsOf (d.listHead d.nrm.active l.toNat 1) 0 20 * Config.perUs) }).fallsDue l.toNat t false) :=
  .ofEffect (exec_firingDue ..) hs (by simp only [ht])

/-- R355: the lists whose next frame is full fire. -/
def Dev.fullListsFire (d : Dev) : Dev :=
  (d.gwy.lists.filter fun x => d.listAcf d.nrm.active x.1 && d.acfFull d.nrm.active x.1).foldl (fun d x => d.acfFire x.1) d

/-- R353: the pending firing that starts next, with its list. -/
def Dev.nextFiring (d : Dev) : Option (Nat × Nat) :=
  earliest (d.gwy.lists.filterMap fun x => x.2.fire.head?.map fun t => (t, x.1))

/-- R353: the firing that was due first starts, 125 ns after the one before at the earliest. -/
theorem Completes.firingStart {t k : Nat} (hnext : s.dev.fullListsFire.nextFiring = some (t, k)) :
    let f := s.dev.fullListsFire.reach s.dev.fullListsFire.gwy.fireAt
    Completes .firingStart s ({ f with gwy := { f.gwy with fireAt := f.now + 2000 } }.startFiring k t) := by
  refine .ofEffect (exec_firingStart s) hs ?_
  unfold Dev.nextFiring Dev.fullListsFire at hnext
  simp only [hnext]
  rfl

/-- R240, R354: the list takes the sentence that the gateway must take next, which is for it. -/
theorem Completes.acfMessage {c : Copy} {y : Sen} {rest : List (Copy × Sen)} {e : Dev}
    (hq : s.dev.egressOrder 0x79 = (c, y) :: rest) (hdest : s.dev.copyDest c y = some (.list l.toNat))
    (htake : s.dev.gwyTake c y = some e) :
    Completes (.acfMessage l) s (s.dev.chosen c y fun d => (d.gwyTake c y).getD d) := by
  have hfor : s.dev.forList l.toNat (c, y) = true := by simp [Dev.forList, hdest]
  refine .ofEffect (exec_acfMessage ..) hs ?_
  simp only [hq, hfor, if_true, Dev.gwyNext_of_take htake]

/-- R355: a list whose first message has waited for the hold time fires. -/
theorem Completes.acfHoldExpiry (hmsgs : (s.dev.plist l.toNat).msgs ≠ [])
    (hacf : s.dev.listAcf s.dev.nrm.active l.toNat = true) :
    Completes (.acfHoldExpiry l) s
      ((s.dev.reach ((s.dev.plist l.toNat).first + s.dev.acfHold s.dev.nrm.active l.toNat * Config.perUs)).acfFire l.toNat) :=
  .ofEffect (exec_acfHoldExpiry ..) hs (if_neg (by simp [hmsgs, hacf]))

end

/-- Settles O43: each command has its effect where its condition holds; the slot writes are writes of a page that is not locked.
That a change check comes in a cycle after the write is the model's choice (notes/assumptions/55.md), as are the corners of the
slots and the cut stage (notes/assumptions/34.md). -/
theorem gatewayCommandsComplete : Obligations.GatewayCommandsComplete := by
  intro s via data l hs
  refine ⟨fun h body rest => .cut hs, fun h hl => ⟨?low, ?high⟩, fun slot => .ofEffect (exec_stale ..) hs rfl,
    fun t => .firingDue hs, fun hdirty hsig hchg => .changeCheck hs hdirty hsig hchg, fun t k => .firingStart hs, ?message,
    .acfHoldExpiry hs⟩
  case low => exact .ofUnlocked (exec_slotVloWrite_eq ..) hs h hl rfl
  case high => exact .ofUnlocked (exec_slotVhiWrite_eq ..) hs h hl rfl
  case message =>
    intro c y rest m hq hdest b hacf horg hm hroom hgood
    exact .acfMessage hs hq hdest (Dev.gwyTake_of_message hdest hacf horg hm hroom hgood)

end Sys2Proof.Machine

/-! SUPPORT. The statement of spec/12_time_base.md: snapshots (R365), domains and their relay over a board (R367 to R370, R396), event
inputs (R381), timed outputs (R382, R383) and board time (R391 to R395). -/

namespace Sys2Proof.Machine

open Sys2Proof

/-! ### Register commands (R365, R370): writes of pages 0x020 and 0x021 -/

theorem exec_snapshot_eq (via : Via) (s : State) : exec (.snapshot via) s =
    onBus .snapshot via 0x020 (fun d => d.unlocked 0x020 fun d => d.snap (viaCode via)) s := by
  rw [exec_snapshot, execSnapshot]

theorem exec_domainStep_eq (via : Via) (n : Fin 4) (s : State) : exec (.domainStep via n) s =
    onBus (.domainStep n) via 0x021 (fun d => d.unlocked 0x021 fun d => d.domStep n.val (viaCode via)) s := by
  rw [exec_domainStep, execDomainStep]

/-- R370: GO of a domain that the host may step, with the token taken: the step waits for the next whole microsecond. -/
theorem Dev.domStep_of_taken {d : Dev} {n src : Nat}
    (hrole : d.rd 0x021 Reg.TBU_DOM_CFG.ROLE n = 1 ∨ d.rd 0x021 Reg.TBU_DOM_CFG.ROLE n = 2)
    (htake : (d.maintTake 0x021 10 src).1 = true) :
    let e := ((d.maintTake 0x021 10 src).2.wr 0x021 Reg.TBU_DOM_STEP_CTRL.GO 1 n).domKept n
    d.domStep n src = e.setDom n { e.dom n with stepAt := some e.nextUs } := by
  have hmay : ¬(d.rd 0x021 Reg.TBU_DOM_CFG.ROLE n = 0 ∨ d.rd 0x021 Reg.TBU_DOM_CFG.ROLE n = 3) := by omega
  exact (if_neg hmay).trans (if_pos htake)

/-! ### Domains (R367, R369, R370, R396) -/

/-- R367, R396: the first relay that waits on a board follower applies, at its instant of board time. -/
theorem Dev.relayApply_of_follower {d : Dev} {n : Nat} {m : DomRelayMsg} {ms : List DomRelayMsg} (hm : (d.dom n).relay = m :: ms)
    (hrole : d.rd 0x021 Reg.TBU_DOM_CFG.ROLE n = 3) :
    let e := d.reach (d.whenWall (d.wclk + (d.aheadBy m.at_).toNat))
    let e := e.setDom n { e.domNow n with relay := ms }
    let e := (e.setDom n { e.dom n with rate := m.rate }).wr 0x021 Reg.TBU_DOM_RATE.RATE m.rate.toNat n
    let e := if m.step then e.domAdd n m.stepS.toNat m.stepNs.toNat else e
    d.relayApply n = e.wrB 0x021 Reg.TBU_DOM_CFG.SYNC (m.sync && e.tbu.locked) n := by
  simp only [Dev.relayApply, hm]
  -- ROLE is a register, which neither the time nor the domain's state changes.
  exact if_pos hrole

section
variable {s : State} {n : Fin 4} {t : Nat} (hs : s.Runs)
include hs

/-- R367, R396: a rate that was written applies at its moment, and the manager relays it. -/
theorem Completes.rateApply (ht : (s.dev.dom n.val).rateAt = some t) :
    let d := s.dev.reach t
    Completes (.rateApply n) s
      ((d.setDom n.val { d.domNow n.val with
        rate := BitVec.ofNat 32 (d.rd 0x021 Reg.TBU_DOM_RATE.RATE n.val), rateAt := none }).relay n.val false) :=
  .ofEffect (exec_rateApply ..) hs (by simp only [ht])

/-- R369: a follower in SYNC loses it HOLD_MS after the last write that kept it. -/
theorem Completes.syncLost (ht : (s.dev.dom n.val).holdAt = some t) (hhold : s.dev.rd 0x021 Reg.TBU_DOM_CFG.HOLD_MS n.val ≠ 0)
    (hrole : s.dev.rd 0x021 Reg.TBU_DOM_CFG.ROLE n.val = 2) (hsync : s.dev.on 0x021 Reg.TBU_DOM_CFG.SYNC n.val = true) :
    Completes (.syncLost n) s
      ((s.dev.reach (t + s.dev.rd 0x021 Reg.TBU_DOM_CFG.HOLD_MS n.val * Config.perMs)).syncGone n.val) :=
  .ofEffect (exec_syncLost ..) hs (by
    simp only [ht]
    exact if_neg (by simp [hhold, hrole, hsync]))

/-- R370, R382, R396: a step applies at its moment, is done, and is relayed by the manager. -/
theorem Completes.domainStepApply (ht : (s.dev.dom n.val).stepAt = some t) :
    let d := s.dev.reach t
    let d := d.domAdd n.val (d.rd 0x021 Reg.TBU_DOM_STEP_S.STEP_S n.val) (d.rd 0x021 Reg.TBU_DOM_STEP_NS.STEP_NS n.val)
    let d := d.setDom n.val { d.dom n.val with stepAt := none }
    Completes (.domainStepApply n) s
      ((((d.wr 0x021 Reg.TBU_DOM_STEP_CTRL.RESULT 1 n.val).wr 0x021 Reg.TBU_DOM_STEP_CTRL.GO 0 n.val).maintEnd 0x021 10).relay
        n.val true) :=
  .ofEffect (exec_domainStepApply ..) hs (by simp only [ht])

end

/-! ### Event inputs and timed outputs (R381 to R383) -/

section
variable {s : State} (hs : s.Runs)
include hs

/-- R381: an enabled edge is captured, when it comes 20 ns or more after the last edge of its input that was, or is the first. -/
theorem Completes.eventInput {i : TimeInput} {rising : Bool} {age : Nat} (hruns : s.dev.captures = true)
    (hedge : bitAt (s.dev.rd 0x022 Reg.TBU_TSI_CFG.EDGE (inputIndex i)) (if rising then 0 else 1) = true)
    (hgap : ∀ u, SMap.get (fun _ => none) s.dev.tbu.lastEdge (inputIndex i) = some u → u + 320 ≤ s.dev.now - age) :
    Completes (.eventInput i rising age) s (s.dev.edge i rising (s.dev.now - age)) := by
  refine .ofEffect (exec_eventInput ..) hs ((if_neg (by simp [hruns, hedge])).trans ?_)
  cases hlast : SMap.get (fun _ => none) s.dev.tbu.lastEdge (inputIndex i) with
  | none => rfl
  | some u => exact if_neg (Nat.not_lt.mpr (hgap u hlast))

/-- R382: an armed output that is low rises at its next edge. -/
theorem Completes.tsoRise {o : Fin 5} (harmed : (s.dev.tso o.val).armed = true) (hlow : (s.dev.tso o.val).high = false) :
    let t := s.dev.tsoEdge o.val (s.dev.tso o.val).next
    let e := s.dev.reach (s.dev.momentAt (s.dev.tsoClock o.val) t)
    Completes (.tsoRise o) s
      ((e.setTso o.val { e.tso o.val with next := (e.tso o.val).next + 1, high := true, risen := t }).tsoDrive o.val true) :=
  .ofEffect (exec_tsoRise ..) hs (if_neg (by simp [harmed, hlow]))

/-- R382, R383: an armed output that is high falls HIGH_NS after the edge with which it rose. -/
theorem Completes.tsoFall {o : Fin 5} (harmed : (s.dev.tso o.val).armed = true) (hhigh : (s.dev.tso o.val).high = true) :
    let e := s.dev.reach (s.dev.momentAt (s.dev.tsoClock o.val) ((s.dev.tso o.val).risen + s.dev.tsoHigh o.val))
    Completes (.tsoFall o) s ((e.setTso o.val { e.tso o.val with high := false }).tsoDrive o.val false) :=
  .ofEffect (exec_tsoFall ..) hs (if_neg (by simp [harmed, hhigh]))

/-! ### Board time (R392, R394, R395) -/

/-- R392: a link that is up, or in step 5 of its training, is timed by a request that carries the working clock. -/
theorem Completes.timeExchange {l : Fin 4} (hon : s.dev.linkOn l.val = true)
    (hup : (s.dev.link l.val).isUp = true ∨ (s.dev.link l.val).step = 5) :
    let x := s.dev.link l.val
    Completes (.timeExchange l) s
      ((s.dev.setLink l.val { x with timeReq := some (SMap.get (fun _ => (0 : BitVec 8)) x.seqs 5, s.dev.wclk) }).sendVc3
        l.val 5 none (timeWords (stampOf s.dev.wclk))) := by
  have htimed : ((s.dev.link l.val).isUp || (s.dev.link l.val).step == 5) = true := by simpa using hup
  exact .ofEffect (exec_timeExchange ..) hs (if_neg (by simp [hon, htimed]))

/-- R394: a locked worker loses its lock 1 ms after its last exchange. -/
theorem Completes.boardLockLost (hworker : s.dev.pwr.manager = false) (hlock : s.dev.tbu.locked = true) :
    Completes .boardLockLost s (s.dev.reach (s.dev.tbu.lastEx + Config.perMs)).boardLost :=
  .ofEffect (exec_boardLockLost s) hs (if_neg (by simp [hworker, hlock]))

/-- R395: a step that waited for the token is tried again. -/
theorem Completes.boardStepRetry {t : Nat} (ht : s.dev.tbu.stepTry = some t) :
    Completes .boardStepRetry s ((s.dev.reach t).boardTryStep s.dev.tbu.offset) :=
  .ofEffect (exec_boardStepRetry s) hs (by simp only [ht])

end

/-- Settles O45: each command has its effect where its condition holds; the snapshot and GO are writes of a page that is not locked.
That a command of a due moment brings the block forward to that moment is the model's choice (notes/assumptions/11.md), as is the
free rate with which a worker that waits for the token slews (notes/assumptions/35.md). -/
theorem timeCommandsComplete : Obligations.TimeCommandsComplete := by
  intro s via n hs
  refine ⟨fun h hl => ?snapshot, fun t => .rateApply hs, fun t => .syncLost hs, fun h hl hrole htake => ?step,
    fun t => .domainStepApply hs, fun i rising age => .eventInput hs, fun o => .tsoRise hs, fun o => .tsoFall hs,
    fun l => .timeExchange hs, .boardLockLost hs, fun t => .boardStepRetry hs, fun m ms hm hrole => ?relay⟩
  case snapshot => exact .ofUnlocked (exec_snapshot_eq ..) hs h hl rfl
  case step => exact .ofUnlocked (exec_domainStep_eq ..) hs h hl (Dev.domStep_of_taken hrole htake)
  case relay => exact .ofEffect (exec_domRelayApply ..) hs (Dev.relayApply_of_follower hm hrole)

end Sys2Proof.Machine

/-! SUPPORT. The machine as a whole (spec/95_what_each_step_holds.md): each command completes whatever waits behind it, so
that runs compose; a device whose fast domains have no clock keeps what it holds (R497, R502); and SVC_OK follows its
conditions (R552). -/

namespace Sys2Proof.Machine

open Sys2Proof

/-! ### The outcome of a command, whatever waits behind it -/

/-- What a command makes of the block. -/
def Instr.effect (i : Instr) (d : Dev) : Dev :=
  match exec i ⟨d, []⟩ with
  | .next t => t.dev
  | _ => d

theorem onDevL_eq (f : Dev → Dev) (s : State) :
    onDevL f s = .next ⟨if s.dev.clocked then s.dev.closing (f s.dev) else s.dev, s.pending⟩ := rfl

theorem onAon_eq (f : Dev → Dev) (s : State) :
    onAon f s = .next ⟨if s.dev.pwr.dead then s.dev else s.dev.closing (f s.dev), s.pending⟩ := rfl

/-- The four kinds of command: of the fast domains, of the always-on domain, and the two resets from outside. -/
theorem exec_cases (i : Instr) :
    (∃ f, ∀ s, exec i s = onDevL f s) ∨ (∃ f, ∀ s, exec i s = onAon f s) ∨ i = .powerOnReset ∨ i = .resetN := by
  by_cases hp : i = .powerOnReset
  · exact .inr (.inr (.inl hp))
  by_cases hr : i = .resetN
  · exact .inr (.inr (.inr hr))
  cases h : Instr.alwaysOn i with
  | false => exact .inl (exec_fast i h)
  | true => exact .inr (.inl (exec_alwaysOn i h hp hr))

/-- A command completes, and the queue has no part in it. -/
theorem exec_eq_effect (i : Instr) (s : State) : exec i s = .next ⟨Instr.effect i s.dev, s.pending⟩ := by
  unfold Instr.effect
  obtain ⟨f, hf⟩ | ⟨f, hf⟩ | rfl | rfl := exec_cases i
  · rw [hf, hf, onDevL_eq, onDevL_eq]
  · rw [hf, hf, onAon_eq, onAon_eq]
  · rfl
  · rw [exec_resetN, exec_resetN, execResetN, execResetN]
    cases s.dev.pwr.dead <;> rfl

/-- Settles O3: an event that cannot happen is a command without effect (the model's choice, notes/assumptions/7.md). -/
theorem everyCommandCompletes : Obligations.EveryCommandCompletes := ⟨Instr.effect, exec_eq_effect⟩

/-- Settles O1: by the definition of a step. -/
theorem stepTakesTheFrontCommand : Obligations.StepTakesTheFrontCommand := fun _ _ _ => rfl

/-- Settles O2: a cell time is 128 units of the clock (the model's choice, notes/assumptions/5.md). -/
theorem idleStepLetsACellTimePass : Obligations.IdleStepLetsACellTimePass := fun _ => rfl

/-! ### Runs -/

theorem runs_zero (s : State) : runs 0 s = .next s := rfl

/-- A run that starts with a step. -/
theorem runs_succ {n : Nat} {s t : State} (h : step s = .next t) : runs (n + 1) s = runs n t := by
  have hcore : core.step s = .next t := h
  simp only [runs, Host.Core.run, hcore]
  rfl

/-- A run as long as the front part of the queue is the effects of its commands, one after the other. -/
theorem runs_append (a b : List Instr) (d : Dev) :
    runs a.length ⟨d, a ++ b⟩ = .next ⟨a.foldl (fun d i => Instr.effect i d) d, b⟩ := by
  induction a generalizing d with
  | nil => rfl
  | cons i a ih =>
    have front : step ⟨d, i :: a ++ b⟩ = .next ⟨Instr.effect i d, a ++ b⟩ := exec_eq_effect i ⟨d, a ++ b⟩
    rw [List.length_cons, runs_succ front, ih, List.foldl_cons]

theorem runs_whole (a : List Instr) (d : Dev) : runs a.length ⟨d, a⟩ = .next ⟨a.foldl (fun d i => Instr.effect i d) d, []⟩ := by
  simpa using runs_append a [] d

/-- Settles O4: the run folds the effects of the commands. -/
theorem aRunEmptiesTheQueue : Obligations.ARunEmptiesTheQueue := fun s => ⟨_, runs_whole s.pending s.dev⟩

/-- Settles O5: both runs fold the effects of the first part. -/
theorem queuesCompose : Obligations.QueuesCompose := by
  intro d a b e h
  have same : a.foldl (fun d i => Instr.effect i d) d = e :=
    congrArg State.dev (Host.Outcome.next.inj ((runs_whole a d).symm.trans h))
  rw [runs_append, same]

/-! ### A device whose fast domains have no clock (R497, R502) -/

/-- A sleeping device takes a step to a sleeping device that holds the same. -/
theorem State.Asleep.steps {d : Dev} {s : State} (h : s.Asleep d) : ∃ t, step s = .next t ∧ t.Asleep d := by
  obtain ⟨hclock, hqueue, hsame⟩ := h
  obtain ⟨e, q⟩ := s
  cases q with
  | nil => exact ⟨_, rfl, hclock, hqueue, hsame⟩
  | cons i rest =>
    obtain ⟨f, hf⟩ := exec_fast i (hqueue i List.mem_cons_self)
    exact ⟨⟨e, rest⟩, (hf ⟨e, rest⟩).trans (onDevL_unclocked f _ hclock), hclock,
      fun j hj => hqueue j (List.mem_cons_of_mem i hj), hsame⟩

/-- Settles O9: no command of the fast domains has an effect while they have no clock (the model's choice,
notes/assumptions/8.md). -/
theorem everyStepKeepsAsleep : Obligations.EveryStepKeepsAsleep := by
  intro d s t h hstep
  obtain ⟨u, hu, hasleep⟩ := h.steps
  exact Host.Outcome.next.inj (hu.symm.trans hstep) ▸ hasleep

/-- Settles O10, by induction on the length of the run; what a step does is O9's, with the model's choice of
notes/assumptions/8.md. -/
theorem asleepRunsChangeNothing : Obligations.AsleepRunsChangeNothing := by
  intro d n
  induction n with
  | zero => exact fun s h => ⟨s, runs_zero s, h⟩
  | succ n ih =>
    intro s h
    obtain ⟨u, hu, hasleep⟩ := h.steps
    obtain ⟨t, ht, hend⟩ := ih u hasleep
    exact ⟨t, (runs_succ hu).trans ht, hend⟩

/-! ### What follows a command leaves registers as they are, but for PG_EVT and HBR_LHP_IRQ -/

/-- The field is neither PG_EVT of a page nor HBR_LHP_IRQ, which events and levels change (R78, R578). -/
def Fld.Still (f : Fld) (q : PageId) (i : Nat) : Prop :=
  (∀ p, f.key q i ≠ Reg.PG_EVT.EVT.key p 0) ∧ f.key q i ≠ Reg.HBR_LHP_IRQ.PENDING.key 0x01F 0

/-- A field whose offset is neither that of PG_EVT nor that of HBR_LHP_IRQ. -/
theorem Fld.still_of_off {f : Fld} (q : PageId) {i : Nat} (ho : f.off + f.step * i < 4096) (hl : f.lo < 32)
    (he : f.off + f.step * i ≠ Reg.PG_EVT.EVT.off) (hp : f.off + f.step * i ≠ Reg.HBR_LHP_IRQ.PENDING.off) : f.Still q i :=
  ⟨fun _ => fieldKey_ne ho (by decide) hl (by decide) (.inr (.inl he)),
    fieldKey_ne ho (by decide) hl (by decide) (.inr (.inl hp))⟩

theorem Dev.raise_rd {f : Fld} {q : PageId} {i : Nat} (h : f.Still q i) (d : Dev) (p : PageId) (bit : Nat) :
    (d.raise p bit).rd q f i = d.rd q f i :=
  d.latch_rd p _ q f i (h.1 p) h.2

theorem Dev.svcFollow_rd {f : Fld} {q : PageId} {i : Nat} (h : f.Still q i) (d : Dev) :
    d.svcFollow.rd q f i = d.rd q f i := by
  simp only [Dev.svcFollow]
  split
  · exact Dev.raise_rd h _ _ _
  · rfl

/-- R552, R578: what follows a command changes PG_EVT fields and HBR_LHP_IRQ alone of the registers. -/
theorem Dev.closing_rd {f : Fld} {q : PageId} {i : Nat} (h : f.Still q i) (d e : Dev) : (d.closing e).rd q f i = e.rd q f i :=
  (d.followLevels_rd _ q f i h.1 h.2).trans (Dev.svcFollow_rd h (d.restarted e))

/-! ### SVC_OK (R552) -/

theorem OnlySignals.pwr_eq {d e : Dev} (h : OnlySignals d e) : e.pwr = d.pwr := by
  obtain ⟨_, _, _, rfl⟩ := h
  rfl

theorem Dev.svcFollow_pwr (d : Dev) : d.svcFollow.pwr = { d.pwr with svcOk := d.svcHolds } := by
  simp only [Dev.svcFollow]
  split
  · exact (Dev.raise_signals ..).pwr_eq
  · rfl

theorem Dev.closing_pwr (d e : Dev) :
    (d.closing e).pwr = { (d.restarted e).pwr with svcOk := (d.restarted e).svcHolds } :=
  (d.followLevels_signals _).pwr_eq.trans (Dev.svcFollow_pwr _)

/-- Every field that a condition of SVC_OK reads is one that events and levels leave as it is. -/
theorem Dev.svcHolds_congr {d e : Dev} (hsj : e.nrm.sj = d.nrm.sj) (hp : e.pwr.power = d.pwr.power)
    (hr : ∀ (f : Fld) (q : PageId) (i : Nat), f.Still q i → e.rd q f i = d.rd q f i) : e.svcHolds = d.svcHolds := by
  have read : ∀ (f : Fld) (q : PageId), f.off < 4096 → f.lo < 32 → f.off ≠ Reg.PG_EVT.EVT.off →
      f.off ≠ Reg.HBR_LHP_IRQ.PENDING.off → e.rd q f = d.rd q f :=
    fun f q ho hl he hp => hr f q 0 (Fld.still_of_off q (by simpa using ho) hl (by simpa using he) (by simpa using hp))
  have hworst : e.worst = d.worst := by
    simp only [Dev.worst, read Reg.PG_FAULT.WORST _ (by decide) (by decide) (by decide) (by decide)]
  simp only [Dev.svcHolds, Dev.on, hsj, hp, hworst,
    read Reg.PCH_BOOT_STAT.FWD _ (by decide) (by decide) (by decide) (by decide),
    read Reg.PCH_SAFE.ACTIVE _ (by decide) (by decide) (by decide) (by decide),
    read Reg.MST_FW_STAT.FALLBACK _ (by decide) (by decide) (by decide) (by decide),
    read Reg.PCH_SVC.FORCE_LOW _ (by decide) (by decide) (by decide) (by decide),
    read Reg.PCH_SVC.LEVEL _ (by decide) (by decide) (by decide) (by decide)]

/-- What follows a command leaves the conditions of SVC_OK as they are. -/
theorem Dev.closing_svcHolds (d e : Dev) : (d.closing e).svcHolds = e.svcHolds :=
  Dev.svcHolds_congr (congrArg Nrm.sj (d.closing_nrm e)) (congrArg Pwr.power (d.closing_pwr e) :)
    fun _ _ _ h => Dev.closing_rd h d e

/-- At the end of every command SVC_OK is what its conditions say. -/
theorem Dev.closing_svcOk (d e : Dev) : (d.closing e).pwr.svcOk = e.svcHolds := by
  rw [Dev.closing_pwr]
  exact Dev.svcHolds_congr rfl rfl fun _ _ _ _ => rfl

theorem Dev.closing_svcTrue (d e : Dev) (q : List Instr) : State.SvcTrue ⟨d.closing e, q⟩ :=
  (d.closing_svcOk e).trans (d.closing_svcHolds e).symm

/-- Before the device forwards, SVC_OK is low. -/
theorem State.svcTrue_of_start {d : Dev} (q : List Instr) (hsvc : d.pwr.svcOk = false)
    (hfwd : d.on 0x000 Reg.PCH_BOOT_STAT.FWD = false) : State.SvcTrue ⟨d, q⟩ := by
  simp [State.SvcTrue, Dev.svcHolds, hsvc, hfwd]

/-- Settles O7: after reset the device does not forward, and SVC_OK is low. -/
theorem resetIsSvcTrue : Obligations.ResetIsSvcTrue := State.svcTrue_of_start [] rfl rfl

/-- R382: driving a periodic output changes neither registers nor the power state. -/
theorem Dev.tsoDrive_regs (d : Dev) (o : Nat) (level : Bool) : (d.tsoDrive o level).regs = d.regs := by
  unfold Dev.tsoDrive
  split <;> rfl

theorem Dev.tsoDrive_pwr (d : Dev) (o : Nat) (level : Bool) : (d.tsoDrive o level).pwr = d.pwr := by
  unfold Dev.tsoDrive
  split <;> rfl

/-- A part of the block that no step of a loop changes. -/
theorem Dev.foldl_same {α β : Type} {f : Dev → α → Dev} (g : Dev → β) (h : ∀ d x, g (f d x) = g d) (l : List α) (d : Dev) :
    g (l.foldl f d) = g d := by
  induction l generalizing d with
  | nil => rfl
  | cons x l ih => exact (ih _).trans (h d x)

/-- R506: a field of the classes that return to their default reads its reset value. -/
theorem Dev.regsDefault_rd {cs : Cls → Bool} {ps : PageId → Bool} {f : Fld} {p : PageId} {i : Nat}
    (h : (ps (keyPage (f.key p i)) && classOfKey cs (f.key p i)) = true) (d : Dev) :
    (d.regsDefault cs ps).rd p f i = (BitVec.ofNat 32 (f.rst.value p i)).toNat := by
  rw [Dev.rd, Dev.regsDefault, SMap.get_clear, if_pos h]

/-- R504: the block after RESET_N, with the periodic outputs as they were. -/
def Dev.coldBlock (d : Dev) : Dev :=
  let e := d.coldState.classesDefault fun c => c != .a
  (e.setPwr { Pwr.reset with pads := e.pwr.pads }).setMst { e.mst with boots := e.mst.boots + 1 }

/-- R504, R509: the periodic outputs stand low. -/
def Dev.tsosLow (d : Dev) : Dev := (List.range 5).foldl (fun d o => d.tsoDrive o false) d

/-- R509: no periodic output runs. -/
def Dev.tsosOff (d : Dev) : Dev := { d with tbu := { d.tbu with tsos := [] } }

theorem Dev.tsosOff_regs (d : Dev) : d.tsosOff.regs = d.regs := rfl

theorem Dev.tsosOff_pwr (d : Dev) : d.tsosOff.pwr = d.pwr := rfl

theorem execResetN_eq {s : State} (h : s.Alive) :
    execResetN s = .next ⟨s.dev.coldBlock.tsosLow.tsosOff.wr 0x000 Reg.PCH_BOOT_STAT.CAUSE 1, s.pending⟩ := by
  simp [execResetN, h, Dev.coldBlock, Dev.tsosLow, Dev.tsosOff]

theorem Dev.tsosLow_regs (d : Dev) : d.tsosLow.regs = d.regs := by
  rw [Dev.tsosLow, Dev.foldl_same Dev.regs fun d o => d.tsoDrive_regs o false]

theorem Dev.tsosLow_pwr (d : Dev) : d.tsosLow.pwr = d.pwr := by
  rw [Dev.tsosLow, Dev.foldl_same Dev.pwr fun d o => d.tsoDrive_pwr o false]

/-- R506: FWD is of class V, and RESET_N clears it. -/
theorem Dev.coldBlock_fwd (d : Dev) : d.coldBlock.rd 0x000 Reg.PCH_BOOT_STAT.FWD = 0 := by
  have kept : d.coldBlock.regs = (d.coldState.classesDefault fun c => c != .a).regs := rfl
  rw [Dev.rd_eq_of_regs kept, Dev.classesDefault, if_pos (by decide), Dev.weightOne, Dev.rd_wr_other _ _ _ _ _ _ _ _ (by decide),
    Dev.regsDefault_rd (by decide)]
  rfl

/-- R504, R506: RESET_N leaves SVC_OK low and FWD at 0. -/
theorem execResetN_svcTrue {s t : State} (ha : s.Alive) (h : execResetN s = .next t) : t.SvcTrue := by
  obtain rfl := Host.Outcome.next.inj ((execResetN_eq ha).symm.trans h)
  refine State.svcTrue_of_start _ ?low ?unset
  case low => rw [Dev.wr_pwr, Dev.tsosOff_pwr, Dev.tsosLow_pwr]; rfl
  case unset =>
    rw [Dev.on, Dev.rd_wr_other _ _ _ _ _ _ _ _ (by decide), Dev.rd_eq_of_regs (Dev.tsosOff_regs _),
      Dev.rd_eq_of_regs (Dev.tsosLow_regs _), Dev.coldBlock_fwd]
    rfl

/-- What a command leaves: the block as it was, what the end of a command makes of its effect, or one of the two resets from
outside. -/
theorem exec_outcome {i : Instr} {s t : State} (h : exec i s = .next t) :
    t = s ∨ (∃ e, t = ⟨s.dev.closing e, s.pending⟩) ∨ execPowerOnReset s = .next t ∨
      (s.Alive ∧ execResetN s = .next t) := by
  obtain ⟨f, hf⟩ | ⟨f, hf⟩ | rfl | rfl := exec_cases i
  · rw [hf, onDevL_eq] at h
    cases hc : s.dev.clocked with
    | true => exact .inr (.inl ⟨f s.dev, by simpa [hc] using (Host.Outcome.next.inj h).symm⟩)
    | false => exact .inl (by simpa [hc] using (Host.Outcome.next.inj h).symm)
  · rw [hf, onAon_eq] at h
    cases hc : s.dev.pwr.dead with
    | true => exact .inl (by simpa [hc] using (Host.Outcome.next.inj h).symm)
    | false => exact .inr (.inl ⟨f s.dev, by simpa [hc] using (Host.Outcome.next.inj h).symm⟩)
  · exact .inr (.inr (.inl h))
  · cases hd : s.dev.pwr.dead with
    | true =>
      rw [exec_resetN, execResetN, if_pos hd] at h
      exact .inl (Host.Outcome.next.inj h).symm
    | false => exact .inr (.inr (.inr ⟨hd, h⟩))

/-- Settles O6: SVC_OK follows its conditions at the end of every command, the two resets from outside leave it low before the
device forwards, and the time alone changes no condition. -/
theorem everyStepKeepsSvcTrue : Obligations.EveryStepKeepsSvcTrue := by
  intro s t hs hstep
  obtain ⟨d, q⟩ := s
  cases q with
  | nil => exact Host.Outcome.next.inj hstep ▸ hs
  | cons i rest =>
    obtain rfl | ⟨e, rfl⟩ | h | ⟨ha, h⟩ := exec_outcome (i := i) (s := ⟨d, rest⟩) hstep
    · exact hs
    · exact d.closing_svcTrue e rest
    · exact Host.Outcome.next.inj h ▸ State.svcTrue_of_start rest rfl rfl
    · exact execResetN_svcTrue ha h

/-! ### Events stay latched through the end of a command (R78, R578) -/

theorem bitAt_eq_testBit (x k : Nat) : bitAt x k = x.testBit k := by
  rw [Nat.testBit_eq_decide_div_mod_eq]
  rfl

/-- R78: latching events of one page leaves the events of every page latched. -/
theorem Dev.latch_keeps_evt {d : Dev} {q : PageId} {k : Nat} (hk : k < 32) (h : bitAt (d.rd q Reg.PG_EVT.EVT) k = true)
    (p : PageId) (mask : Nat) : bitAt ((d.latch p mask).rd q Reg.PG_EVT.EVT) k = true := by
  unfold Dev.latch
  split
  · exact h
  have stored : bitAt ((d.wr p Reg.PG_EVT.EVT (Nat.lor (d.rd p Reg.PG_EVT.EVT) mask)).rd q Reg.PG_EVT.EVT) k = true := by
    by_cases hpq : q = p
    · subst hpq
      rw [bitAt_eq_testBit] at h ⊢
      rw [Dev.rd_wr_same _ _ _ _ _ (by decide), Nat.testBit_mod_two_pow]
      simp [hk, h]
    · rwa [Dev.rd_wr_other _ _ _ _ _ _ _ _ (fieldKey_ne (by decide) (by decide) (by decide) (by decide) (.inl hpq))]
  simp only [Dev.watching]
  split
  · rwa [Dev.requestPage_rd _ _ _ _ _ (evtKey_ne_pending q)]
  · exact stored

theorem Dev.followLevels_keeps_evt {e : Dev} {q : PageId} {k : Nat} (hk : k < 32)
    (h : bitAt (e.rd q Reg.PG_EVT.EVT) k = true) (d : Dev) : bitAt ((d.followLevels e).rd q Reg.PG_EVT.EVT) k = true := by
  unfold Dev.followLevels
  generalize levelPages = pages
  suffices kept : ∀ (l : List PageId) (x : Dev), bitAt (x.rd q Reg.PG_EVT.EVT) k = true →
      bitAt ((l.foldl (fun e' p => e'.latch p (newBits (d.levels p) (e.levels p))) x).rd q Reg.PG_EVT.EVT) k = true from
    kept pages e h
  intro l
  induction l with
  | nil => exact fun _ hx => hx
  | cons p l ih => exact fun x hx => ih _ (Dev.latch_keeps_evt hk hx _ _)

/-- R78: an event that occurs is latched. -/
theorem Dev.raise_evt (d : Dev) (p : PageId) {bit : Nat} (hb : bit < 32) :
    bitAt ((d.raise p bit).rd p Reg.PG_EVT.EVT) bit = true := by
  rw [bitAt_eq_testBit, Dev.raise, d.latch_evt p (Nat.pow_lt_pow_right (by decide) hb)]
  simp

/-- R552: SVC_OK falls with SVC_DROP. -/
theorem Dev.svcFollow_of_fall {d : Dev} (hup : d.pwr.svcOk = true) (hdown : d.svcHolds = false) :
    d.svcFollow = ({ d with pwr := { d.pwr with svcOk := false } } : Dev).raise 0x000 23 := by
  simp [Dev.svcFollow, hup, hdown]

/-- Settles O8: a fall raises SVC_DROP, and nothing that follows in the command takes an event back. The two resets from
outside, which clear PG_EVT, do not end in `Dev.closing` (the model's choice, notes/assumptions/41.md). -/
theorem aFallOfSvcOkIsLatched : Obligations.AFallOfSvcOkIsLatched := by
  intro d e hup hdown
  have restarted : (d.restarted e).svcHolds = false := hdown
  refine ⟨(d.closing_svcOk e).trans hdown, ?_⟩
  refine Dev.followLevels_keeps_evt (by decide) ?_ d
  rw [Dev.svcFollow_of_fall (d := d.restarted e) hup restarted]
  exact Dev.raise_evt _ 0x000 (by decide)

end Sys2Proof.Machine

/-! SUPPORT. The statements of spec/13_host_interfaces.md: pop windows (R18, R19, R419, R425), queues, doorbells and rings
(R406 to R418), holds (R429, R430), interrupts (R436) and the PCIe functions (R402 to R405, R438). -/

namespace Sys2Proof.Machine

open Sys2Proof

/-! ### Pop windows (R18, R19, R419, R425) -/

/-- R419: words with consecutive pop sequence numbers. -/
def numbered (seq : BitVec 14) (ws : List Word) : List (BitVec 32) :=
  (List.range ws.length).map fun i => (seq + BitVec.ofNat 14 i) ++ listGet 0 ws i

theorem seq_succ_add (seq : BitVec 14) (i : Nat) : seq + 1 + BitVec.ofNat 14 i = seq + BitVec.ofNat 14 (i + 1) := by
  rw [BitVec.add_assoc, BitVec.add_comm 1, BitVec.ofNat_add]
  rfl

theorem numbered_cons (seq : BitVec 14) (x : Word) (xs : List Word) :
    numbered seq (x :: xs) = (seq ++ x) :: numbered (seq + 1) xs := by
  simp only [numbered, List.length_cons, List.range_succ_eq_map, List.map_cons, List.map_map, Function.comp_def, listGet,
    seq_succ_add]
  simp

namespace PopWin

variable {w : PopWin}

/-- R419: a pop of a window whose reader is part-way through an item. -/
theorem pop_of_cur {x : Word} {xs : List Word} (hcut : w.cut = 0) (hcur : w.cur = x :: xs) :
    w.pop = ({ w with cur := xs } : PopWin).popped x := by
  simp [pop, hcut, hcur]

/-- R408, R419: a pop that begins an item. -/
theorem pop_of_best {k : Nat} {x : Word} {xs : List Word} (hcut : w.cut = 0) (hcur : w.cur = [])
    (hbest : bestWin w.items = some (k, x :: xs)) :
    w.pop = ({ w with items := dropFirst (k, x :: xs) w.items, cur := xs } : PopWin).popped x := by
  simp [pop, hcut, hcur, hbest]

/-- R419: a pop of an empty window. -/
theorem pop_of_empty (hcut : w.cut = 0) (hcur : w.cur = []) (hitems : w.items = []) : w.pop = (w.seq ++ (0 : Word), w) := by
  simp [pop, hcut, hcur, hitems, bestWin, stamp]

/-- R419: the pops that read the rest of an item, `ws`. -/
theorem pops_of_cur {ws : List Word} (hcut : w.cut = 0) (hcur : w.cur = ws) :
    (pops ws.length w).1 = numbered w.seq ws ∧ (pops ws.length w).2.items = w.items ∧ (pops ws.length w).2.cur = [] ∧
      (pops ws.length w).2.seq = w.seq + BitVec.ofNat 14 ws.length := by
  induction ws generalizing w with
  | nil => exact ⟨rfl, rfl, hcur, by simp [pops]⟩
  | cons x xs ih =>
    rw [List.length_cons, pops, pop_of_cur hcut hcur, numbered_cons]
    obtain ⟨hwords, hitems, hend, hseq⟩ := ih (w := (({ w with cur := xs } : PopWin).popped x).2) hcut rfl
    exact ⟨congrArg _ hwords, hitems, hend, hseq.trans (seq_succ_add ..)⟩

/-- R408, R419: the pops that read a whole item, the best of the window. -/
theorem pops_of_best {k : Nat} {ws : List Word} (hcut : w.cut = 0) (hcur : w.cur = []) (hne : ws ≠ [])
    (hbest : bestWin w.items = some (k, ws)) :
    (pops ws.length w).1 = numbered w.seq ws ∧ (pops ws.length w).2.items = dropFirst (k, ws) w.items ∧
      (pops ws.length w).2.cur = [] ∧ (pops ws.length w).2.seq = w.seq + BitVec.ofNat 14 ws.length := by
  obtain ⟨x, xs, rfl⟩ := List.exists_cons_of_ne_nil hne
  rw [List.length_cons, pops, pop_of_best hcut hcur hbest, numbered_cons]
  obtain ⟨hwords, hitems, hend, hseq⟩ :=
    pops_of_cur (w := (({ w with items := dropFirst (k, x :: xs) w.items, cur := xs } : PopWin).popped x).2) hcut rfl
  exact ⟨congrArg _ hwords, hitems, hend, hseq.trans (seq_succ_add ..)⟩

/-- R19, R425: a flush of an item that a reader is part-way through owes the cut marker. -/
theorem flush_pop (h : w.cur ≠ []) :
    w.flush.pop = ({ w with items := [], cur := [], cut := 1 } : PopWin).popped cutMarker := by
  simp [flush, pop, h]

/-- R19: the pop behind the cut marker is an empty read. -/
theorem pop_of_owed (h : w.cut = 1) : w.pop = (w.stamp 0, { w with cut := 0 }) := by
  simp [pop, h]

end PopWin

/-- Settles O47: an item is read by the pop that begins it and those of its rest; a cut owes two reads. -/
theorem popWindowsGiveWholeItems : Obligations.PopWindowsGiveWholeItems := by
  intro w
  refine ⟨fun k ws => PopWin.pops_of_best, PopWin.pop_of_empty, fun h => ?cut⟩
  case cut =>
    rw [PopWin.flush_pop h]
    refine ⟨rfl, fun items => ?_⟩
    rw [PopWin.pop_of_owed rfl]
    exact ⟨rfl, rfl, rfl⟩

/-! ### Commands of the pages of an instance that exists (R86, R444) -/

theorem exec_dbTail_eq (via : Via) (n : Fin 64) (q : QId) (idx : BitVec 16) (s : State) : exec (.dbTail via n q idx) s =
    onBus (.dbTail n q idx) via (dbPage n.val) (fun d => d.ofInst n.val (dbPage n.val) fun d =>
      d.dbTail n.val (queueIdx q) idx) s := by
  rw [exec_dbTail, execDbTail]

theorem exec_dbCqHead_eq (via : Via) (n : Fin 64) (q : QId) (idx : BitVec 16) (s : State) : exec (.dbCqHead via n q idx) s =
    onBus (.dbCqHead n q idx) via (dbPage n.val) (fun d => d.ofInst n.val (dbPage n.val) fun d =>
      d.dbHead n.val (queueIdx q) idx) s := by
  rw [exec_dbCqHead, execDbCqHead]

theorem exec_queueOff_eq (via : Via) (n : Fin 64) (q : QId) (s : State) : exec (.queueOff via n q) s =
    onBus (.queueOff n q) via (dbPage n.val) (fun d => d.modeWrite n.val (queueIdx q) 0) s := by
  rw [exec_queueOff, execQueueOff]

theorem exec_queueDma_eq (via : Via) (n : Fin 64) (q : QId) (s : State) : exec (.queueDma via n q) s =
    onBus (.queueDma n q) via (dbPage n.val) (fun d => d.modeWrite n.val (queueIdx q) 1) s := by
  rw [exec_queueDma, execQueueDma]

theorem exec_queueWindow_eq (via : Via) (n : Fin 64) (q : QId) (s : State) : exec (.queueWindow via n q) s =
    onBus (.queueWindow n q) via (dbPage n.val) (fun d => d.modeWrite n.val (queueIdx q) 2) s := by
  rw [exec_queueWindow, execQueueWindow]

theorem exec_windowFlush_eq (via : Via) (n : Fin 64) (data : BitVec 32) (s : State) : exec (.windowFlush via n data) s =
    onBus (.windowFlush n data) via (winPage n.val) (fun d => d.ofInst n.val (winPage n.val) fun d =>
      d.unlocked (winPage n.val) fun d => d.windowFlush n.val data.toNat) s := by
  rw [exec_windowFlush, execWindowFlush]

/-- R444: a command of a page of an instance that exists has its effect. -/
theorem Dev.ofInst_of_exists {d : Dev} {n : Nat} (h : d.on (instPage n) Reg.INST_STAT.EXISTS = true) (p : PageId)
    (f : Dev → Dev) :
    d.ofInst n p f = f d :=
  if_pos h

/-- R86, R410, R444: MODE alone is written, and what it holds takes effect. -/
theorem Dev.modeWrite_eq {d : Dev} {n : Nat} (h : d.on (instPage n) Reg.INST_STAT.EXISTS = true)
    (hl : d.locked (dbPage n) = false) (q m : Nat) :
    d.modeWrite n q m = (d.wr (dbPage n) Reg.HBR_Q_CFG.MODE m q).queueCfg n q := by
  rw [Dev.modeWrite, Dev.ofInst_of_exists h, Dev.unlocked_of_not_locked hl]

/-- A command on the bus that reaches its page has the effect that its meaning has on the block entered. -/
theorem Completes.ofBusEffect {i : Instr} {s : State} {write : Bool} {cmd : NamedCmd} {via : Via} {p : PageId} {f : Dev → Dev}
    {e : Dev} (hi : exec i s = onBusFor write cmd via p f s) (hs : s.Runs) (h : s.Reached via p write)
    (he : f (s.dev.entered via) = e) : Completes i s e :=
  he ▸ Completes.ofBus hi hs h

/-! ### Rings (R405, R411 to R417) -/

section
variable {s : State} {n : Fin 64} (hs : s.Runs)
include hs

/-- R412, R415: a queue that may reads its next descriptor, and a transmit queue then its buffer. -/
theorem Completes.descriptorFetch {q : QId} {desc : Desc} (h : s.dev.mayFetch n.val (queueIdx q) = true) :
    let p := dbPage n.val
    let k := queueIdx q
    let i := s.dev.rd p Reg.HBR_Q_IDX.DEV_HEAD k
    let base := 64 * s.dev.rd p Reg.HBR_Q_RING_LO.ADDR k + 2 ^ 32 * s.dev.rd p Reg.HBR_Q_RING_HI.ADDR k
    let d := (s.dev.emitWire (.dmaRead n.val (base + 16 * (i % s.dev.ringEntries n.val k)) 16)).wr p
      Reg.HBR_Q_IDX.DEV_HEAD (i + 1) k
    let d := d.setHq n.val k { d.hq n.val k with descs := (d.hq n.val k).descs ++ [desc] }
    Completes (.descriptorFetch n q desc) s
      (if k < 16 then d else d.emitWire (.dmaRead n.val (descAddr desc) (bitsOf desc.d2 0 15))) :=
  .ofEffect (exec_descriptorFetch ..) hs (if_neg (by simp [h]))

variable {t : Fin 8} {bytes : List Byte} {x : Desc} {rest : List Desc}
  (hd : (s.dev.hq n.val (16 + t.val)).descs = x :: rest) (hlong : 16 ≤ bytes.length)
include hd hlong

/-- R413: a buffer that is read as long as its header says, or whose descriptor says another length, is read. -/
theorem Completes.dmaReadDone (h : bitsOf x.d2 0 15 = 16 + (bufWord bytes 3).toNat % 16384 →
    16 + (bufWord bytes 3).toNat % 16384 ≤ bytes.length) :
    Completes (.dmaReadDone n t bytes) s (s.dev.bufferRead n.val t.val x bytes) := by
  refine .ofEffect (exec_dmaReadDone ..) hs ?_
  have read : ¬(bytes.length < 16 ∨ bitsOf x.d2 0 15 = 16 + (bufWord bytes 3).toNat % 16384 ∧
      bytes.length < 16 + (bufWord bytes 3).toNat % 16384) := by
    rintro (hshort | ⟨heq, hshort⟩)
    · omega
    · have := h heq
      omega
  simp only [hd, if_neg read]

end

/-- R413: a buffer of the length that its header says becomes a posted sentence. -/
theorem Dev.bufferRead_of_whole {d : Dev} {n t : Nat} {x : Desc} {rest : List Desc} {b : List Byte}
    (hd : (d.hq n (16 + t)).descs = x :: rest) (h : bitsOf x.d2 0 15 = 16 + (bufWord b 3).toNat % 16384) :
    d.bufferRead n t x b =
      let e := d.setHq n (16 + t) { d.hq n (16 + t) with descs := rest }
      { e with hbr := { e.hbr with
        ready := e.hbr.ready ++ [⟨n, t, false, x.d3, bitsOf x.d2 16 1 == 1, (List.range 8).map (bufWord b),
          (b.drop 16).take ((bufWord b 3).toNat % 16384), stampOf e.wclk⟩] } } := by
  simp only [Dev.bufferRead, hd, if_pos h]
  rfl

/-- R413, R414: a buffer of another length fails as malformed. -/
theorem Dev.bufferRead_of_other {d : Dev} {n t : Nat} {x : Desc} {rest : List Desc} {b : List Byte}
    (hd : (d.hq n (16 + t)).descs = x :: rest) (h : bitsOf x.d2 0 15 ≠ 16 + (bufWord b 3).toNat % 16384) :
    d.bufferRead n t x b = (d.setHq n (16 + t) { d.hq n (16 + t) with descs := rest }).complete
      (.host n t false x.d3 false ((d.setHq n (16 + t) { d.hq n (16 + t) with descs := rest }).inst n).era)
      ((bufWord b 0).setWidth 14) 0 0x11 [] := by
  simp only [Dev.bufferRead, hd, if_neg h]
  rfl

/-- R405: queue `k` of instance `n` stops on a failed read. -/
def Dev.readFails (d : Dev) (n k : Nat) : Dev := ((d.queueError n k 1).bump 0x010 Reg.HBR.DMA_RD_ERR).raise 0x010 16

section
variable {s : State} {n : Fin 64} {q : QId} (hs : s.Runs)
include hs

/-- R405: a failed read of a queue that reads no buffer. -/
theorem Completes.dmaReadError_of_idle (hm : (s.dev.hq n.val (queueIdx q)).mode = 1)
    (hd : (s.dev.hq n.val (queueIdx q)).descs = []) :
    Completes (.dmaReadError n q) s (s.dev.readFails n.val (queueIdx q)) :=
  .ofEffect (exec_dmaReadError ..) hs ((if_neg (by simp [hm])).trans
    (by simp only [hd]; cases decide (queueIdx q < 16) <;> rfl))

/-- R405: a failed read of a transmit queue fails the sentence whose buffer was being read. -/
theorem Completes.dmaReadError_of_buffer {t : Fin 8} {x : Desc} {rest : List Desc}
    (hd : (s.dev.hq n.val (queueIdx (.tx t))).descs = x :: rest) :
    let d := s.dev.readFails n.val (queueIdx (.tx t))
    let e := d.drawn.setHq n.val (queueIdx (.tx t)) { d.hq n.val (queueIdx (.tx t)) with descs := rest }
    Completes (.dmaReadError n (.tx t)) s
      (e.complete (.host n.val t.val false x.d3 false (e.inst n.val).era) (d.freeBits.setWidth 14) 0 0x06 []) := by
  refine .ofEffect (exec_dmaReadError ..) hs ((if_neg (by simp [hd])).trans ?_)
  have tx : decide (queueIdx (.tx t) < 16) = false := decide_eq_false (Nat.not_lt.mpr (Nat.le_add_right 16 t.val))
  have number : queueIdx (.tx t) - 16 = t.val := by simp [queueIdx]
  simp only [hd, tx, number]
  rfl

/-- R416: the copy that receive queue `r` moves is complete. -/
theorem Completes.rxCompletion {r : Fin 16} {c : Copy} {x : Sen} {rest : List (Copy × Sen)}
    (hm : (s.dev.hq n.val r.val).mode = 1) (hdma : s.dev.dmaOk n.val = true) (hr : s.dev.rxMoving n.val r.val = (c, x) :: rest) :
    Completes (.rxCompletion n r) s (s.dev.buffersGet n.val r.val c x) :=
  .ofEffect (exec_rxCompletion ..) hs ((if_neg (by simp [hm, hdma])).trans (by simp [hr]))

/-- R436: an interrupt that was held off is requested. -/
theorem Completes.holdoffExpiry {t : Nat} (h : (s.dev.hq n.val (queueIdx q)).holdAt = some t) :
    let d := (s.dev.reach t).setHq n.val (queueIdx q) { (s.dev.reach t).hq n.val (queueIdx q) with holdAt := none }
    Completes (.holdoffExpiry n q) s (d.requestInst n.val (d.rd (dbPage n.val) Reg.HBR_Q_CFG.VECTOR (queueIdx q))) :=
  .ofEffect (exec_holdoffExpiry ..) hs (by simp only [h]; rfl)

/-- R410: a queue whose DMA has ended is off. -/
theorem Completes.queueStopped (hm : (s.dev.hq n.val (queueIdx q)).mode = 0)
    (hon : s.dev.on (dbPage n.val) Reg.HBR_Q_STAT.ON (queueIdx q) = true) (hb : s.dev.queueBusy n.val (queueIdx q) = false) :
    let h := s.dev.hq n.val (queueIdx q)
    let d := (s.dev.dmaWrites n.val h.flying).setHq n.val (queueIdx q) { h with flying := [] }
    Completes (.queueStopped n q) s ((d.wr (dbPage n.val) Reg.HBR_Q_STAT.ON 0 (queueIdx q)).queueStart n.val (queueIdx q)) :=
  .ofEffect (exec_queueStopped ..) hs (if_neg (by simp [hm, hon, hb]))

/-- R409: the posted sentence whose turn it is goes to the NRM. -/
theorem Completes.hostHandOn {x : HostItem} (hshut : s.dev.shut = false) (hsil : s.dev.pwr.silent = false)
    (hx : s.dev.nextHost ((queueHeads s.dev.hbr.ready).filter s.dev.mayHand) = some x) :
    let it := x.item (s.dev.inst x.n).era s.dev.nrm.nextFid
    let d := { s.dev with
      hbr := { s.dev.hbr with ready := dropHead x s.dev.hbr.ready, rr := x.n * 8 + x.t }
      nrm := { s.dev.nrm with items := s.dev.nrm.items ++ [it], nextFid := s.dev.nrm.nextFid + 1 } }
    Completes .hostHandOn s
      (((d.bumpSat (instPage x.n) Reg.INST.TX_HANDED).bumpSat64 (instPage x.n) Reg.INST.TX_BYTES_LO Reg.INST.TX_BYTES_HI
        x.body.length).bump 0x010 Reg.HBR.TX_SENTENCES) :=
  .ofEffect (exec_hostHandOn s) hs ((if_neg (by simp [hshut, hsil])).trans (by simp only [hx]))

/-! ### Holds (R429, R430, R479) -/

/-- R429: the held push whose hold ends before that of every write that waits for a tag. -/
theorem Completes.pushHoldTimeout_of_push {x : HeldPush} (hx : firstHold s.dev.hbr.held = some x)
    (hfirst : ∀ q, (s.dev.sty.reqs.find? fun q => q.tagless) = some q → x.till ≤ s.dev.tagHoldEnd q) :
    Completes .pushHoldTimeout s ((s.dev.reach x.till).holdEnds x) := by
  refine .ofEffect (exec_pushHoldTimeout s) hs ?_
  cases hq : s.dev.sty.reqs.find? fun q => q.tagless with
  | none => simp only [hx]
  | some q => simp only [hx, if_neg (Nat.not_lt.mpr (hfirst q hq))]

/-- R429, R479: the PCIe write that waits for a tag and whose hold ends before that of every held push. -/
theorem Completes.pushHoldTimeout_of_write {q : StayReq} (hq : (s.dev.sty.reqs.find? fun q => q.tagless) = some q)
    (hfirst : ∀ x, firstHold s.dev.hbr.held = some x → s.dev.tagHoldEnd q < x.till) :
    Completes .pushHoldTimeout s (s.dev.tagHoldEnds q) := by
  refine .ofEffect (exec_pushHoldTimeout s) hs ?_
  cases hx : firstHold s.dev.hbr.held with
  | none => simp only [hq]
  | some x => simp only [hq, if_pos (hfirst x hx)]

end

theorem OnlySignals.sty_eq {d e : Dev} (h : OnlySignals d e) : e.sty = d.sty := by
  obtain ⟨_, _, _, rfl⟩ := h
  rfl

/-- R430: the reads among the accesses of the LHP that wait for the register bus. -/
def BusReq.lhpRead : BusReq → Bool
  | .own a w => a.via == .lhp && !w
  | .named via (.imgData w _) => via == .lhp && !w
  | _ => false

/-- R430: the accesses of other sources that wait for the register bus. -/
def BusReq.notLhp : BusReq → Bool
  | .own a _ => a.via != .lhp
  | .named via _ => via != .lhp
  | _ => true

/-- R91, R316, R430: the LHP cycle that is held until `t` ends, with what waited for it on the bus and for talker state. -/
def Dev.lhpReleased (d : Dev) (t : Nat) : Dev :=
  let d := ((d.reach t).bump 0x010 Reg.HBR.LHP_TIMEOUTS).raise 0x01F 16
  let reads := d.sty.busQ.any BusReq.lhpRead
  let d := { d with
    hbr := { d.hbr with lwait := none, latch := none }
    eng := { d.eng with tsWait := d.eng.tsWait.filter fun x => x.2.2 != 2 }
    sty := { d.sty with busQ := d.sty.busQ.filter BusReq.notLhp } }
  if reads then d.emitWire (.read .lhp 3 0xFFFF) else d

/-- The requests to other devices stay. -/
theorem Dev.lhpReleased_reqs (d : Dev) (t : Nat) : (d.lhpReleased t).sty.reqs = d.sty.reqs := by
  have raised : (((d.reach t).bump 0x010 Reg.HBR.LHP_TIMEOUTS).raise 0x01F 16).sty = d.sty := (Dev.raise_signals ..).sty_eq
  simp only [Dev.lhpReleased]
  split <;> exact (congrArg Sty.reqs raised :)

/-- R430, R479: an LHP cycle that is held too long ends, and its requests to other devices fail. -/
theorem Completes.lhpTimeout {s : State} {t : Nat} (hs : s.Runs) (h : s.dev.hbr.lwait = some t) :
    Completes .lhpTimeout s
      (((s.dev.sty.reqs.filter fun q => q.via == .lhp && q.got.isNone).foldl (fun (d : Dev) q => d.reqFails q .timeout)
        (s.dev.lhpReleased t)).reqsLeave) := by
  refine .ofEffect (exec_lhpTimeout s) hs ?_
  rw [← s.dev.lhpReleased_reqs t]
  simp only [h]
  rfl

/-- Settles O46: each command has its effect where its condition holds; the doorbells, the modes and the flushes are writes of
a page of an instance that exists. That D3hot stops the queues as MODE 0 does, that a loss of the PCIe link fails what was
admitted toward the receive queues of instance 0, and that a failed DMA read fails the head buffer alone, is the model's
choice (notes/assumptions/38.md), as is the free talker of its record (notes/assumptions/1.md), and that an LHP time-out drops
a request to another device (notes/assumptions/20.md). -/
theorem hostCommandsComplete : Obligations.HostCommandsComplete := by
  intro s via n q hs
  refine ⟨fun hex => ⟨fun idx h => ⟨?tail, ?head⟩, fun h hl => ⟨?off, ?dma, ?window⟩, fun data h hl => ?flush⟩,
    ?fetch, fun t bytes x rest hd hlong => ⟨fun hsize hwhole => ?whole, fun hsize => ?other⟩,
    ⟨?idleError, fun t x rest hd hq => ?readError⟩, ?rx, ?holdoff, ?hand, ?stopped, ⟨?push, ?write⟩, ?lhp, ?bme, ⟨?d3, ?d0⟩, ?up,
    ?flr, ?down⟩
  case fetch => exact fun desc => .descriptorFetch hs
  case idleError => exact .dmaReadError_of_idle hs
  case rx => exact fun r c x rest => .rxCompletion hs
  case holdoff => exact fun t => .holdoffExpiry hs
  case hand => exact fun x => .hostHandOn hs
  case stopped => exact .queueStopped hs
  case push => exact fun x => .pushHoldTimeout_of_push hs
  case write => exact fun q => .pushHoldTimeout_of_write hs
  case lhp => exact fun t => .lhpTimeout hs
  case bme => exact .ofEffect (exec_busMasterEnable ..) hs rfl
  case d3 => exact .ofEffect (exec_d3hotTransition ..) hs (if_pos rfl)
  case d0 => exact .ofEffect (exec_d3hotTransition ..) hs (if_neg Bool.false_ne_true)
  case up => exact fun sp w => .ofEffect (exec_pcieLinkUp ..) hs rfl
  case flr => exact fun hex => .ofEffect (exec_functionLevelReset ..) hs (if_pos hex)
  case down => exact .ofEffect (exec_pcieLinkDown s) hs rfl
  case tail => exact .ofBusEffect (exec_dbTail_eq ..) hs h (Dev.ofInst_of_exists hex ..)
  case head => exact .ofBusEffect (exec_dbCqHead_eq ..) hs h (Dev.ofInst_of_exists hex ..)
  case off => exact .ofBusEffect (exec_queueOff_eq ..) hs h (Dev.modeWrite_eq hex hl ..)
  case dma => exact .ofBusEffect (exec_queueDma_eq ..) hs h (Dev.modeWrite_eq hex hl ..)
  case window => exact .ofBusEffect (exec_queueWindow_eq ..) hs h (Dev.modeWrite_eq hex hl ..)
  case flush =>
    exact .ofBusEffect (exec_windowFlush_eq ..) hs h ((Dev.ofInst_of_exists hex ..).trans (Dev.unlocked_of_not_locked hl _))
  case whole =>
    have read := Completes.dmaReadDone hs hd hlong fun _ => hwhole
    rwa [Dev.bufferRead_of_whole hd hsize] at read
  case other =>
    have read := Completes.dmaReadDone hs hd hlong fun heq => absurd heq hsize
    rwa [Dev.bufferRead_of_other hd hsize] at read
  case readError =>
    subst hq
    exact .dmaReadError_of_buffer hs hd

end Sys2Proof.Machine

/-! SUPPORT. The statements of spec/14_virtual_instances.md: the start and the end of the operations on instances (R445 to
R460), and the image window (R462). -/

namespace Sys2Proof.Machine

open Sys2Proof

/-! ### The start of an operation (R86, R445) -/

section
variable (via : Via) (target : Nat) (s : State)

theorem exec_create_eq : exec (.create via target) s =
    onBus (.create target) via 0x100 (fun d => d.instWrite via 1 target) s := by
  rw [exec_create, execCreate]

theorem exec_destroy_eq : exec (.destroy via target) s =
    onBus (.destroy target) via 0x100 (fun d => d.instWrite via 2 target) s := by
  rw [exec_destroy, execDestroy]

theorem exec_setShare_eq : exec (.setShare via target) s =
    onBus (.setShare target) via 0x100 (fun d => d.instWrite via 3 target) s := by
  rw [exec_setShare, execSetShare]

theorem exec_reset_eq : exec (.reset via target) s =
    onBus (.reset target) via 0x100 (fun d => d.instWrite via 4 target) s := by
  rw [exec_reset, execReset]

theorem exec_freeze_eq : exec (.freeze via target) s =
    onBus (.freeze target) via 0x100 (fun d => d.instWrite via 5 target) s := by
  rw [exec_freeze, execFreeze]

theorem exec_thaw_eq : exec (.thaw via target) s =
    onBus (.thaw target) via 0x100 (fun d => d.instWrite via 6 target) s := by
  rw [exec_thaw, execThaw]

theorem exec_save_eq : exec (.save via target) s =
    onBus (.save target) via 0x100 (fun d => d.instWrite via 7 target) s := by
  rw [exec_save, execSave]

theorem exec_restore_eq : exec (.restore via target) s =
    onBus (.restore target) via 0x100 (fun d => d.instWrite via 8 target) s := by
  rw [exec_restore, execRestore]

theorem exec_copy_eq : exec (.copy via target) s =
    onBus (.copy target) via 0x100 (fun d => d.instWrite via 9 target) s := by
  rw [exec_copy, execCopy]

end

/-- R86, R445: a write of INST_CMD with GO, on a page that is not locked and while no command runs, starts the operation. -/
theorem Completes.instWrite {i : Instr} {s : State} {cmd : NamedCmd} {via : Via} {op target : Nat}
    (hi : exec i s = onBus cmd via 0x100 (fun d => d.instWrite via op target) s) (hs : s.Runs) (h : s.Reached via 0x100)
    (hl : (s.dev.entered via).locked 0x100 = false) (hgo : (s.dev.entered via).on 0x100 Reg.INST_CMD.GO = false) :
    Completes i s ((((s.dev.entered via).wr 0x100 Reg.INST_CMD.OP op).wr 0x100 Reg.INST_CMD.TARGET target).instGo op target
      (viaCode via)) :=
  .ofUnlocked hi hs h hl (if_neg (by simp [hgo]))

/-- Settles O48: each of the nine commands is the write of INST_CMD with its code. -/
theorem instanceCommandsStart : Obligations.InstanceCommandsStart := by
  intro s via target hs v h hl hgo
  simp only [List.forall_mem_cons]
  exact ⟨.instWrite (exec_create_eq ..) hs h hl hgo, .instWrite (exec_destroy_eq ..) hs h hl hgo,
    .instWrite (exec_setShare_eq ..) hs h hl hgo, .instWrite (exec_reset_eq ..) hs h hl hgo,
    .instWrite (exec_freeze_eq ..) hs h hl hgo, .instWrite (exec_thaw_eq ..) hs h hl hgo,
    .instWrite (exec_save_eq ..) hs h hl hgo, .instWrite (exec_restore_eq ..) hs h hl hgo,
    .instWrite (exec_copy_eq ..) hs h hl hgo, fun _ => nofun⟩

/-! ### The end of an operation (R449 to R459) -/

/-- R449, R451: the block when the reset of instance `n` that began at `t` has ended and its report is sent. -/
def Dev.resetOver (d : Dev) (n t : Nat) : Dev :=
  let d := (((d.reach (t + 50 * Config.perUs)).cancelRuns n).areaDefault n).talkersDefault n
  let d := ((d.wr (instPage n) Reg.INST_STAT.RESETTING 0).raise (instPage n) 16).sendReport n
  d.setInst n { d.inst n with resetAt := none, list := [] }

section
variable {s : State} {n : Fin 64} (hs : s.Runs)
include hs

/-- R449: a reset ends. -/
theorem Completes.resetDone {t : Nat} {e : Dev} (ht : (s.dev.inst n.val).resetAt = some t)
    (he : (let d := s.dev.resetOver n.val t
      if d.cmdIs [2] n.val then (d.destroyEnds n.val).instEnd 0 else if d.cmdIs [4] n.val then d.instEnd 0 else d) = e) :
    Completes (.resetDone n) s e :=
  .ofEffect (exec_resetDone ..) hs (by simp only [ht]; exact he)

/-- R453: an instance with nothing left under way is frozen. -/
theorem Completes.frozen (hf : s.dev.on (instPage n.val) Reg.INST_STAT.FREEZING = true) (hq : s.dev.quiet n.val = true) :
    Completes (.frozen n) s (s.dev.frozen n.val) :=
  .ofEffect (exec_frozen ..) hs (if_pos (by simp [hf, hq]))

/-- R453, R459: after 10 ms a freeze has come to its end, or it fails and the instance resumes. -/
theorem Completes.freezeTimeout {t : Nat} (ht : (s.dev.inst n.val).freezeAt = some t) :
    let d := s.dev.reach (t + 10 * Config.perMs)
    Completes (.freezeTimeout n) s
      (if d.quiet n.val then d.frozen n.val
      else if (d.thaw n.val).cmdIs [5] n.val then (d.thaw n.val).instEnd 6 else d.thaw n.val) :=
  .ofEffect (exec_freezeTimeout ..) hs (by simp only [ht])

section
variable {c : InstCmd} (hc : s.dev.insts.cmd = some c)
include hc

/-- R457: SAVE writes the image. -/
theorem Completes.imgDone_save (ht : c.target = n.val) (hx : s.dev.xmOn = true) (hop : c.op = 7) :
    Completes (.imgDone n) s ((s.dev.saveImage n.val (bitsOf c.arg0 0 5)).imageEnds n.val 0) :=
  .ofEffect (exec_imgDone ..) hs (by simp [hc, ht, hop, hx])

/-- R457: RESTORE puts back an image that passes its checks and fits. -/
theorem Completes.imgDone_restore (ht : c.target = n.val) (hx : s.dev.xmOn = true) (hop : c.op = 8)
    (hok : s.dev.imageOk (bitsOf c.arg0 0 5) = true)
    (hfit : s.dev.imgDword (slotBase (bitsOf c.arg0 0 5) + 20) ≤ s.dev.rd (instPage n.val) Reg.INST_LIMITS.WIN_MAX) :
    Completes (.imgDone n) s ((s.dev.restoreImage n.val (bitsOf c.arg0 0 5)).imageEnds n.val 0) :=
  .ofEffect (exec_imgDone ..) hs (by simp [hc, ht, hop, hx, hok, Nat.not_lt.mpr hfit])

/-- R458: a copy ends with what the far device, the path and the CRC check say. -/
theorem Completes.copyDone (far crc path : Bool) (hop : c.op = 9) :
    Completes (.copyDone far crc path) s
      (s.dev.instEnd (if far then (if path then (if crc then 0 else 5) else 7) else 2)) := by
  refine .ofEffect (exec_copyDone ..) hs ?_
  cases far <;> cases path <;> simp [hc, hop]

end

end

theorem exec_imgData_eq (via : Via) (write : Bool) (data : BitVec 32) (s : State) : exec (.imgData via write data) s =
    onBusFor write (.imgData write data) via 0x100
      (fun d => if write then d.imgWrite data else d.imgRead.2.readBack via 0x400C80 0 d.imgRead.1) s := by
  rw [exec_imgData, execImgData]

/-- Settles O49: each operation ends as its condition says; the image window is a write and a read on the bus. That a freeze
which is not quiet in time resumes the instance, that DESTROY leaves the quota, and the operands of a copy's end are the
model's choice (notes/assumptions/39.md). -/
theorem instanceCommandsEnd : Obligations.InstanceCommandsEnd := by
  intro s via n hs
  refine ⟨fun t ht => ⟨fun h2 => ?destroyed, fun h2 h4 => ?reset, fun h2 h4 => ?alone⟩, .frozen hs,
    fun t ht => ⟨fun hq => ?quiet, fun hq => ?fails⟩,
    fun c hc ht hx => ⟨.imgDone_save hs hc ht hx, .imgDone_restore hs hc ht hx⟩,
    fun c far crc path hc => .copyDone hs hc far crc path,
    fun data => ⟨fun h => .ofBusEffect (exec_imgData_eq ..) hs h rfl, fun h => .ofBusEffect (exec_imgData_eq ..) hs h rfl⟩⟩
  case destroyed => exact .resetDone hs ht (if_pos h2)
  case reset => exact .resetDone hs ht ((if_neg (Bool.eq_false_iff.mp h2)).trans (if_pos h4))
  case alone => exact .resetDone hs ht ((if_neg (Bool.eq_false_iff.mp h2)).trans (if_neg (Bool.eq_false_iff.mp h4)))
  case quiet => simpa only [if_pos hq] using Completes.freezeTimeout hs ht
  case fails => simpa only [if_neg (Bool.eq_false_iff.mp hq)] using Completes.freezeTimeout hs ht

end Sys2Proof.Machine

/-! SUPPORT. The statements of spec/15_stay_fabric.md: Stay links (R463 to R468, R471, R472, R485 to R487), sentences and
requests between devices (R470, R475 to R484), and AtomicOps on STY_SCRATCH (R480, R482). -/

namespace Sys2Proof.Machine

open Sys2Proof

/-! ### AtomicOps on STY_SCRATCH (R480, R482, R490) -/

/-- R66: the plain read of a register of one stored field in its low bits is the field. -/
theorem Dev.readAt_of_single {p : PageId} {off i : Nat} {f : Fld} (h : fieldsAt p off = [(f, i)]) (hlo : f.lo = 0)
    (hhome : f.home = .stored) (d : Dev) (src : Nat) : d.readAt p off src = some (d.rd p f i) := by
  rw [Dev.readAt, foldl_fieldsOf_of_single h _ fun a g hg => by simp only [hg]]
  simp [elemAt_of_single h, Dev.field, hhome, hlo]

/-- A field holds no more than a word of the register map. -/
theorem Dev.rd_lt (d : Dev) (p : PageId) (f : Fld) (i : Nat) : d.rd p f i < 2 ^ 32 := BitVec.isLt _

section
variable {d : Dev} (src : Fin 16) (k : Fin 4) (hl : d.locked 0x060 = false)

/-- R490: a read of dword `k` of STY_SCRATCH returns it. -/
theorem Dev.dwordAt_scratch (via : Via) :
    (d.dwordAt via 0x060 (0x0E0 + 4 * k.val)).toNat = d.rd 0x060 Reg.STY_SCRATCH.DATA k.val := by
  rw [Dev.dwordAt, Dev.readAt_of_single (fieldsAt_scratch k) rfl rfl, Option.getD_some, BitVec.toNat_ofNat]
  exact Nat.mod_eq_of_lt (d.rd_lt ..)

/-- R480: every field of STY_SCRATCH is RW. -/
theorem atomDword_scratch : atomDword 0x060 (0x0E0 + 4 * k.val) = true := by
  have zone : between 0x040 0x3FF (0x0E0 + 4 * k.val) = true := by
    simp only [between, Bool.and_eq_true, Nat.ble_eq]
    omega
  simp [atomDword, zone, regHas_of_single (fieldsAt_scratch k)]

/-- R480, R482: an AtomicOp of 32 bits on STY_SCRATCH that writes nothing returns what it finds. -/
theorem Dev.atomApply_scratch_none {op : AtomOp} (h : atomNew op 32 (d.rd 0x060 Reg.STY_SCRATCH.DATA k.val) = none) :
    d.atomApply (.stay src) (.reg 0x060 (0x0E0 + 4 * k.val)) op false =
      (.ok, d.rd 0x060 Reg.STY_SCRATCH.DATA k.val, d) := by
  simp [Dev.atomApply, atomOffs, atomDword_scratch, sumOf, Dev.dwordAt_scratch, h]

/-- R480, R482: an AtomicOp of 32 bits on STY_SCRATCH that gives `v` returns what it finds, and writes `v`. -/
theorem Dev.atomApply_scratch_some {op : AtomOp} {v : Nat}
    (h : atomNew op 32 (d.rd 0x060 Reg.STY_SCRATCH.DATA k.val) = some v) :
    d.atomApply (.stay src) (.reg 0x060 (0x0E0 + 4 * k.val)) op false =
      (if d.lockDiscards 0x060 (0x0E0 + 4 * k.val) (2 ^ 32 - 1) then .locked else .ok,
        d.rd 0x060 Reg.STY_SCRATCH.DATA k.val,
        d.regWrite (.stay src) 0x060 (0x0E0 + 4 * k.val) 0xF (BitVec.ofNat 32 v) 0) := by
  simp [Dev.atomApply, atomOffs, atomDword_scratch, sumOf, Dev.dwordAt_scratch, h]

/-- A write of all bytes of STY_SCRATCH stores the dword. -/
theorem Dev.regWrite_scratch_whole (hl : d.locked 0x060 = false) (via : Via) (v : Nat) :
    d.regWrite via 0x060 (0x0E0 + 4 * k.val) 0xF (BitVec.ofNat 32 v) 0 = d.wr 0x060 Reg.STY_SCRATCH.DATA v k.val := by
  rw [Dev.regWrite_scratch_unlocked _ _ _ _ _ _ hl (by decide)]
  refine Dev.wr_congr _ _ ?_ _
  rw [show byteMask 0xF = 2 ^ 32 - 1 by decide, merged_low rfl rfl (Nat.le_refl 32), BitVec.toNat_ofNat]
  show _ % 2 ^ 32 = _ % 2 ^ 32
  omega

include hl

/-- R480: where the page is not locked, an AtomicOp that gives a value `v` stores it. -/
theorem Dev.atomApply_scratch_stores {op : AtomOp} {n : Nat}
    (hn : atomNew op 32 (d.rd 0x060 Reg.STY_SCRATCH.DATA k.val) = some (n % 2 ^ 32)) :
    d.atomApply (.stay src) (.reg 0x060 (0x0E0 + 4 * k.val)) op false =
      (.ok, d.rd 0x060 Reg.STY_SCRATCH.DATA k.val, d.wr 0x060 Reg.STY_SCRATCH.DATA n k.val) := by
  have free : d.lockDiscards 0x060 (0x0E0 + 4 * k.val) (2 ^ 32 - 1) = false := by simp [Dev.lockDiscards, hl]
  have wide : d.wr 0x060 Reg.STY_SCRATCH.DATA (n % 2 ^ 32) k.val = d.wr 0x060 Reg.STY_SCRATCH.DATA n k.val :=
    Dev.wr_congr _ _ (Nat.mod_mod ..) _
  rw [Dev.atomApply_scratch_some src k hn]
  simp only [free, Dev.regWrite_scratch_whole k hl, wide]
  rfl

end

/-- Settles O53: the AtomicOp reads the dword and writes what `atomNew` gives, with all bytes enabled. That a CAS that finds
another value returns OK is the model's choice (notes/assumptions/20.md). -/
theorem atomicOpsOnScratch : Obligations.AtomicOpsOnScratch := by
  intro d src k v w hl
  refine ⟨Dev.atomApply_scratch_stores src k hl rfl, Dev.atomApply_scratch_stores src k hl rfl, ?_, ?_⟩
  · intro same
    exact Dev.atomApply_scratch_stores src k hl (if_pos same)
  · intro other
    exact Dev.atomApply_scratch_none src k (if_neg other)

/-! ### Sentences and requests between devices (R470, R475 to R484) -/

/-- R470: the first message that waits on link `l` is taken off the list. -/
theorem Dev.popInbox_eq {d : Dev} {l t : Nat} {ws : List (BitVec 16)} {rest : List (Nat × List (BitVec 16))}
    (h : (d.link l).inbox = (t, ws) :: rest) : d.popInbox l = d.setLink l { d.link l with inbox := rest } := by
  rw [Dev.popInbox, h]
  rfl

/-- R489: nothing goes on while the bus is held. -/
theorem Dev.drainBus_of_held {d : Dev} {n : Nat} (h : d.sty.busBy = some n) : d.drainBus = d := by
  rw [Dev.drainBus]
  cases d.sty.busQ.length with
  | zero => rfl
  | succ k => rw [Dev.drainN, if_pos (by simp [h])]

/-- R477: the block after it took the message `ws` of link `l`, which came at `t`, and accepted it. -/
def Dev.accepted (p : Dev) (l t : Nat) (ws : List (BitVec 16)) : Dev :=
  ({ p with sty := { p.sty with
      msnRx := SMap.put (fun _ => none) p.sty.msnRx (hdrSrc (listGet 0 ws 0)) (some (listGet 0 ws 2)) } }.sentenceIn
    l t ws).pump l

/-- R476: the block after it took the message `ws` of link `l`, which came at `t`, and handed it on. -/
def Dev.forwarded (p : Dev) (l t : Nat) (ws : List (BitVec 16)) : Dev :=
  let h := shbOfWords (ws.drop 3)
  let body := if wellSized (ws.drop 3) then padZeroed h (bytesOf16 (ws.drop 11)) else bytesOf16 (ws.drop 11)
  ((p.handOn { p.arrivalOf l t h body with fwd := raiseHc (listGet 0 ws 0) :: ws.drop 1 }
    (onward (hdrDest (listGet 0 ws 0))) []).nextFid).pump l

section
variable {s : State} (hs : s.Runs)
include hs

section
variable {l : Fin 4} {t : Nat} {ws : List (BitVec 16)} {rest : List (Nat × List (BitVec 16))}
variable (h : (s.dev.link l.val).inbox = (t, ws) :: rest) (hrun : s.dev.pwr.silent = false)
include h hrun

/-- R477: the first waiting message, for this device and later than the newest accepted, is accepted. -/
theorem Completes.staySentence (hdest : hdrDest (listGet 0 ws 0) = s.dev.pwr.devId)
    (hnew : s.dev.msnNew (hdrSrc (listGet 0 ws 0)) (listGet 0 ws 2) = true) (hlow : s.dev.lowerCopy l.val t ws = false)
    (hroom : s.dev.stayTickets ws = true) : Completes (.staySentence l) s ((s.dev.popInbox l.val).accepted l.val t ws) := by
  refine .ofEffect (exec_staySentence ..) hs ?_
  simp only [h]
  rw [if_neg (by rw [hrun, hdest]; simp), if_neg (by rw [hnew, hlow]; simp), if_neg (by rw [hroom]; simp)]
  rfl

/-- R476: the first waiting message, for another device, is handed on when there is ticket room. -/
theorem Completes.stayForward (hdest : hdrDest (listGet 0 ws 0) ≠ s.dev.pwr.devId) (hhc : hdrHc (listGet 0 ws 0) ≠ 3)
    (hroom : s.dev.ticketRoom (shbOfWords (ws.drop 3)).talker false (onward (hdrDest (listGet 0 ws 0))) = true) :
    Completes (.stayForward l) s ((s.dev.popInbox l.val).forwarded l.val t ws) := by
  refine .ofEffect (exec_stayForward ..) hs ?_
  simp only [h]
  rw [if_neg (by rw [hrun, beq_false_of_ne hdest]; simp), if_neg hhc, if_neg (by rw [hroom]; simp)]
  rfl

/-- R476: a message for another device that comes with HC 3 is discarded. -/
theorem Completes.stayForward_discards (hdest : hdrDest (listGet 0 ws 0) ≠ s.dev.pwr.devId) (hhc : hdrHc (listGet 0 ws 0) = 3) :
    Completes (.stayForward l) s (((s.dev.popInbox l.val).bump 0x060 Reg.STY.HOP_DISCARDS).pump l.val) := by
  refine .ofEffect (exec_stayForward ..) hs ?_
  simp only [h]
  rw [if_neg (by rw [hrun, beq_false_of_ne hdest]; simp), if_pos hhc]

end

/-- R480, R482: a far device's request applies when the register bus is free. -/
theorem Completes.remoteRequest (hby : s.dev.sty.busBy = none) (hq : s.dev.sty.busQ = []) (l : Fin 4) (r : RemReq) :
    Completes (.remoteRequest l r) s ((s.dev.entered (.stay r.src)).farNow l r) := by
  refine .ofEffect (exec_remoteRequest ..) hs ?_
  rw [Dev.drainBus_of_empty (by simp [hq])]
  exact if_pos (by simp [hby])

/-- R483: a locked request of a higher DEV_ID that crosses one of the device's own is told to retry. -/
theorem Completes.remoteRequest_crosses {n : Nat} (hby : s.dev.sty.busBy = some n) {l : Fin 4} {r : RemReq}
    (hlock : ReqOp.locks r.op = true) (hid : s.dev.pwr.devId < r.src.val) :
    Completes (.remoteRequest l r) s ((s.dev.entered (.stay r.src)).crossing l r) := by
  refine .ofEffect (exec_remoteRequest ..) hs ?_
  rw [Dev.drainBus_of_held (n := n) (by simp [hby])]
  dsimp only
  rw [if_neg (by simp [hby]), if_pos (by rw [hlock]; exact decide_eq_true hid)]

end

/-- Settles O51: each clause is its command's effect. -/
theorem stayMessagesComplete : Obligations.StayMessagesComplete := by
  intro s hs
  refine ⟨fun l t ws rest h hrun => ?_, fun l r hby hq => .remoteRequest hs hby hq l r,
    fun l r n hby hlock hid => .remoteRequest_crosses hs hby hlock hid, fun tag q h => ⟨fun status value => ?_, ?_⟩,
    fun fn addr op wide hby hq => .atomicop hs hby hq fn addr op wide⟩
  · intro w p
    rw [show p = s.dev.popInbox l.val from (Dev.popInbox_eq h).symm]
    exact ⟨fun hdest hnew hlow hroom => .staySentence hs h hrun hdest hnew hlow hroom,
      fun hdest hhc => Completes.stayForward hs h hrun hdest hhc,
      fun hdest hhc => .stayForward_discards hs h hrun hdest hhc⟩
  · exact .ofEffect (exec_remoteCompletion ..) hs (by simp only [h])
  · exact .ofEffect (exec_remoteTimeout ..) hs (by simp only [h])

/-! ### Links (R463 to R468, R471, R472, R485 to R487) -/

/-- R486: a degraded link that is not being retrained may be. -/
theorem Dev.laneRetrain_of_taken {d : Dev} {l src : Nat} (hd : (d.link l).state = .degraded) (hr : (d.link l).retrain = false)
    (ht : (d.maintTake (linkPage l) 5 src).1 = true) :
    d.laneRetrain l src =
      (let e := (d.maintTake (linkPage l) 5 src).2
       (e.setLink l { e.link l with retrain := true }).wr (linkPage l) Reg.STY_LINK_RETRAIN.START 1) := by
  rw [Dev.laneRetrain, if_neg (by simp [hd, hr])]
  exact if_pos ht

/-- R486: the retraining under way on link `l` ends with `result`. -/
theorem Dev.retrainEnds_of_retrain {d : Dev} {l : Nat} (h : (d.link l).retrain = true) (result : Nat) :
    d.retrainEnds l result = (((d.setLink l { d.link l with retrain := false }).wr (linkPage l)
      Reg.STY_LINK_RETRAIN.RESULT result).wr (linkPage l) Reg.STY_LINK_RETRAIN.START 0).maintEnd (linkPage l) 5 :=
  if_pos h

section
variable {s : State} {l : Fin 4} (hs : s.Runs)
include hs

section
variable (ht : s.dev.trains l.val = true)
include ht

/-- R467: IDENT in step 3 grants credits, or refuses the peer. -/
theorem Completes.ident (h3 : (s.dev.link l.val).step = 3) {dev : Fin 16} {man : Bool} {level : BitVec 8} {e : Dev}
    (he : (let why := s.dev.refusal dev.val man level.toNat
      let y := { s.dev.link l.val with peerDev := dev.val, peerMgr := man, peerLevel := level, refuse := why }
      if why != 0 then
        (s.dev.setLink l.val { y with step := 0, retryAt := s.dev.now + 10 * Config.perMs }).raise (linkPage l.val) 20
      else (s.dev.setLink l.val { y with step := 4, level := BitVec.ofNat 8 (min level.toNat s.dev.stayLevel) }).sendVc3
        l.val 2 none (creditGrants.map w16)) = e) : Completes (.ident l dev man level) s e := by
  refine .ofEffect (exec_ident ..) hs ?_
  dsimp only
  rw [if_neg (by simp [ht, h3])]
  exact he

/-- R467: training of a refused link starts again. -/
theorem Completes.identRetry (hr : (s.dev.link l.val).refuse ≠ 0) (h0 : (s.dev.link l.val).step = 0) :
    Completes (.identRetry l) s ((s.dev.reach (s.dev.link l.val).retryAt).toStep3 l.val) :=
  .ofEffect (exec_identRetry ..) hs (if_pos (by simp [ht, hr, h0]))

end

section
variable (hon : s.dev.linkOn l.val = true)
include hon

section
variable (hlive : (s.dev.link l.val).live = true)
include hlive

/-- R465: a flit is received or refused; after an error, only the replay is. -/
theorem Completes.flitReceive {f : Flit} (hf : (s.dev.link l.val).nak = false ∨ f.replay = true) :
    Completes (.flitReceive l f) s (if f.good then s.dev.flitGood l.val f else s.dev.flitBad l.val) := by
  refine .ofEffect (exec_flitReceive ..) hs (if_neg ?_)
  rcases hf with h | h <;> simp [hon, hlive, h]

/-- R471, R392: the answer to the device's own TIME_REQ ends the exchange. -/
theorem Completes.timeResp {seq : BitVec 8} {t1 : Nat} {t2 t3 : BitVec 64}
    (hreq : (s.dev.link l.val).timeReq = some (seq, t1)) {e : Dev}
    (he : (let d := s.dev.setLink l.val { s.dev.link l.val with timeReq := none }
      if d.upstream = some l.val then
        d.boardExchange (exchangeOffset (stampOf t1) t2 t3 (stampOf d.wclk) (signed 16 (s.dev.link l.val).asym.toNat))
      else d) = e) : Completes (.timeResp l seq t2 t3) s e := by
  refine .ofEffect (exec_timeResp ..) hs ?_
  simp only [hreq]
  rw [if_neg (by simp [hon, hlive])]
  exact he

end

/-- R472, R396: a relay of the upstream link that was not applied before is applied and sent on. -/
theorem Completes.domRelay {m : DomRelayMsg} (hup : (s.dev.link l.val).isUp = true) (hfrom : s.dev.upstream = some l.val)
    (hnew : s.dev.relaySeen m.seq = false) {e : Dev}
    (he : (let d := { s.dev with sty := { s.dev.sty with domSeq := some m.seq } }
      let d := d.setDom m.dom.val { d.dom m.dom.val with relay := (d.dom m.dom.val).relay ++ [m] }
      (List.range 4).foldl (fun d k => if k != l.val && (d.link k).isUp then d.sendVc3 k 7 (some m.seq) (relayWords m) else d) d)
      = e) : Completes (.domRelay l m) s e := by
  refine .ofEffect (exec_domRelay ..) hs ?_
  rw [if_neg (by simp [hon, hup, hfrom, hnew])]
  exact he

end

/-! ### Lanes (R485, R486) -/

/-- R485: below 8 replays in a row the peer's report is kept, and no lane fails. -/
theorem Completes.laneStat_kept (hr : (s.dev.link l.val).replays < 8) (lanes : BitVec 2) :
    Completes (.laneStat l lanes) s (s.dev.setLink l.val { s.dev.link l.val with peerLanes := lanes }) := by
  refine .ofEffect (exec_laneStat ..) hs ?_
  rw [Dev.laneJudge]
  simp only [Dev.setLink_get]
  exact if_neg (by simp [hr])

/-- R485: from 8 replays in a row on, the first of the two lanes that the peer's report leaves out fails. -/
theorem Completes.laneStat_fails (hup : (s.dev.link l.val).state = .up) (h3 : (s.dev.link l.val).lanes = 3)
    (hr : 8 ≤ (s.dev.link l.val).replays) {lanes : BitVec 2} {k : Nat}
    (hk : ([0, 1].find? fun k => laneBit 3 k && !laneBit lanes k) = some k) :
    Completes (.laneStat l lanes) s
      ((s.dev.setLink l.val { s.dev.link l.val with peerLanes := lanes }).laneFails l.val k) := by
  refine .ofEffect (exec_laneStat ..) hs ?_
  rw [Dev.laneJudge]
  simp only [Dev.setLink_get]
  rw [if_pos (by simp [StayLink.isUp, hup, hr]), h3, hk]

/-- R486: the failed lane rejoins. -/
theorem Completes.laneRejoin (h : (s.dev.link l.val).retrain = true) {e : Dev}
    (he : (let d := s.dev.retrainEnds l.val 1
      ((d.drawn.setLink l.val { d.link l.val with
        state := .up, lanes := 3, peerLanes := 3, asym := d.freeBits.setWidth 16 }).raise
          (linkPage l.val) 19).sendLaneStat l.val) = e) : Completes (.laneRejoin l) s e := by
  refine .ofEffect (exec_laneRejoin ..) hs ?_
  rw [if_neg (by simp [h])]
  exact he

end

theorem exec_laneRetrainStart_eq (via : Via) (l : Fin 4) (s : State) : exec (.laneRetrainStart via l) s =
    onBus (.laneRetrainStart l) via (linkPage l.val)
      (fun d => d.unlocked (linkPage l.val) fun d => d.laneRetrain l.val (viaCode via)) s := by
  rw [exec_laneRetrainStart, execLaneRetrainStart]

/-- Settles O50: each clause is its command's effect. That a refused link goes to step 0 is the model's choice
(notes/assumptions/36.md), and the asymmetry of a lane that rejoins is a free value (notes/assumptions/1.md). -/
theorem stayLinkCommandsComplete : Obligations.StayLinkCommandsComplete := by
  intro s l via hs x v
  refine ⟨fun ht => .ofEffect (exec_linkTraining ..) hs (if_pos ht),
    fun dev man level ht h3 => ⟨fun hwhy => .ident hs ht h3 (if_neg (by simp [hwhy])),
      fun hwhy => .ident hs ht h3 (if_pos (by simp [hwhy]))⟩,
    fun ht hr h0 => .identRetry hs ht hr h0, fun c0 c1 c2 ht h4 => ?_, fun lanes asym ht h5 hlanes => ?_,
    fun f hon hlive hf => .flitReceive hs hon hlive hf, fun hon hlive => ⟨fun count => ⟨?_, ?_⟩, ?_, fun seq t1 => ?_⟩,
    fun seq t2 t3 t1 hreq hon hlive => .timeResp hs hon hlive hreq rfl,
    fun m hon hup hfrom hnew => .domRelay hs hon hup hfrom hnew rfl,
    ⟨fun hr lanes => .laneStat_kept hs hr lanes,
      fun hup h3 hr => ⟨.laneStat_fails hs hup h3 hr (by decide), .laneStat_fails hs hup h3 hr (by decide)⟩⟩,
    fun k => .ofEffect (exec_laneFail ..) hs rfl, fun hd hr ht => ?_, fun h hl hd hr ht => ?_,
    fun h => ⟨?_, ?_⟩, .ofEffect (exec_stayLinkFail ..) hs rfl⟩
  · exact .ofEffect (exec_creditInit ..) hs (if_neg (by simp [ht, show (s.dev.link l.val).step = 4 from h4]))
  · exact .ofEffect (exec_stayLinkUp ..) hs (if_neg (by simpa [ht, show (s.dev.link l.val).step = 5 from h5] using hlanes))
  · exact .ofEffect (exec_ack ..) hs (if_pos (by rw [hon]; exact hlive))
  · exact .ofEffect (exec_nak ..) hs (if_pos (by rw [hon]; exact hlive))
  · exact .ofEffect (exec_ackTimer ..) hs (if_pos (by rw [hon]; exact hlive))
  · exact .ofEffect (exec_timeReq ..) hs (if_pos (by rw [hon]; exact hlive))
  · exact .ofEffect (exec_laneRetrain ..) hs (Dev.laneRetrain_of_taken hd hr ht)
  · exact .ofUnlocked (exec_laneRetrainStart_eq ..) hs h hl (Dev.laneRetrain_of_taken hd hr ht)
  · refine .laneRejoin hs h ?_
    rw [Dev.retrainEnds_of_retrain h]
  · exact .ofEffect (exec_laneRetrainFailed ..) hs (Dev.retrainEnds_of_retrain h 3)

end Sys2Proof.Machine

/-! SUPPORT. The statements of spec/16_power_reset_retention.md: power requests, entries and wake events (R496 to R501), the
key of a soft reset (R504), and what a commit under way leaves in the journal (R506, R516). -/

namespace Sys2Proof.Machine

open Sys2Proof

/-! ### Power requests and entries (R496, R497) -/

section
variable (via : Via) (s : State)

theorem exec_requestFull_eq : exec (.requestFull via) s = onBus .requestFull via 0x000 (fun d => d.powerWrite 0) s := by
  rw [exec_requestFull, execRequestFull]

theorem exec_requestReefed_eq : exec (.requestReefed via) s = onBus .requestReefed via 0x000 (fun d => d.powerWrite 1) s := by
  rw [exec_requestReefed, execRequestReefed]

theorem exec_requestFurled_eq : exec (.requestFurled via) s = onBus .requestFurled via 0x000 (fun d => d.powerWrite 2) s := by
  rw [exec_requestFurled, execRequestFurled]

theorem exec_requestStruck_eq : exec (.requestStruck via) s = onBus .requestStruck via 0x000 (fun d => d.powerWrite 3) s := by
  rw [exec_requestStruck, execRequestStruck]

theorem exec_softReset_eq (key : Byte) :
    exec (.softReset via key) s = onBus (.softReset key) via 0x000 (fun d => d.softReset key.toNat true) s := by
  rw [exec_softReset, execSoftReset]

end

/-- R86, R496: a request on a page that is not locked writes TARGET with GO. -/
theorem Completes.powerWrite {i : Instr} {s : State} {cmd : NamedCmd} {via : Via} {target : Nat}
    (hi : exec i s = onBus cmd via 0x000 (fun d => d.powerWrite target) s) (hs : s.Runs) (h : s.Reached via 0x000)
    (hl : (s.dev.entered via).locked 0x000 = false) :
    Completes i s (((s.dev.entered via).wr 0x000 Reg.PCH_PWR_CTRL.TARGET target).powerGo target) :=
  .ofUnlocked hi hs h hl rfl

/-- R497: an entry to Furled ends once nothing is under way. -/
theorem Dev.entryEnds_furled {d : Dev} (hq : d.quiesced = true) (hp : d.pwr.power = .enterFurled) :
    d.entryEnds = d.furl.wakeWaiting := by
  rw [Dev.entryEnds, if_neg (by simp [hq]), hp]

/-- R497: an entry to Struck ends once nothing is under way and no sentence is left. -/
theorem Dev.entryEnds_struck {d : Dev} (hq : d.quiesced = true) (hp : d.pwr.power = .enterStruck) (h0 : d.sentences = 0) :
    d.entryEnds = d.strike.wakeWaiting := by
  rw [Dev.entryEnds, if_neg (by simp [hq]), hp]
  exact if_pos h0

/-! ### Wake events (R499 to R501) -/

/-- R137: only a wake-up pulse that is a wake source is one on a port that is asleep. -/
theorem Dev.tc10Wakes_of_detected {d : Dev} {z : Nat} {ide : Bool} {w : WakeData} (h : d.wakeDetects 2 z ide w = true) :
    d.tc10Wakes z = (d.setTc10 (4 + z) 3).raise (ethPage (4 + z)) 23 := by
  simp only [Dev.wakeDetects, Bool.and_eq_true] at h
  obtain ⟨-, ⟨-, hen⟩, hasleep⟩ := h
  exact if_pos (by rw [hen, hasleep]; rfl)

/-- R501: the core with which a watch run starts: what w0 to w3 hold is free (notes/assumptions/1.md). -/
def Dev.watchCore (d : Dev) : Core :=
  let free := fun (i : Nat) => (Config.freeValue (d.free + 1 + i)).setWidth 18
  startCore [free 0, free 1, free 2, free 3] [0, 0, 0, 0]

section
variable {s : State} (ha : s.Alive)
include ha

/-- R499, R501: an enabled wake source wakes the device, or waits for the wake watch engine. -/
theorem Completes.wakeEvent {src : Fin 8} {unit : Fin 32} {ide : Bool} {w : WakeData}
    (hstate : s.dev.asleep = true ∨ s.dev.entering = true) (h : s.dev.wakeDetects src.val unit.val ide w = true) :
    Completes (.wakeEvent src unit ide w) s
      ((if src.val = 2 then (s.dev.setTc10 (4 + unit.val) 3).raise (ethPage (4 + unit.val)) 23 else s.dev).wakeArrives
        ⟨src.val, unit.val, w, s.dev.now⟩) := by
  refine .ofAlwaysOnEffect (exec_wakeEvent ..) ha ?_
  have listens : (s.dev.asleep || s.dev.entering || s.dev.pwr.power == .waking) = true := by
    rcases hstate with h | h <;> simp [h]
  rw [if_neg (by simp [listens, h])]
  by_cases h2 : src.val = 2
  · rw [if_pos h2, if_pos h2, Dev.tc10Wakes_of_detected (h2 ▸ h)]
  · rw [if_neg h2, if_neg h2]

/-- R499: the wake timer is a wake source while it is enabled. -/
theorem Completes.wakeTimer {t : Nat} (ht : s.dev.pwr.timerAt = some t) (hasleep : s.dev.asleep = true)
    (hp : s.dev.rd 0x000 Reg.PCH_WAKE_CFG.PERIOD_MS ≠ 0) (hen : bitAt (s.dev.rd 0x000 Reg.PCH_WAKE_EN.SRC) 7 = true) {e : Dev}
    (he : (let d := s.dev.reach (t + s.dev.rd 0x000 Reg.PCH_WAKE_CFG.PERIOD_MS * Config.perMs)
      (d.setPwr { d.pwr with timerAt := some d.now }).wakeArrives ⟨7, 0, noWakeData, d.now⟩) = e) :
    Completes .wakeTimer s e := by
  refine .ofAlwaysOnEffect (exec_wakeTimer ..) ha ?_
  simp only [ht]
  rw [if_neg (by simp [hasleep, hp, hen])]
  exact he

/-- R501: a watch run starts for the first event that waits. -/
theorem Completes.wakeRunStart {e : WakeEv} {es : List WakeEv} (hrun : s.dev.pwr.run = none) (hq : s.dev.pwr.wakeq = e :: es)
    (hasleep : s.dev.asleep = true) (hen : s.dev.on 0x000 Reg.PCH_WAKE_CFG.WW_EN = true) :
    Completes .wakeRunStart s
      (({ s.dev with free := s.dev.free + 4 }.setPwr
        { s.dev.pwr with wakeq := es, run := some ⟨e, s.dev.watchCore⟩ }).bump 0x002 Reg.PCH_WW_RUNS.RUNS) := by
  refine .ofAlwaysOnEffect (exec_wakeRunStart ..) ha ?_
  simp only [hrun, hq]
  exact if_neg (by simp [hasleep, hen])

end

/-- Settles O54: each clause is its command's effect. -/
theorem powerCommandsComplete : Obligations.PowerCommandsComplete := by
  intro s via
  refine ⟨fun hs h hl => ?_, fun hs hq => ⟨fun hp => ?_, fun hp h0 => ?_⟩, fun hs hp hd => ?_,
    fun ha src unit ide w hstate h => .wakeEvent ha hstate h,
    fun ha t ht hasleep hp hen => .wakeTimer ha ht hasleep hp hen rfl,
    fun ha e es hrun hq hasleep hen => ⟨s.dev.watchCore, rfl, rfl, .wakeRunStart ha hrun hq hasleep hen⟩,
    fun ha w hrun hlim => ?_, fun ha hp hb => ?_⟩
  · simp only [List.forall_mem_cons]
    exact ⟨.powerWrite (exec_requestFull_eq ..) hs h hl, .powerWrite (exec_requestReefed_eq ..) hs h hl,
      .powerWrite (exec_requestFurled_eq ..) hs h hl, .powerWrite (exec_requestStruck_eq ..) hs h hl, fun _ => nofun⟩
  · exact .ofEffect (exec_entryQuiesced ..) hs (Dev.entryEnds_furled hq hp)
  · exact .ofEffect (exec_entryQuiesced ..) hs (Dev.entryEnds_struck hq hp h0)
  · exact .ofEffect (exec_drainExpiry ..) hs (if_neg (by simp [hp, hd]))
  · refine .ofAlwaysOnEffect (exec_wakeRunLimit ..) ha ?_
    simp only [hrun]
    exact if_pos hlim
  · exact .ofAlwaysOnEffect (exec_pllRelock ..) ha (if_neg (by simp [hp, hb]))

/-! ### The key of a soft reset (R504) -/

/-- R504: without its key a write of PCH_RESET does nothing. -/
theorem Dev.softReset_of_wrong_key (d : Dev) {key : Byte} (h : key ≠ 0x5A) : d.softReset key.toNat true = d := by
  have wrong : key.toNat ≠ 0x5A := fun eq => h (BitVec.eq_of_toNat_eq eq)
  exact if_neg (by simp [wrong])

/-- Settles O56. -/
theorem softResetNeedsItsKey : Obligations.SoftResetNeedsItsKey := by
  intro s via key hs h hkey
  exact .ofBusEffect (exec_softReset_eq ..) hs h (Dev.softReset_of_wrong_key _ hkey)

/-! ### A commit under way at a reset (R506, R516) -/

/-- A device as delivered in which a settings commit of one record runs. -/
def Dev.committing : Dev := { Dev.reset with mst := { Mst.reset with commit := some ⟨1, 1, true, 64, [], []⟩ } }

/-- R516: a reset that ends the commit leaves its record, cut short, in the journal. -/
theorem Dev.committing_commitCut : Dev.committing.mst.restarted.journal = [⟨1, 1, false, 64, [], []⟩] := by decide

theorem Dev.committing_journal : Dev.committing.mst.journal = [] := rfl

/-- Refutes O57: power-on reset ends a settings commit under way, and R516 leaves the record that it cuts short in the
journal, so that the journal of MRAM is not as it was. -/
theorem not_powerOnResetKeepsMramAlone : ¬ Obligations.PowerOnResetKeepsMramAlone := by
  intro h
  obtain ⟨d, hd, -, hjournal, -⟩ := h ⟨Dev.committing, []⟩
  obtain rfl : _ = d := congrArg State.dev (Host.Outcome.next.inj hd)
  have cut := Dev.committing_commitCut.symm.trans (hjournal.trans Dev.committing_journal)
  cases cut

/-- R504, R507: RESET_N leaves of the Masthead controller's state what every reset does, with one more boot. -/
theorem Dev.coldBlock_journal (d : Dev) : d.coldBlock.mst.journal = d.mst.restarted.journal := rfl

theorem Dev.tsoDrive_mst (d : Dev) (o : Nat) (level : Bool) : (d.tsoDrive o level).mst = d.mst := by
  unfold Dev.tsoDrive
  split <;> rfl

theorem Dev.tsosLow_mst (d : Dev) : d.tsosLow.mst = d.mst := by
  rw [Dev.tsosLow, Dev.foldl_same Dev.mst fun d o => d.tsoDrive_mst o false]

theorem Dev.tsosOff_mst (d : Dev) : d.tsosOff.mst = d.mst := rfl

/-- Refutes O55: RESET_N, too, ends a settings commit under way, and R516 leaves the record that it cuts short in the journal,
where the statement's clause on RESET_N has the journal as it was. -/
theorem not_startCommandsComplete : ¬ Obligations.StartCommandsComplete := by
  intro h
  obtain ⟨-, hresetN, -⟩ := h ⟨Dev.committing, []⟩ .mh
  obtain ⟨d, hd, -, -, hjournal, -⟩ := hresetN rfl
  rw [exec_resetN, execResetN_eq rfl] at hd
  obtain rfl : _ = d := congrArg State.dev (Host.Outcome.next.inj hd)
  rw [Dev.wr_mst, Dev.tsosOff_mst, Dev.tsosLow_mst, Dev.coldBlock_journal, Dev.committing_commitCut] at hjournal
  cases hjournal

end Sys2Proof.Machine

/-! SUPPORT. The statements of spec/17_persistence_and_update.md: the settings journal (R515 to R518), the update session and
its relays (R527 to R534), and the rig images whose COMMIT waits (R526, R533). -/

namespace Sys2Proof.Machine

open Sys2Proof

/-! ### Work for the firmware (R44) -/

/-- R44: work that can be done now is done. -/
theorem Dev.work_of_can {d : Dev} {w : MhWork} (h : d.canDo w = true) : d.work w = d.doWork w := if_pos h

/-- R44, R533: the fields of MST_UPD_CMD do not say who serves a session. -/
theorem Dev.served_of_cmd (d : Dev) (op target : Nat) :
    ((d.wr 0x008 Reg.MST_UPD_CMD.OP op).wr 0x008 Reg.MST_UPD_CMD.TARGET target).served = d.served := by
  have loader : ((d.wr 0x008 Reg.MST_UPD_CMD.OP op).wr 0x008 Reg.MST_UPD_CMD.TARGET target).rd 0x008 Reg.MST_FW_STAT.LOADER =
      d.rd 0x008 Reg.MST_FW_STAT.LOADER := by
    rw [Dev.rd_wr_other _ _ _ _ _ _ _ _ (by decide), Dev.rd_wr_other _ _ _ _ _ _ _ _ (by decide)]
  simp only [Dev.served, Dev.on, loader, Dev.wr_hlt]

section
variable (via : Via) (s : State)

theorem exec_settingsCommit_eq : exec (.settingsCommit via) s =
    onBus .settingsCommit via 0x008 (fun d => d.unlocked 0x008 fun d => d.setCommit (viaCode via)) s := by
  rw [exec_settingsCommit, execSettingsCommit]

theorem exec_eraseOld_eq (key : Byte) : exec (.eraseOld via key) s =
    onBus (.eraseOld key) via 0x008 (fun d => d.unlocked 0x008 fun d => d.eraseOld key.toNat) s := by
  rw [exec_eraseOld, execEraseOld]

theorem exec_openSession_eq (target : Fin 16) : exec (.openSession via target) s =
    onBus (.openSession target) via 0x008 (fun d => d.updGo via 1 target.val) s := by
  rw [exec_openSession, execOpenSession]

theorem exec_verify_eq : exec (.verify via) s = onBus .verify via 0x008 (fun d => d.updOp via 2) s := by
  rw [exec_verify, execVerify]

theorem exec_write_eq : exec (.write via) s = onBus .write via 0x008 (fun d => d.updOp via 3) s := by
  rw [exec_write, execWrite]

theorem exec_close_eq : exec (.close via) s = onBus .close via 0x008 (fun d => d.updOp via 4) s := by
  rw [exec_close, execClose]

theorem exec_abort_eq : exec (.abort via) s = onBus .abort via 0x008 (fun d => d.updOp via 5) s := by
  rw [exec_abort, execAbort]

theorem exec_updData_eq (data : BitVec 32) : exec (.updData via data) s =
    onBus (.updData data) via 0x008 (fun d => d.updPush via (dwordBytes [data.toNat])) s := by
  rw [exec_updData, execUpdData]

theorem exec_updData16_eq (data : BitVec 16) : exec (.updData16 via data) s =
    onBus (.updData16 data) via 0x008 (fun d => d.updPush via [data.extractLsb' 0 8, data.extractLsb' 8 8]) s := by
  rw [exec_updData16, execUpdData16]

theorem exec_downgradePermit_eq (key : Byte) (permit : Bool) : exec (.downgradePermit via key permit) s =
    onBus (.downgradePermit key permit) via 0x008 (fun d => d.unlocked 0x008 fun d => d.downgrade key.toNat permit) s := by
  rw [exec_downgradePermit, execDowngradePermit]

end

/-! ### The commands of a session (R527 to R532) -/

/-- R527: a command on a page that is not locked, while sessions are served, is done. -/
theorem Dev.updGo_of_served {d : Dev} (hl : d.locked 0x008 = false) (h : d.served = true) (via : Via) (op target : Nat) :
    d.updGo via op target =
      ((d.wr 0x008 Reg.MST_UPD_CMD.OP op).wr 0x008 Reg.MST_UPD_CMD.TARGET target).updCmd (viaCode via) op target false := by
  rw [Dev.updGo, Dev.unlocked_of_not_locked hl]
  exact Dev.work_of_can ((d.served_of_cmd op target).trans h)

/-- R528: while sessions are served a push is taken. -/
theorem Dev.updPush_of_served {d : Dev} (h : d.served = true) (via : Via) (b : List Byte) :
    d.updPush via b = d.updTake (viaCode via) false b := if_pos h

/-- R529, R537: PERMIT is set with its key. -/
theorem Dev.downgrade_of_key (d : Dev) : d.downgrade (0xD6 : Byte).toNat true = d.wr 0x008 Reg.MST_DOWNGRADE.PERMIT 1 := by
  rw [Dev.downgrade, if_neg (by decide)]
  rfl

/-- R529, R537: PERMIT is cleared without a key. -/
theorem Dev.downgrade_clears (d : Dev) (key : Nat) : d.downgrade key false = d.wr 0x008 Reg.MST_DOWNGRADE.PERMIT 0 := by
  rw [Dev.downgrade, if_neg (by simp)]
  rfl

/-- R534: what reports to the manager depends on the outcome alone. -/
theorem Dev.reporting_congr {d : Dev} {f g : Dev → Dev} (h : f d = g d) : d.reporting f = d.reporting g := by
  simp only [Dev.reporting, h]

/-- R534: the manager copies what the worker reports of the session that it passes on. -/
theorem Dev.updStatus_of_passes {d : Dev} (hs : d.mst.sess.st ≠ .idle) (hp : d.passes = true) (result state : Nat) :
    d.updStatus result state =
      (let t := sessStOf state
       let pass := d.mst.sess.st != t && (t == .verifying || t == .writing)
       if t = .idle then d.sessionEnds (some result)
       else d.setSess { d.mst.sess with
          st := t, result := result, bytes := if pass then [] else d.mst.sess.bytes
          count := if pass then 0 else d.mst.sess.count }) := by
  rw [Dev.updStatus]
  dsimp only
  rw [if_neg (by simp [hs, hp])]
  simp only [beq_iff_eq]

section
variable {s : State} (hs : s.Runs)
include hs

/-- R518, R44: ERASE_OLD with its key is done while the firmware runs, and waits for it else. -/
theorem Completes.eraseOld {via : Via} {e : Dev} (h : s.Reached via 0x008) (hl : (s.dev.entered via).locked 0x008 = false)
    (he : (s.dev.entered via).work .erase = e) : Completes (.eraseOld via 0xE5) s e :=
  .ofUnlocked (exec_eraseOld_eq ..) hs h hl he

/-- R515, R518: the record of a commit is in the journal. -/
theorem Completes.settingsCommitDone {r : JRec} (hr : s.dev.mst.commit = some r) (hrun : s.dev.hlt.running = true) {e : Dev}
    (he : (let d := (s.dev.setMst { s.dev.mst with
          journal := trimJournal (s.dev.mst.journal ++ [r]), commit := none }).eraseOthers
      let d := (d.wr 0x008 Reg.MST_FW_STAT.FALLBACK 0).wr 0x008 Reg.MST_SET_CMD.COMMIT 0
      let d := (d.wr 0x008 Reg.MST_SET_STAT.RESULT 1).bump 0x008 Reg.MST.SET_COMMITS
      (d.maintEnd 0x008 7).raise 0x008 18) = e) : Completes .settingsCommitDone s e := by
  refine .ofEffect (exec_settingsCommitDone ..) hs ?_
  simp only [hr]
  rw [if_neg (by simp [hrun])]
  exact he

/-- R533: the COMMIT of the rig-image cache is tried again. -/
theorem Completes.cacheRetry {t : Nat} (hno : s.dev.mst.sess.rigTry = none) (ht : s.dev.mst.applyAt = some t)
    (hrun : s.dev.hlt.running = true) : Completes .rigCommitRetry s ((s.dev.pass (100 * Config.perUs)).cacheApplies t) := by
  refine .ofEffect (exec_rigCommitRetry ..) hs ?_
  simp only [hno, ht]
  exact if_pos hrun

section
variable (hserved : s.dev.served = true)
include hserved

/-- R529: the checks of a bundle that has arrived end with the result that they find. -/
theorem Completes.verifyDone (hst : s.dev.mst.sess.st = .verifying) (hpass : s.dev.passes = false)
    (h12 : 12 ≤ s.dev.mst.sess.bytes.length) (hlen : bundleLen s.dev.mst.sess.bytes ≤ s.dev.mst.sess.bytes.length)
    {f : Dev → Dev}
    (hf : (let b := s.dev.mst.sess.bytes
      let r := s.dev.verifyResult b
      if r = 1 then
        s.dev.setSess { s.dev.mst.sess with
          st := .verified, result := 1, digest := some (bundleDigest b), fw := isFirmware (entryAt b 0).type, bytes := [] }
      else s.dev.passStops r) = f s.dev) : Completes .verifyDone s (s.dev.reporting f) := by
  refine .ofEffect (exec_verifyDone ..) hs ?_
  dsimp only
  rw [if_neg (by simp [hst, hserved, hpass, h12, hlen])]
  exact Dev.reporting_congr hf

/-- R526: the COMMIT of a rig image of the write pass is tried again. -/
theorem Completes.rigRetry {t : Nat} (ht : s.dev.mst.sess.rigTry = some t) :
    Completes .rigCommitRetry s ((s.dev.pass (100 * Config.perUs)).rigAgain t) := by
  refine .ofEffect (exec_rigCommitRetry ..) hs ?_
  simp only [ht]
  exact if_pos hserved

/-- R534: on a worker the manager's command is the loader's. -/
theorem Completes.updCommandRelay (hw : s.dev.pwr.manager = false) (op : BitVec 3) :
    Completes (.updCommandRelay op) s (s.dev.updCmd 3 op.toNat s.dev.pwr.devId true) :=
  .ofEffect (exec_updCommandRelay ..) hs ((if_neg (by simp [hw])).trans (Dev.work_of_can hserved))

/-- R534: on a worker the manager's bytes are taken when they follow those that have arrived. -/
theorem Completes.updDataRelay (hw : s.dev.pwr.manager = false) {off : BitVec 32}
    (hoff : s.dev.mst.sess.bytes.length = off.toNat) (bytes : List Byte) :
    Completes (.updDataRelay off bytes) s (s.dev.updTake 3 true (bytes.take 2048)) :=
  .ofEffect (exec_updDataRelay ..) hs ((if_neg (by simp [hw, hoff])).trans (Dev.work_of_can hserved))

end

end

/-- Settles O58: each clause is its command's effect. What the model chose in the corners of a session stands in
notes/assumptions/42.md. -/
theorem updateCommandsComplete : Obligations.UpdateCommandsComplete := by
  intro s via hs v b
  refine ⟨fun h hl => ⟨?_, fun hrun => ?_, fun hrun => ?_, fun hserved => ⟨fun target => ?_, ?_⟩, ?_, fun key => ?_⟩,
    fun r hr hrun => .settingsCommitDone hs hr hrun rfl,
    fun hserved => ⟨fun data h => ?_, fun data h => ?_, fun hst hpass h12 hlen => .verifyDone hs hserved hst hpass h12 hlen rfl,
      fun hst => ?_, fun t ht => .rigRetry hs hserved ht, fun hw => ⟨fun op => .updCommandRelay hs hserved hw op,
        fun off bytes hoff => .updDataRelay hs hserved hw hoff bytes⟩, fun result state hst hpass => ?_⟩,
    fun t hno ht hrun => .cacheRetry hs hno ht hrun⟩
  · exact .ofUnlocked (exec_settingsCommit_eq ..) hs h hl rfl
  · exact .eraseOld hs h hl (Dev.work_of_can hrun)
  · exact .eraseOld hs h hl (if_neg (by rw [show v.canDo .erase = false from hrun]; simp))
  · exact .ofBusEffect (exec_openSession_eq ..) hs h (Dev.updGo_of_served hl hserved ..)
  · simp only [List.forall_mem_cons]
    exact ⟨.ofBusEffect (exec_verify_eq ..) hs h (Dev.updGo_of_served hl hserved ..),
      .ofBusEffect (exec_write_eq ..) hs h (Dev.updGo_of_served hl hserved ..),
      .ofBusEffect (exec_close_eq ..) hs h (Dev.updGo_of_served hl hserved ..),
      .ofBusEffect (exec_abort_eq ..) hs h (Dev.updGo_of_served hl hserved ..), fun _ => nofun⟩
  · exact .ofUnlocked (exec_downgradePermit_eq ..) hs h hl (Dev.downgrade_of_key _)
  · exact .ofUnlocked (exec_downgradePermit_eq ..) hs h hl (Dev.downgrade_clears ..)
  · exact .ofBusEffect (exec_updData_eq ..) hs h (Dev.updPush_of_served (d := v) hserved ..)
  · exact .ofBusEffect (exec_updData16_eq ..) hs h (Dev.updPush_of_served (d := v) hserved ..)
  · exact .ofEffect (exec_sessionAbandon ..) hs (if_neg (by simp [hst, hserved]))
  · exact .ofEffect (exec_updStatusRelay ..) hs 
      ((Dev.work_of_can (w := .status result.toNat state.toNat) hserved).trans (Dev.updStatus_of_passes hst hpass ..))

end Sys2Proof.Machine

/-! SUPPORT. The statements of spec/18_health_and_maintenance.md: the commands of health and maintenance (R539 to R560), and
the safe state (R549, R550). -/

namespace Sys2Proof.Machine

open Sys2Proof

/-! ### Health and maintenance (R514, R539 to R560) -/

section
variable (via : Via) (s : State)

theorem exec_faultAck_eq (page : BitVec 9) (all : Bool) : exec (.faultAck via page all) s =
    onBus (.faultAck page all) via 0x001 (fun d => d.faultAck page.toNat all) s := by
  rw [exec_faultAck, execFaultAck]

theorem exec_hostSafe_eq (key : Byte) : exec (.hostSafe via key) s =
    onBus (.hostSafe key) via 0x001 (fun d => d.hostSafe key.toNat true) s := by
  rw [exec_hostSafe, execHostSafe]

end

/-- R540: a write of PCH_SAFE with its key is a fault. -/
theorem Dev.hostSafe_of_key (d : Dev) : d.hostSafe (0x5C : Byte).toNat true = d.fault 0x001 0x1C 0 := by
  rw [Dev.hostSafe, if_pos (by decide)]

/-- R544: the oldest entry that waits goes to the freeze ring. -/
theorem Dev.freezeNext_of_waiting {d : Dev} {e : List (BitVec 32)} {es : List (List (BitVec 32))} (h : d.hlt.frzWait = e :: es) :
    d.freezeNext = (d.setHlt { d.hlt with
      freeze := SMap.put (fun _ => none) d.hlt.freeze (d.hlt.frzNext.toNat % 4096) (some e)
      frzNext := d.hlt.frzNext + 1, frzWait := es }).raise 0x000 24 := by
  rw [Dev.freezeNext, h]

section
variable {s : State}

/-- R540: the watchdog of the Masthead controller restarts it, and the third time in 600 s halts it. -/
theorem Completes.mhRestart (hs : s.Runs) (hrun : s.dev.hlt.running = true) {e : Dev}
    (he : (let recent := (s.dev.hlt.restarts.filter fun t => decide (s.dev.now < t + 600000 * Config.perMs)) ++ [s.dev.now]
      let d := ((s.dev.setHlt { s.dev.hlt with running := false, restarts := recent }).bump 0x001 Reg.PCH.MH_RESTARTS).fault
        0x008 0x11 0
      if 3 ≤ recent.length then (d.setHlt { d.hlt with halted := true }).fault 0x008 0x12 0 else d) = e) :
    Completes .mhRestart s e := by
  refine .ofEffect (exec_mhRestart ..) hs ?_
  rw [if_neg (by simp [hrun])]
  exact he

/-- R555: the patrol scrub takes its token, or tries again after 1 ms. -/
theorem Completes.patrolScrub (hs : s.Runs) (hen : s.dev.on 0x001 Reg.PCH_SCRUB.EN = true) (hfree : s.dev.holds 0x001 1 = false)
    {e : Dev}
    (he : (let r := (s.dev.reach s.dev.hlt.scrubAt).maintTake 0x001 1 0
      if r.1 then r.2
      else (r.2.setHlt { r.2.hlt with scrubAt := r.2.now + Config.perMs }).bump 0x001 Reg.PCH.SCRUB_REFUSED) = e) :
    Completes .patrolScrub s e := by
  refine .ofEffect (exec_patrolScrub ..) hs ?_
  rw [if_neg (by simp [hen, hfree])]
  exact he

/-- R555: a chunk of the patrol scrub ends with what it found. -/
theorem Completes.scrubChunkDone (hs : s.Runs) (hheld : s.dev.holds 0x001 1 = true) {corrected engine : Nat}
    {bad : List (Bool × BitVec 32)} {e : Dev}
    (he : (let d := (s.dev.bump 0x001 Reg.PCH.SRAM_CORRECTED corrected).bump 0x050 Reg.ENG.ECC_CORRECTED (min engine corrected)
      let d := if corrected = 0 then d else d.fault 0x001 0x01 0
      let d := (bad.foldl (fun (d : Dev) x => d.scrubFinds x) d).maintEnd 0x001 1
      let last := d.hlt.chunk = 191
      let d := d.setHlt { d.hlt with chunk := (d.hlt.chunk + 1) % 192 }
      if last then d.bump 0x001 Reg.PCH.SCRUB_PASSES else d) = e) : Completes (.scrubChunkDone ⟨corrected, engine⟩ bad) s e := by
  refine .ofEffect (exec_scrubChunkDone ..) hs ?_
  rw [if_neg (by simp [hheld])]
  exact he

/-- R540: a rail that its monitor watches is a fault, but in Struck. -/
theorem Completes.supplyFault (ha : s.Alive) {rail : BitVec 32} (hw : s.dev.railWatched rail.toNat = true) :
    Completes (.supplyFault rail) s
      (if s.dev.pwr.power = .struck then s.dev.setHlt { s.dev.hlt with badSupply := true }
      else (s.dev.setHlt { s.dev.hlt with badSupply := true }).fault 0x001 0x1A 0 rail.toNat) := by
  refine .ofAlwaysOnEffect (exec_supplyFault ..) ha ?_
  rw [if_neg (by simp [hw])]
  by_cases hp : s.dev.pwr.power = .struck
  · rw [if_pos hp]
    exact if_pos (beq_iff_eq.mpr hp)
  · rw [if_neg hp]
    exact if_neg (fun h => hp (beq_iff_eq.mp h))

/-- R514: the MRAM scrub ends with what it found. -/
theorem Completes.mramScrubDone (hs : s.Runs) (hheld : s.dev.holds 0x008 2 = true) {corrected : Nat} {bad : List MramItem}
    {e : Dev}
    (he : (let d := s.dev.bump 0x008 Reg.MST.MRAM_CORRECTED corrected
      let d := if corrected = 0 then d else d.fault 0x008 0x0B 0
      let d := bad.foldl (fun (d : Dev) i => (d.mramBad i).fault 0x008 0x0C 0) d
      (d.setMst { d.mst with scrubAt := d.now + 24 * 3600 * 1000 * Config.perMs }).maintEnd 0x008 2) = e) :
    Completes (.mramScrubDone corrected bad) s e := by
  refine .ofEffect (exec_mramScrubDone ..) hs ?_
  rw [if_neg (by simp [hheld])]
  exact he

end

/-- Settles O60: each clause is its command's effect. The pages and units of the fault records are the model's choice
(notes/assumptions/43.md), and so is that a supply fault in Struck makes no record (notes/assumptions/51.md). -/
theorem healthCommandsComplete : Obligations.HealthCommandsComplete := by
  intro s via
  refine ⟨fun hs hrun => .mhRestart hs hrun rfl, fun ha e es h => ?_, fun hs h => ⟨fun page hpage => ?_, fun page => ?_, ?_⟩,
    fun hs tj hawake => ?_, fun hs hen hfree => .patrolScrub hs hen hfree rfl,
    fun hs hheld corrected engine bad => .scrubChunkDone hs hheld rfl, fun hs hmon => ?_,
    fun ha rail hw => .supplyFault ha hw, fun hs pg hpg => ?_, fun hs => ?_,
    fun hs hheld corrected bad => .mramScrubDone hs hheld rfl⟩
  · exact .ofAlwaysOnEffect (exec_freezeWrite ..) ha (Dev.freezeNext_of_waiting h)
  · refine .ofBusEffect (exec_faultAck_eq ..) hs h ?_
    rw [Dev.faultAck, if_neg (by simp)]
    exact if_pos hpage
  · exact .ofBusEffect (exec_faultAck_eq ..) hs h (if_pos rfl)
  · exact .ofBusEffect (exec_hostSafe_eq ..) hs h (Dev.hostSafe_of_key _)
  · exact .ofEffect (exec_tempSample ..) hs (if_neg (by simp [hawake]))
  · exact .ofEffect (exec_clockLoss ..) hs (if_pos hmon)
  · exact .ofEffect (exec_parity ..) hs (if_pos hpg)
  · exact .ofEffect (exec_mramScrub ..) hs rfl

end Sys2Proof.Machine

/-! SUPPORT. The safe state (R549, R550): what a fault of class 0x5 makes of the block. -/

namespace Sys2Proof.Machine

open Sys2Proof

/-! ### What the making of a record leaves (R541 to R547) -/

/-- SAFE_ENTRIES is no field that events or their requests are stored in. -/
theorem safeEntries_still : (Reg.PCH.SAFE_ENTRIES).Still 0x001 0 :=
  Fld.still_of_off 0x001 (by decide) (by decide) (by decide) (by decide)

/-- `e` has the switch core of `d`, and has entered the safe state as often. -/
structure SameCore (d e : Dev) : Prop where
  swc : e.swc = d.swc
  entries : e.rd 0x001 Reg.PCH.SAFE_ENTRIES = d.rd 0x001 Reg.PCH.SAFE_ENTRIES

/-- `e` has the Stay fabric of `d`, too. -/
structure SameTraffic (d e : Dev) : Prop extends SameCore d e where
  sty : e.sty = d.sty

namespace SameCore

theorem refl (d : Dev) : SameCore d d := ⟨rfl, rfl⟩

theorem trans {a b c : Dev} (h : SameCore a b) (g : SameCore b c) : SameCore a c :=
  ⟨g.swc.trans h.swc, g.entries.trans h.entries⟩

/-- A state with the same switch core and registers. -/
theorem of_eq {d e : Dev} (hswc : e.swc = d.swc) (hregs : e.regs = d.regs) : SameCore d e :=
  ⟨hswc, Dev.rd_eq_of_regs hregs ..⟩

theorem foldl {α : Type} {f : Dev → α → Dev} {l : List α} (h : ∀ d, ∀ x ∈ l, SameCore d (f d x)) (d : Dev) :
    SameCore d (l.foldl f d) := by
  induction l generalizing d with
  | nil => exact refl d
  | cons x l ih =>
    have first := h d x (List.mem_cons_self ..)
    exact first.trans (ih (fun d y hy => h d y (List.mem_cons_of_mem x hy)) _)

end SameCore

namespace SameTraffic

theorem refl (d : Dev) : SameTraffic d d := ⟨.refl d, rfl⟩

theorem trans {a b c : Dev} (h : SameTraffic a b) (g : SameTraffic b c) : SameTraffic a c :=
  ⟨h.toSameCore.trans g.toSameCore, g.sty.trans h.sty⟩

/-- A state with the same switch core, Stay fabric and registers. -/
theorem of_eq {d e : Dev} (hswc : e.swc = d.swc) (hregs : e.regs = d.regs) (hsty : e.sty = d.sty) : SameTraffic d e :=
  ⟨.of_eq hswc hregs, hsty⟩

/-- The write of another field. -/
theorem wr (d : Dev) (p : PageId) {f : Fld} {i : Nat} (ho : f.off + f.step * i < 4096) (hl : f.lo < 32)
    (h : p ≠ 0x001 ∨ f.off + f.step * i ≠ 0x090) (v : Nat) : SameTraffic d (d.wr p f v i) := by
  have other : p ≠ 0x001 ∨ f.off + f.step * i ≠ 0x090 ∨ f.lo ≠ 0 := h.imp_right .inl
  refine ⟨⟨rfl, Dev.rd_wr_other _ _ _ _ _ _ _ _ (fieldKey_ne (by decide) ho (by decide) hl ?_)⟩, rfl⟩
  exact other.imp Ne.symm (.imp Ne.symm Ne.symm)

theorem raise (d : Dev) (p : PageId) (bit : Nat) : SameTraffic d (d.raise p bit) := by
  have signals := d.raise_signals p bit
  exact ⟨⟨signals.swc_eq, Dev.raise_rd safeEntries_still ..⟩, signals.sty_eq⟩

theorem foldl {α : Type} {f : Dev → α → Dev} (h : ∀ d x, SameTraffic d (f d x)) (l : List α) (d : Dev) :
    SameTraffic d (l.foldl f d) :=
  ⟨.foldl (fun d x _ => (h d x).toSameCore) d, Dev.foldl_same Dev.sty (fun d x => (h d x).sty) l d⟩

theorem sentences {d e : Dev} (h : SameTraffic d e) : e.sentences = d.sentences := by
  simp only [Dev.sentences, h.swc, h.sty]

/-- R544: an entry for the freeze ring waits. -/
theorem freezeRec (d : Dev) (i : Nat) : SameTraffic d (d.freezeRec i) := by
  unfold Dev.freezeRec
  split
  · split
    · exact refl d
    · exact of_eq rfl rfl rfl
  · exact refl d

/-- R547: a report to the manager is no sentence of the switch core yet. -/
theorem reportFault (d : Dev) (r : FaultRec) : SameTraffic d (d.reportFault r) := by
  simp only [Dev.reportFault, Dev.sendFault]
  split
  · split
    · split
      · exact refl d
      · exact of_eq rfl rfl rfl
    · exact of_eq rfl rfl rfl
  · exact refl d

end SameTraffic

/-- R541, R542: the registers of the log and the page after record `i` of class `cls`. -/
def Dev.recordCounted (d : Dev) (p : PageId) (cls i : Nat) : Dev :=
  let d := (d.wr 0x001 Reg.PCH_FLT_NEXT.NEXT (i + 1)).bump 0x001 Reg.PCH.FLT_RECORDS
  let d := d.wr p Reg.PG_FAULT.WORST (max cls (d.rd p Reg.PG_FAULT.WORST))
  let d := d.wr p Reg.PG_FAULT.COUNT (min 255 (d.rd p Reg.PG_FAULT.COUNT + 1))
  d.wr p Reg.PG_FAULT.LASTREC i

/-- R544: a record of class 0x5 sends the 15 before it to the freeze ring. -/
def Dev.ringFrozen (d : Dev) (cls i : Nat) : Dev :=
  if cls = 5 then (List.range 15).foldl (fun d k => d.freezeRec (i + 65536 - 15 + k)) d else d

/-- R544: the records that record `i` of class `cls` sends to the freeze ring. -/
def Dev.recordFrozen (d : Dev) (cls i : Nat) : Dev :=
  if 4 ≤ cls then (d.ringFrozen cls i).freezeRec i else d.ringFrozen cls i

theorem Dev.recordCounted_traffic (d : Dev) (p : PageId) (cls i : Nat) : SameTraffic d (d.recordCounted p cls i) :=
  (SameTraffic.wr _ _ (by decide) (by decide) (.inr (by decide)) _).trans <|
    (SameTraffic.wr _ _ (by decide) (by decide) (.inr (by decide)) _).trans <|
    (SameTraffic.wr _ _ (by decide) (by decide) (.inr (by decide)) _).trans <|
    (SameTraffic.wr _ _ (by decide) (by decide) (.inr (by decide)) _).trans <|
    SameTraffic.wr _ _ (by decide) (by decide) (.inr (by decide)) _

theorem Dev.ringFrozen_traffic (d : Dev) (cls i : Nat) : SameTraffic d (d.ringFrozen cls i) := by
  unfold Dev.ringFrozen
  split
  · exact .foldl (fun d k => .freezeRec d _) _ _
  · exact .refl d

theorem Dev.recordFrozen_traffic (d : Dev) (cls i : Nat) : SameTraffic d (d.recordFrozen cls i) := by
  unfold Dev.recordFrozen
  split
  · exact (d.ringFrozen_traffic cls i).trans (.freezeRec _ _)
  · exact d.ringFrozen_traffic cls i

/-- R541: making a record ends no sentence. -/
theorem Dev.newRecord_traffic (d : Dev) (p : PageId) (cause unit detail : Nat) (talker : BitVec 14) (seq : BitVec 16) :
    SameTraffic d (d.newRecord p cause unit detail talker seq) := by
  simp only [Dev.newRecord]
  refine .trans ?_ (.reportFault _ _)
  refine .trans (.trans (.trans ?_ (Dev.recordCounted_traffic _ p (causeClass cause) (d.rd 0x001 Reg.PCH_FLT_NEXT.NEXT)))
    ((SameTraffic.raise _ p 2).trans (.raise _ 0x000 20))) (Dev.recordFrozen_traffic _ _ _)
  exact .of_eq rfl rfl rfl

/-! ### What the safe state ends (R550) -/

theorem Dev.emitWires_regs {α : Type} (w : α → Wire) (l : List α) (d : Dev) :
    (l.foldl (fun d x => d.emitWire (w x)) d).regs = d.regs :=
  Dev.foldl_same (f := fun d x => d.emitWire (w x)) Dev.regs (fun _ _ => rfl) l d

theorem Dev.emitWires_swc {α : Type} (w : α → Wire) (l : List α) (d : Dev) :
    (l.foldl (fun d x => d.emitWire (w x)) d).swc = d.swc :=
  Dev.foldl_same (f := fun d x => d.emitWire (w x)) Dev.swc (fun _ _ => rfl) l d

/-- R505, R550: nothing of what is discarded stands in a register. -/
theorem Dev.dropAll_regs (d : Dev) : d.dropAll.regs = d.regs := by
  simp only [Dev.dropAll, Dev.emitWires_regs]

/-- R505, R550: every sentence of the switch core is discarded. -/
theorem Dev.dropAll_swc (d : Dev) : d.dropAll.swc = d.swc.emptied := by
  simp only [Dev.dropAll, Dev.emitWires_swc]

/-- R550: an image command that ends has its result. -/
theorem Dev.imageEnded_core (d : Dev) (n : Nat) : SameCore d ((((d.wr (instPage n) Reg.INST_STAT.IMG_BUSY 0).wr 0x100
    Reg.INST_CMD.GO 0).wr 0x100 Reg.INST_CMD.RESULT 7).raise 0x100 21) :=
  (((SameTraffic.wr _ _ (by decide) (by decide) (.inr (by decide)) _).trans
    (.wr _ _ (by decide) (by decide) (.inr (by decide)) _)).trans
    (.trans (.wr _ _ (by decide) (by decide) (.inr (by decide)) _) (.raise ..))).toSameCore

theorem Dev.imageCut_core (d : Dev) : SameCore d d.imageCut := by
  simp only [Dev.imageCut]
  split
  · split
    · refine .trans ?_ (Dev.imageEnded_core _ _)
      exact .of_eq rfl rfl
    · exact .refl d
  · exact .refl d

/-- R508: an entry that is given up has its result. -/
theorem Dev.entryRefused_core (d : Dev) :
    SameCore d ((d.wr 0x000 Reg.PCH_PWR_STAT.RESULT 4).wr 0x000 Reg.PCH_PWR_CTRL.GO 0) :=
  ((SameTraffic.wr _ _ (by decide) (by decide) (.inr (by decide)) _).trans
    (.wr _ _ (by decide) (by decide) (.inr (by decide)) _)).toSameCore

theorem Dev.entryAborted_core (d : Dev) : SameCore d d.entryAborted := by
  simp only [Dev.entryAborted]
  split
  · refine .trans ?_ (Dev.entryRefused_core _)
    exact .of_eq rfl rfl
  · exact .refl d

/-- R550: the retraining of a lane and the steps of a domain do not go on. -/
theorem Dev.stepsEnd_core (d : Dev) : SameCore d ((List.range 4).foldl (fun (d : Dev) l =>
    (d.wr (linkPage l) Reg.STY_LINK_RETRAIN.START 0).wr 0x021 Reg.TBU_DOM_STEP_CTRL.GO 0 l) d) := by
  refine .foldl (fun d l hl => ?_) d
  have bound : l < 4 := List.mem_range.mp hl
  refine SameCore.trans (SameTraffic.wr _ (linkPage l) (by decide) (by decide) (.inr (by decide)) 0).toSameCore
    (SameTraffic.wr _ 0x021 ?_ (by decide) (.inl (by decide)) 0).toSameCore
  show 0x050 + 64 * l < 4096
  omega

/-- R550: the diagnosis of a port does not go on. -/
theorem Dev.diagsEnd_core (d : Dev) :
    SameCore d ((List.range 8).foldl (fun (d : Dev) z => d.wr (ethPage (4 + z)) Reg.ETH_T1_CFG.DIAG_START 0) d) :=
  .foldl (fun _ _ _ => (SameTraffic.wr _ _ (by decide) (by decide) (.inr (by decide)) 0).toSameCore) d

/-- R550: the end of the activities discards nothing of the switch core. -/
theorem Dev.activitiesEnd_core (d : Dev) : SameCore d d.activitiesEnd := by
  simp only [Dev.activitiesEnd]
  refine .trans (.trans (.trans (.trans ?_ (SameTraffic.wr _ 0x028 (f := Reg.NRM_COMMIT.GO) (i := 0) (by decide) (by decide)
    (.inr (by decide)) 0).toSameCore) (Dev.imageCut_core _)) (Dev.stepsEnd_core _)) (Dev.diagsEnd_core _)
  exact .of_eq rfl rfl

/-! ### The safe state (R549, R550) -/

/-- R550: the block when everything in it has ended and its outputs stand at the safe level. -/
def Dev.calmed (d : Dev) : Dev :=
  let e := d.dropAll.activitiesEnd.entryAborted
  { e with pwr := { e.pwr with silent := true } }

theorem Dev.safeState_eq (d : Dev) (cause : Nat) : d.safeState cause =
    (((d.calmed.wr 0x001 Reg.PCH_SAFE.ACTIVE 1).wr 0x001 Reg.PCH_SAFE.CAUSE cause).wr 0x001 Reg.PCH_SAFE_LOST.COUNT
      d.sentences).bump 0x001 Reg.PCH.SAFE_ENTRIES := rfl

/-- R550: what ends changes nothing of the switch core but what is discarded. -/
theorem Dev.calmed_core (d : Dev) : SameCore d.dropAll d.calmed := by
  refine .trans ((Dev.activitiesEnd_core _).trans (Dev.entryAborted_core _)) ?_
  exact .of_eq rfl rfl

theorem Dev.calmed_swc (d : Dev) : d.calmed.swc = d.swc.emptied := d.calmed_core.swc.trans d.dropAll_swc

theorem Dev.calmed_entries (d : Dev) : d.calmed.rd 0x001 Reg.PCH.SAFE_ENTRIES = d.rd 0x001 Reg.PCH.SAFE_ENTRIES :=
  d.calmed_core.entries.trans (Dev.rd_eq_of_regs d.dropAll_regs ..)

section
variable (d : Dev) (cause : Nat)

theorem Dev.safeState_swc : (d.safeState cause).swc = d.swc.emptied := by
  simp only [Dev.safeState_eq, Dev.bump_swc, Dev.wr_swc, Dev.calmed_swc]

theorem Dev.safeState_silent : (d.safeState cause).pwr.silent = true := by
  simp only [Dev.safeState_eq, Dev.bump_pwr, Dev.wr_pwr]
  rfl

theorem Dev.safeState_active : (d.safeState cause).rd 0x001 Reg.PCH_SAFE.ACTIVE = 1 := by
  rw [Dev.safeState_eq, Dev.bump, Dev.rd_wr_other _ _ _ _ _ _ _ _ (by decide), Dev.rd_wr_other _ _ _ _ _ _ _ _ (by decide),
    Dev.rd_wr_other _ _ _ _ _ _ _ _ (by decide), Dev.rd_wr_same _ _ _ _ _ (by decide)]
  rfl

theorem Dev.safeState_cause : (d.safeState cause).rd 0x001 Reg.PCH_SAFE.CAUSE = cause % 2 ^ 8 := by
  rw [Dev.safeState_eq, Dev.bump, Dev.rd_wr_other _ _ _ _ _ _ _ _ (by decide), Dev.rd_wr_other _ _ _ _ _ _ _ _ (by decide),
    Dev.rd_wr_same _ _ _ _ _ (by decide)]

theorem Dev.safeState_lost : (d.safeState cause).rd 0x001 Reg.PCH_SAFE_LOST.COUNT = d.sentences % 2 ^ 32 := by
  rw [Dev.safeState_eq, Dev.bump, Dev.rd_wr_other _ _ _ _ _ _ _ _ (by decide), Dev.rd_wr_same _ _ _ _ _ (by decide)]

theorem Dev.safeState_entries :
    (d.safeState cause).rd 0x001 Reg.PCH.SAFE_ENTRIES = (d.rd 0x001 Reg.PCH.SAFE_ENTRIES + 1) % 2 ^ 32 := by
  rw [Dev.safeState_eq, Dev.bump, Dev.rd_wr_same _ _ _ _ _ (by decide), Dev.rd_wr_other _ _ _ _ _ _ _ _ (by decide),
    Dev.rd_wr_other _ _ _ _ _ _ _ _ (by decide), Dev.rd_wr_other _ _ _ _ _ _ _ _ (by decide), Dev.calmed_entries]

end

/-! ### What the end of the command shows (R552, R578) -/

/-- R578: a level that starts to hold latches its event. -/
theorem Dev.followLevels_evt {d e : Dev} {p : PageId} {k : Nat} (hp : p ∈ levelPages) (hk : k < 32)
    (hmask : newBits (d.levels p) (e.levels p) < 2 ^ 32) (hnew : bitAt (newBits (d.levels p) (e.levels p)) k = true) :
    bitAt ((d.followLevels e).rd p Reg.PG_EVT.EVT) k = true := by
  obtain ⟨before, after, hpages⟩ := List.append_of_mem hp
  rw [Dev.followLevels, hpages, List.foldl_append, List.foldl_cons]
  generalize before.foldl (fun e' q => e'.latch q (newBits (d.levels q) (e.levels q))) e = x
  have latched : bitAt ((x.latch p (newBits (d.levels p) (e.levels p))).rd p Reg.PG_EVT.EVT) k = true := by
    rw [Dev.latch_evt _ _ hmask, bitAt_eq_testBit]
    rw [bitAt_eq_testBit] at hnew
    simp [hnew]
  generalize x.latch p (newBits (d.levels p) (e.levels p)) = y at latched
  clear hpages
  induction after generalizing y with
  | nil => exact latched
  | cons q l ih => exact ih _ (Dev.latch_keeps_evt hk latched _ _)

/-- R549, R578: the one level of page 0x000 is that the safe state is active. -/
theorem Dev.levels_platform (d : Dev) : d.levels 0x000 = if d.on 0x001 Reg.PCH_SAFE.ACTIVE then 2 ^ 21 else 0 := rfl

/-- R549, R578: the entry to the safe state latches SAFE on page 0x000. -/
theorem Dev.closing_safe {d e : Dev} (hd : d.on 0x001 Reg.PCH_SAFE.ACTIVE = false) (he : e.rd 0x001 Reg.PCH_SAFE.ACTIVE = 1) :
    bitAt ((d.closing e).rd 0x000 Reg.PG_EVT.EVT) 21 = true := by
  have active : (d.restarted e).svcFollow.spillFollow.on 0x001 Reg.PCH_SAFE.ACTIVE = true := by
    have read : (d.restarted e).svcFollow.rd 0x001 Reg.PCH_SAFE.ACTIVE = 1 :=
      (Dev.svcFollow_rd (Fld.still_of_off 0x001 (by decide) (by decide) (by decide) (by decide)) _).trans he
    show ((d.restarted e).svcFollow.rd 0x001 Reg.PCH_SAFE.ACTIVE != 0) = true
    rw [read]
    rfl
  have fresh : newBits (d.levels 0x000) ((d.restarted e).svcFollow.spillFollow.levels 0x000) = 2 ^ 21 := by
    rw [Dev.levels_platform, Dev.levels_platform, hd, active]
    rfl
  exact Dev.followLevels_evt (by decide) (by decide) (by rw [fresh]; decide) (by rw [fresh]; decide)

/-- R541, R549: a fault of class 0x5 makes a record of its own, and enters the safe state. -/
theorem Dev.fault_of_class5 {cause : Nat} (h : causeClass cause = 5) (d : Dev) (p : PageId) (unit detail : Nat) :
    d.fault p cause unit detail = (d.newRecord p cause unit detail 0 0).safeState cause := by
  simp only [Dev.fault, h, ne_eq, not_true_eq_false, false_and, if_false, if_true]
  split <;> rfl

/-- What lies behind the end of a list reads as the default. -/
theorem listGet_of_le {α : Type} (x : α) : ∀ (l : List α) (n : Nat), l.length ≤ n → listGet x l n = x
  | [], _, _ => rfl
  | _ :: l, n + 1, h => listGet_of_le x l n (Nat.le_of_succ_le_succ h)

/-- R540: the causes of class 0x5 have the codes 0x18 to 0x1C. -/
theorem cause_lt_of_class5 {cause : Nat} (h : causeClass cause = 5) : cause < 29 := by
  rcases Nat.lt_or_ge cause 29 with hlt | hge
  · exact hlt
  · have reserved : causeClass cause = 0 := listGet_of_le 0 _ _ hge
    omega

/-- Settles O59: the fault makes a record, which ends no sentence, and enters the safe state; at the end of the command the
level of page 0x000 latches SAFE, and SVC_OK follows. -/
theorem classFiveFaultsEnterTheSafeState : Obligations.ClassFiveFaultsEnterTheSafeState := by
  intro d p cause unit detail h5 hd
  rw [Dev.fault_of_class5 h5]
  have made := d.newRecord_traffic p cause unit detail 0 0
  generalize d.newRecord p cause unit detail 0 0 = e at made
  have shows (f : Fld) (ho : f.off + f.step * 0 < 4096) (hl : f.lo < 32) (he : f.off + f.step * 0 ≠ Reg.PG_EVT.EVT.off)
      (hp : f.off + f.step * 0 ≠ Reg.HBR_LHP_IRQ.PENDING.off) :
      (d.closing (e.safeState cause)).rd 0x001 f = (e.safeState cause).rd 0x001 f :=
    Dev.closing_rd (Fld.still_of_off 0x001 ho hl he hp) _ _
  have active := e.safeState_active cause
  refine ⟨?_, ?_, ?_, ?_, Dev.closing_safe hd active, ?_, ?_, ?_, ?_⟩
  · exact (shows _ (by decide) (by decide) (by decide) (by decide)).trans active
  · rw [shows _ (by decide) (by decide) (by decide) (by decide), Dev.safeState_cause]
    exact Nat.mod_eq_of_lt (by have := cause_lt_of_class5 h5; omega)
  · rw [shows _ (by decide) (by decide) (by decide) (by decide), Dev.safeState_entries, made.entries]
  · rw [shows _ (by decide) (by decide) (by decide) (by decide), Dev.safeState_lost, made.sentences]
  · rw [Dev.closing_pwr]
    exact e.safeState_silent cause
  · rw [Dev.closing_svcOk]
    simp [Dev.svcHolds, Dev.on, active]
  · rw [Dev.closing_swc, Dev.safeState_swc]
    rfl
  · rw [Dev.closing_swc, Dev.safeState_swc]
    rfl

end Sys2Proof.Machine
